-- ==== Sys2Proof/Word.lean ====
section
/-! DEFINITION. The word types of the panel and the plain names shared by every file (R3, R22, R286). -/

namespace Sys2Proof

/-- A 64-bit register, address or CSR value (R30, R37). -/
abbrev Word := BitVec 64

/-- A 32-bit instruction word (R22). -/
abbrev Word32 := BitVec 32

/-- The smallest addressable unit (R3). -/
abbrev Byte := BitVec 8

/-- A 512-bit vector register, or one 64-byte row of a matrix register (R32, R34). -/
abbrev VReg := BitVec 512

/-- What an access does at its address; each kind has its own permissions and page fault (R112). -/
inductive AccessKind where
  | fetch
  | load
  | store
  | amo
  deriving DecidableEq, Repr, Inhabited

/-- What the patrol engine finds in a line (R99): the array's own condition, so an input of the event. -/
inductive PatrolFinding where
  | clean
  | corrected
  | uncorrectable
  deriving DecidableEq, Repr, Inhabited

/-- One segment of a Bollia image (R367): the fields of its descriptor, of whose kinds only text matters to the loader, the
digest and the signature. -/
structure Segment where
  isText : Bool
  flags : BitVec 32
  target : Word
  length : Nat
  offset : Nat
  digest : List Byte
  signature : List Byte
  deriving DecidableEq, Repr, Inhabited

/-- A Bollia image as the loader engine receives it (R367): the header's magic, version, segment count and key slot, the
hart whose tables map the targets, the segments in file order, and the bytes of the file. -/
structure BolliaImage where
  magic : BitVec 32
  version : BitVec 32
  count : Nat
  keySlot : Nat
  hart : Nat
  segments : List Segment
  file : List Byte
  deriving DecidableEq, Repr, Inhabited

end Sys2Proof
end

