-- ==== Sys2Proof/Syntax.lean ====
section
/-! DEFINITION. The one inductive of the model: every row of the opcode table is a constructor. The rows with an
encoding are the Haesh instructions (fields from the high end of the word down, `sc` the stall count of R22); the rows
without one are the steps of the panel's other agents, with what their environment decides as arguments. -/

namespace Sys2Proof

/-- Haesh instructions (R38-R49) and the panel's own steps (95_what_each_step_holds.md). -/
inductive Instr where
  /-- R144: Writes the 64-bit wrapped sum of gA and gB to gD. -/
  | add (sc : BitVec 3) (d : BitVec 5) (a : BitVec 5) (b : BitVec 5)
  /-- R144: Writes the 64-bit wrapped difference gA minus gB to gD. -/
  | sub (sc : BitVec 3) (d : BitVec 5) (a : BitVec 5) (b : BitVec 5)
  /-- R144: Writes the bitwise AND of gA and gB to gD. -/
  | and (sc : BitVec 3) (d : BitVec 5) (a : BitVec 5) (b : BitVec 5)
  /-- R144: Writes the bitwise OR of gA and gB to gD. -/
  | or (sc : BitVec 3) (d : BitVec 5) (a : BitVec 5) (b : BitVec 5)
  /-- R144: Writes the bitwise XOR of gA and gB to gD. -/
  | xor (sc : BitVec 3) (d : BitVec 5) (a : BitVec 5) (b : BitVec 5)
  /-- R144: Writes gA AND NOT gB to gD. -/
  | andn (sc : BitVec 3) (d : BitVec 5) (a : BitVec 5) (b : BitVec 5)
  /-- R144: Writes gA OR NOT gB to gD. -/
  | orn (sc : BitVec 3) (d : BitVec 5) (a : BitVec 5) (b : BitVec 5)
  /-- R144: Shifts gA left by gB[5:0] into gD. -/
  | sll (sc : BitVec 3) (d : BitVec 5) (a : BitVec 5) (b : BitVec 5)
  /-- R144: Shifts gA right logically by gB[5:0] into gD. -/
  | srl (sc : BitVec 3) (d : BitVec 5) (a : BitVec 5) (b : BitVec 5)
  /-- R144: Shifts gA right arithmetically by gB[5:0] into gD. -/
  | sra (sc : BitVec 3) (d : BitVec 5) (a : BitVec 5) (b : BitVec 5)
  /-- R144: Rotates gA left by gB[5:0] into gD. -/
  | rol (sc : BitVec 3) (d : BitVec 5) (a : BitVec 5) (b : BitVec 5)
  /-- R144: Rotates gA right by gB[5:0] into gD. -/
  | ror (sc : BitVec 3) (d : BitVec 5) (a : BitVec 5) (b : BitVec 5)
  /-- R144: Writes 1 to gD if gA is less than gB as signed values, else 0. -/
  | slt (sc : BitVec 3) (d : BitVec 5) (a : BitVec 5) (b : BitVec 5)
  /-- R144: Writes 1 to gD if gA is less than gB as unsigned values, else 0. -/
  | sltu (sc : BitVec 3) (d : BitVec 5) (a : BitVec 5) (b : BitVec 5)
  /-- R144: Writes 1 to gD if gA equals gB, else 0. -/
  | seq (sc : BitVec 3) (d : BitVec 5) (a : BitVec 5) (b : BitVec 5)
  /-- R144: Writes 1 to gD if gA differs from gB, else 0. -/
  | sne (sc : BitVec 3) (d : BitVec 5) (a : BitVec 5) (b : BitVec 5)
  /-- R144: Writes the signed minimum of gA and gB to gD. -/
  | min (sc : BitVec 3) (d : BitVec 5) (a : BitVec 5) (b : BitVec 5)
  /-- R144: Writes the signed maximum of gA and gB to gD. -/
  | max (sc : BitVec 3) (d : BitVec 5) (a : BitVec 5) (b : BitVec 5)
  /-- R144: Writes the unsigned minimum of gA and gB to gD. -/
  | minu (sc : BitVec 3) (d : BitVec 5) (a : BitVec 5) (b : BitVec 5)
  /-- R144: Writes the unsigned maximum of gA and gB to gD. -/
  | maxu (sc : BitVec 3) (d : BitVec 5) (a : BitVec 5) (b : BitVec 5)
  /-- R144: Writes the count of leading zero bits of gA to gD. -/
  | clz (sc : BitVec 3) (d : BitVec 5) (a : BitVec 5)
  /-- R144: Writes the count of trailing zero bits of gA to gD. -/
  | ctz (sc : BitVec 3) (d : BitVec 5) (a : BitVec 5)
  /-- R144: Writes the number of one bits of gA to gD. -/
  | popc (sc : BitVec 3) (d : BitVec 5) (a : BitVec 5)
  /-- R144: Writes gA with its bit order reversed to gD. -/
  | brev (sc : BitVec 3) (d : BitVec 5) (a : BitVec 5)
  /-- R144: Sign-extends the low byte of gA into gD. -/
  | sextb (sc : BitVec 3) (d : BitVec 5) (a : BitVec 5)
  /-- R144: Sign-extends the low halfword of gA into gD. -/
  | sexth (sc : BitVec 3) (d : BitVec 5) (a : BitVec 5)
  /-- R144: Sign-extends the low word of gA into gD. -/
  | sextw (sc : BitVec 3) (d : BitVec 5) (a : BitVec 5)
  /-- R144: Zero-extends the low word of gA into gD. -/
  | zextw (sc : BitVec 3) (d : BitVec 5) (a : BitVec 5)
  /-- R144: Writes (gA shifted left by 1 to 4) plus gB to gD. -/
  | addsh (sc : BitVec 3) (d : BitVec 5) (a : BitVec 5) (b : BitVec 5) (h : BitVec 2)
  /-- R145: Adds the low words and sign-extends the 32-bit result into gD. -/
  | addw (sc : BitVec 3) (d : BitVec 5) (a : BitVec 5) (b : BitVec 5)
  /-- R145: Subtracts the low words and sign-extends the 32-bit result into gD. -/
  | subw (sc : BitVec 3) (d : BitVec 5) (a : BitVec 5) (b : BitVec 5)
  /-- R145: Shifts the low word left by gB[4:0] and sign-extends into gD. -/
  | sllw (sc : BitVec 3) (d : BitVec 5) (a : BitVec 5) (b : BitVec 5)
  /-- R145: Shifts the low word right logically and sign-extends into gD. -/
  | srlw (sc : BitVec 3) (d : BitVec 5) (a : BitVec 5) (b : BitVec 5)
  /-- R145: Shifts the low word right arithmetically and sign-extends into gD. -/
  | sraw (sc : BitVec 3) (d : BitVec 5) (a : BitVec 5) (b : BitVec 5)
  /-- R145: Rotates the low word left within 32 bits and sign-extends into gD. -/
  | rolw (sc : BitVec 3) (d : BitVec 5) (a : BitVec 5) (b : BitVec 5)
  /-- R145: Rotates the low word right within 32 bits and sign-extends into gD. -/
  | rorw (sc : BitVec 3) (d : BitVec 5) (a : BitVec 5) (b : BitVec 5)
  /-- R146: Writes the low 64 bits of gA times gB to gD. -/
  | mul (sc : BitVec 3) (d : BitVec 5) (a : BitVec 5) (b : BitVec 5)
  /-- R146: Writes the high 64 bits of the signed 128-bit product to gD. -/
  | mulhs (sc : BitVec 3) (d : BitVec 5) (a : BitVec 5) (b : BitVec 5)
  /-- R146: Writes the high 64 bits of the unsigned 128-bit product to gD. -/
  | mulhz (sc : BitVec 3) (d : BitVec 5) (a : BitVec 5) (b : BitVec 5)
  /-- R146: Writes the high 64 bits of signed gA times unsigned gB to gD. -/
  | mulhsz (sc : BitVec 3) (d : BitVec 5) (a : BitVec 5) (b : BitVec 5)
  /-- R146: Writes the signed 64-bit quotient, saturating on zero divisor and overflow. -/
  | div (sc : BitVec 3) (d : BitVec 5) (a : BitVec 5) (b : BitVec 5)
  /-- R146: Writes the unsigned 64-bit quotient, all ones on a zero divisor. -/
  | divu (sc : BitVec 3) (d : BitVec 5) (a : BitVec 5) (b : BitVec 5)
  /-- R146: Writes the signed 64-bit remainder. -/
  | rem (sc : BitVec 3) (d : BitVec 5) (a : BitVec 5) (b : BitVec 5)
  /-- R146: Writes the unsigned 64-bit remainder. -/
  | remu (sc : BitVec 3) (d : BitVec 5) (a : BitVec 5) (b : BitVec 5)
  /-- R146: Writes the sign-extended low 32 bits of the product to gD. -/
  | mulw (sc : BitVec 3) (d : BitVec 5) (a : BitVec 5) (b : BitVec 5)
  /-- R146: Writes the sign-extended signed 32-bit quotient. -/
  | divw (sc : BitVec 3) (d : BitVec 5) (a : BitVec 5) (b : BitVec 5)
  /-- R146: Writes the sign-extended unsigned 32-bit quotient. -/
  | divuw (sc : BitVec 3) (d : BitVec 5) (a : BitVec 5) (b : BitVec 5)
  /-- R146: Writes the sign-extended signed 32-bit remainder. -/
  | remw (sc : BitVec 3) (d : BitVec 5) (a : BitVec 5) (b : BitVec 5)
  /-- R146: Writes the sign-extended unsigned 32-bit remainder. -/
  | remuw (sc : BitVec 3) (d : BitVec 5) (a : BitVec 5) (b : BitVec 5)
  /-- R147: Writes gA plus the sign-extended immediate to gD. -/
  | addi (sc : BitVec 3) (d : BitVec 5) (a : BitVec 5) (i : BitVec 12)
  /-- R147: Writes gA AND the sign-extended immediate to gD. -/
  | andi (sc : BitVec 3) (d : BitVec 5) (a : BitVec 5) (i : BitVec 12)
  /-- R147: Writes gA OR the sign-extended immediate to gD. -/
  | ori (sc : BitVec 3) (d : BitVec 5) (a : BitVec 5) (i : BitVec 12)
  /-- R147: Writes gA XOR the sign-extended immediate to gD. -/
  | xori (sc : BitVec 3) (d : BitVec 5) (a : BitVec 5) (i : BitVec 12)
  /-- R147: Writes 1 to gD if gA is signed-less than the immediate. -/
  | slti (sc : BitVec 3) (d : BitVec 5) (a : BitVec 5) (i : BitVec 12)
  /-- R147: Writes 1 to gD if gA is unsigned-less than the sign-extended immediate. -/
  | sltiu (sc : BitVec 3) (d : BitVec 5) (a : BitVec 5) (i : BitVec 12)
  /-- R147: Writes the sign-extended 32-bit sum of gA and the immediate to gD. -/
  | addiw (sc : BitVec 3) (d : BitVec 5) (a : BitVec 5) (i : BitVec 12)
  /-- R148: Shifts gA left by a 6-bit immediate into gD. -/
  | slli (sc : BitVec 3) (d : BitVec 5) (a : BitVec 5) (h : BitVec 6)
  /-- R148: Shifts gA right logically by a 6-bit immediate into gD. -/
  | srli (sc : BitVec 3) (d : BitVec 5) (a : BitVec 5) (h : BitVec 6)
  /-- R148: Shifts gA right arithmetically by a 6-bit immediate into gD. -/
  | srai (sc : BitVec 3) (d : BitVec 5) (a : BitVec 5) (h : BitVec 6)
  /-- R148: Rotates gA right by a 6-bit immediate into gD. -/
  | rori (sc : BitVec 3) (d : BitVec 5) (a : BitVec 5) (h : BitVec 6)
  /-- R148: Shifts the low word left by a 5-bit immediate and sign-extends. -/
  | slliw (sc : BitVec 3) (d : BitVec 5) (a : BitVec 5) (h : BitVec 5)
  /-- R148: Shifts the low word right logically by a 5-bit immediate and sign-extends. -/
  | srliw (sc : BitVec 3) (d : BitVec 5) (a : BitVec 5) (h : BitVec 5)
  /-- R148: Shifts the low word right arithmetically by a 5-bit immediate and sign-extends. -/
  | sraiw (sc : BitVec 3) (d : BitVec 5) (a : BitVec 5) (h : BitVec 5)
  /-- R148: Rotates the low word right by a 5-bit immediate and sign-extends. -/
  | roriw (sc : BitVec 3) (d : BitVec 5) (a : BitVec 5) (h : BitVec 5)
  /-- R149: Writes the sign-extended 17-bit immediate times 4096 to gD. -/
  | lui (sc : BitVec 3) (d : BitVec 5) (i : BitVec 17)
  /-- R149: Writes PC plus the sign-extended immediate times 4096 to gD. -/
  | auipc (sc : BitVec 3) (d : BitVec 5) (i : BitVec 17)
  /-- R49: Two-word EXT instruction that writes a sign-extended 32-bit immediate to gD. -/
  | liw (sc : BitVec 3) (d : BitVec 5) (imm : BitVec 32)
  /-- R150: Branches by a word offset if gA equals gB. -/
  | beq (sc : BitVec 3) (a : BitVec 5) (b : BitVec 5) (o : BitVec 12)
  /-- R150: Branches by a word offset if gA differs from gB. -/
  | bne (sc : BitVec 3) (a : BitVec 5) (b : BitVec 5) (o : BitVec 12)
  /-- R150: Branches if gA is signed-less than gB. -/
  | blt (sc : BitVec 3) (a : BitVec 5) (b : BitVec 5) (o : BitVec 12)
  /-- R150: Branches if gA is signed-greater-or-equal to gB. -/
  | bge (sc : BitVec 3) (a : BitVec 5) (b : BitVec 5) (o : BitVec 12)
  /-- R150: Branches if gA is unsigned-less than gB. -/
  | bltu (sc : BitVec 3) (a : BitVec 5) (b : BitVec 5) (o : BitVec 12)
  /-- R150: Branches if gA is unsigned-greater-or-equal to gB. -/
  | bgeu (sc : BitVec 3) (a : BitVec 5) (b : BitVec 5) (o : BitVec 12)
  /-- R151: Jumps by a 17-bit word offset and writes the return address to gD. -/
  | jal (sc : BitVec 3) (d : BitVec 5) (o : BitVec 17)
  /-- R151: Jumps to gA plus a byte offset, trapping if misaligned, and writes the link to gD. -/
  | jalr (sc : BitVec 3) (d : BitVec 5) (a : BitVec 5) (i : BitVec 12)
  /-- R153: Loads a byte and sign-extends it into gD. -/
  | ldb (sc : BitVec 3) (d : BitVec 5) (a : BitVec 5) (i : BitVec 12)
  /-- R153: Loads a halfword and sign-extends it into gD. -/
  | ldh (sc : BitVec 3) (d : BitVec 5) (a : BitVec 5) (i : BitVec 12)
  /-- R153: Loads a word and sign-extends it into gD. -/
  | ldw (sc : BitVec 3) (d : BitVec 5) (a : BitVec 5) (i : BitVec 12)
  /-- R153: Loads a dword into gD. -/
  | ldd (sc : BitVec 3) (d : BitVec 5) (a : BitVec 5) (i : BitVec 12)
  /-- R153: Loads a byte and zero-extends it into gD. -/
  | ldbz (sc : BitVec 3) (d : BitVec 5) (a : BitVec 5) (i : BitVec 12)
  /-- R153: Loads a halfword and zero-extends it into gD. -/
  | ldhz (sc : BitVec 3) (d : BitVec 5) (a : BitVec 5) (i : BitVec 12)
  /-- R153: Loads a word and zero-extends it into gD. -/
  | ldwz (sc : BitVec 3) (d : BitVec 5) (a : BitVec 5) (i : BitVec 12)
  /-- R153: Stores the low byte of the data register. -/
  | stb (sc : BitVec 3) (t : BitVec 5) (a : BitVec 5) (i : BitVec 12)
  /-- R153: Stores the low halfword of the data register. -/
  | sth (sc : BitVec 3) (t : BitVec 5) (a : BitVec 5) (i : BitVec 12)
  /-- R153: Stores the low word of the data register. -/
  | stw (sc : BitVec 3) (t : BitVec 5) (a : BitVec 5) (i : BitVec 12)
  /-- R153: Stores the data register as a dword. -/
  | std (sc : BitVec 3) (t : BitVec 5) (a : BitVec 5) (i : BitVec 12)
  /-- R154: Loads a word into fD with the upper bits set to 1. -/
  | fldw (sc : BitVec 3) (d : BitVec 5) (a : BitVec 5) (i : BitVec 12)
  /-- R154: Loads a dword into fD. -/
  | fldd (sc : BitVec 3) (d : BitVec 5) (a : BitVec 5) (i : BitVec 12)
  /-- R154: Stores the low 32 bits of an f register. -/
  | fstw (sc : BitVec 3) (t : BitVec 5) (a : BitVec 5) (i : BitVec 12)
  /-- R154: Stores an f register as a dword. -/
  | fstd (sc : BitVec 3) (t : BitVec 5) (a : BitVec 5) (i : BitVec 12)
  /-- R155: Loads and zero-extends a value at gA as an acquire of the named scope. -/
  | ldAcq (sc : BitVec 3) (d : BitVec 5) (a : BitVec 5) (e : BitVec 3) (z : BitVec 2)
  /-- R155: Stores gB at gA as a release of the named scope. -/
  | stRel (sc : BitVec 3) (a : BitVec 5) (b : BitVec 5) (e : BitVec 3) (z : BitVec 2)
  /-- R138: Sets a slice line full and wakes its waiters. -/
  | setfull (sc : BitVec 3) (a : BitVec 5)
  /-- R138: Sets a slice line empty. -/
  | setempty (sc : BitVec 3) (a : BitVec 5)
  /-- R138: Waits for a slice line to be full, then takes a dword and empties the line. -/
  | ldtake (sc : BitVec 3) (d : BitVec 5) (a : BitVec 5)
  /-- R138: Stores a dword and sets its slice line full as one operation, waking waiters. -/
  | stfill (sc : BitVec 3) (a : BitVec 5) (b : BitVec 5)
  /-- R138: Writes 1 to gD if a slice line is full, 0 if empty. -/
  | festat (sc : BitVec 3) (d : BitVec 5) (a : BitVec 5)
  /-- R215: Atomically adds gB at its home and returns the old value. -/
  | amoadd (sc : BitVec 3) (d : BitVec 5) (a : BitVec 5) (b : BitVec 5) (w : BitVec 1)
  /-- R215: Atomically stores the signed minimum and returns the old value. -/
  | amomin (sc : BitVec 3) (d : BitVec 5) (a : BitVec 5) (b : BitVec 5) (w : BitVec 1)
  /-- R215: Atomically stores the signed maximum and returns the old value. -/
  | amomax (sc : BitVec 3) (d : BitVec 5) (a : BitVec 5) (b : BitVec 5) (w : BitVec 1)
  /-- R215: Atomically ANDs gB and returns the old value. -/
  | amoand (sc : BitVec 3) (d : BitVec 5) (a : BitVec 5) (b : BitVec 5) (w : BitVec 1)
  /-- R215: Atomically ORs gB and returns the old value. -/
  | amoor (sc : BitVec 3) (d : BitVec 5) (a : BitVec 5) (b : BitVec 5) (w : BitVec 1)
  /-- R215: Atomically XORs gB and returns the old value. -/
  | amoxor (sc : BitVec 3) (d : BitVec 5) (a : BitVec 5) (b : BitVec 5) (w : BitVec 1)
  /-- R215: Atomically swaps in gB and returns the old value. -/
  | amoswap (sc : BitVec 3) (d : BitVec 5) (a : BitVec 5) (b : BitVec 5) (w : BitVec 1)
  /-- R215: Atomically writes gB if the location equals gD and returns the old value. -/
  | amocas (sc : BitVec 3) (d : BitVec 5) (a : BitVec 5) (b : BitVec 5) (w : BitVec 1)
  /-- R218: Sends 16 FP32 addends from vB to be accumulated at the target's home, merging with the tail. -/
  | accF32 (sc : BitVec 3) (a : BitVec 5) (b : BitVec 5)
  /-- R218: Sends 16 BF16 addends widened to FP32 for accumulation at the home. -/
  | accBf (sc : BitVec 3) (a : BitVec 5) (b : BitVec 5)
  /-- R218: Sends 16 s32 addends for accumulation at the home. -/
  | accS32 (sc : BitVec 3) (a : BitVec 5) (b : BitVec 5)
  /-- R218: Sends 8 s64 addends for accumulation at the home. -/
  | accS64 (sc : BitVec 3) (a : BitVec 5) (b : BitVec 5)
  /-- R225: Waits for earlier ACC outcomes, forces out every tail entry and waits for their outcomes. -/
  | flushres (sc : BitVec 3)
  /-- R226: Reports tail occupancy, pending ACCs and whether a tail entry matches gA. -/
  | tailstat (sc : BitVec 3) (d : BitVec 5) (a : BitVec 5)
  /-- R161: Reads a CSR into gD and writes gA to it. -/
  | csrrw (sc : BitVec 3) (d : BitVec 5) (a : BitVec 5) (c : BitVec 12)
  /-- R161: Reads a CSR into gD and sets the bits given in gA. -/
  | csrrs (sc : BitVec 3) (d : BitVec 5) (a : BitVec 5) (c : BitVec 12)
  /-- R161: Reads a CSR into gD and clears the bits given in gA. -/
  | csrrc (sc : BitVec 3) (d : BitVec 5) (a : BitVec 5) (c : BitVec 12)
  /-- R161: Reads a CSR into gD and writes a 5-bit immediate to it. -/
  | csrrwi (sc : BitVec 3) (d : BitVec 5) (i : BitVec 5) (c : BitVec 12)
  /-- R161: Reads a CSR into gD and sets the bits of a 5-bit immediate. -/
  | csrrsi (sc : BitVec 3) (d : BitVec 5) (i : BitVec 5) (c : BitVec 12)
  /-- R161: Reads a CSR into gD and clears the bits of a 5-bit immediate. -/
  | csrrci (sc : BitVec 3) (d : BitVec 5) (i : BitVec 5) (c : BitVec 12)
  /-- R298: Raises ECALL_U in U mode, or ECALL_K in K mode, which parks. -/
  | ecall (sc : BitVec 3)
  /-- R298: Raises BREAK, or enters debug halt when DBGCTL.EBRK is set. -/
  | ebreak (sc : BitVec 3)
  /-- R164: Returns from a U-level trap handler to UEPC and clears UCAUSE.UH. -/
  | uret (sc : BitVec 3)
  /-- R299: Returns from K mode to KSTATUS.PM at KEPC and restores IE. -/
  | kret (sc : BitVec 3)
  /-- R299: Returns from an F-level trap to FEPC on a supervisor hart. -/
  | fret (sc : BitVec 3)
  /-- R302: Waits until an enabled interrupt is pending or a message waits in a channel. -/
  | wfi (sc : BitVec 3)
  /-- R303: Waits for earlier stores, then invalidates the tile's instruction cache. -/
  | fenceI (sc : BitVec 3)
  /-- R113: Removes translations of the tenant from the chosen TLBs and walk caches and waits for walks and accesses. -/
  | tlbinv (sc : BitVec 3) (a : BitVec 5) (b : BitVec 5)
  /-- R300: Marks a small-context point at which a pending preempt interrupt is taken with KSTATUS.SP set. -/
  | savept (sc : BitVec 3)
  /-- R301: Stops the tile's harts and copies the tile state and dirty lines to the moon as a new checkpoint. -/
  | ckpt (sc : BitVec 3)
  /-- R163: Writes the 64-bit unstretched timebase to gD. -/
  | tstamp (sc : BitVec 3) (d : BitVec 5)
  /-- R263: Waits for earlier events of the kind within the scope and for earlier ACC outcomes. -/
  | fence (sc : BitVec 3) (k : BitVec 3) (e : BitVec 3)
  /-- R240: Builds a message from gA and gB and appends it to the send queue, reserving a c3 slot when a reply is expected. -/
  | send (sc : BitVec 3) (d : BitVec 5) (a : BitVec 5) (b : BitVec 5) (r : BitVec 1) (u : BitVec 1) (p : BitVec 1)
  /-- R242: Sends a child task and runs it inline if it is refused. -/
  | spawn (sc : BitVec 3) (a : BitVec 5) (b : BitVec 5)
  /-- R243: Ends the task or returns from an inline child after its accesses and ACCs are settled. -/
  | tend (sc : BitVec 3)
  /-- R243: Ends the task and every inline level and cancels the launch. -/
  | tendX (sc : BitVec 3)
  /-- R244: Ends the task's turn and moves a continuation to the tail of its channel. -/
  | tyield (sc : BitVec 3)
  /-- R245: Reports the waiting-message count and oldest class of one channel. -/
  | msgpeek (sc : BitVec 3) (d : BitVec 5) (a : BitVec 5)
  /-- R266: Sets a barrier entry's member count and advances its phase. -/
  | barinit (sc : BitVec 3) (a : BitVec 5) (b : BitVec 5)
  /-- R266: Joins the hart to a barrier as a member. -/
  | barjoin (sc : BitVec 3) (a : BitVec 5)
  /-- R266: Records the hart's arrival at the barrier's current phase. -/
  | bararrive (sc : BitVec 3) (a : BitVec 5)
  /-- R266: Arrives if needed and waits until the barrier's phase advances. -/
  | barwait (sc : BitVec 3) (a : BitVec 5)
  /-- R266: Arrives if needed and leaves the barrier when the phase completes. -/
  | bardrop (sc : BitVec 3) (a : BitVec 5)
  /-- R269: Arms a watch on one 128-byte line. -/
  | lwatch (sc : BitVec 3) (a : BitVec 5)
  /-- R270: Waits for a watched write, a spurious event or a timeout and disarms the watches. -/
  | lwait (sc : BitVec 3) (d : BitVec 5) (a : BitVec 5)
  /-- R272: Sends a signed 32-bit update to a completion counter. -/
  | cntadd (sc : BitVec 3) (a : BitVec 5) (b : BitVec 5)
  /-- R272: Waits until a counter's value is at most gB. -/
  | cntwait (sc : BitVec 3) (a : BitVec 5) (b : BitVec 5)
  /-- R272: Reads a counter's value and cancel mark into gD. -/
  | cntread (sc : BitVec 3) (d : BitVec 5) (a : BitVec 5)
  /-- R272: Marks a counter's level cancelled. -/
  | cancel (sc : BitVec 3) (a : BitVec 5)
  /-- R117: Checks a job card from gA..gA+3 and appends it to the hart's command FIFO. -/
  | submit (sc : BitVec 3) (a : BitVec 5)
  /-- R117: Submits a job card without stalling, reporting busy, rejected or queued in gD. -/
  | submitB (sc : BitVec 3) (d : BitVec 5) (a : BitVec 5)
  /-- R125: Loads one tensor-map entry from a 64-byte descriptor. -/
  | tmap (sc : BitVec 3) (a : BitVec 5) (i : BitVec 5)
  /-- R130: Waits until any tag of the mask completes and writes the completed bits. -/
  | waitany (sc : BitVec 3) (d : BitVec 5) (a : BitVec 5)
  /-- R130: Waits until every tag of the mask is idle. -/
  | waitall (sc : BitVec 3) (a : BitVec 5)
  /-- R130: Writes the index of the lowest completed tag of the mask, or 64. -/
  | fftag (sc : BitVec 3) (d : BitVec 5) (a : BitVec 5)
  /-- R130: Clears the TAGS and TAGERR bits of the mask. -/
  | clrtag (sc : BitVec 3) (a : BitVec 5)
  /-- R94: Issues up to 32 line reads into the own slice with a completion to a bound reply tag. -/
  | mreq (sc : BitVec 3) (a : BitVec 5) (b : BitVec 5)
  /-- R95: Writes one entry of the tile's reply-tag table. -/
  | mbind (sc : BitVec 3) (a : BitVec 5) (b : BitVec 5)
  /-- R157: Adds two FP32 or FP64 values rounded by FRM. -/
  | fadd (sc : BitVec 3) (d : BitVec 5) (a : BitVec 5) (b : BitVec 5) (p : BitVec 1)
  /-- R157: Subtracts two floating-point values rounded by FRM. -/
  | fsub (sc : BitVec 3) (d : BitVec 5) (a : BitVec 5) (b : BitVec 5) (p : BitVec 1)
  /-- R157: Multiplies two floating-point values rounded by FRM. -/
  | fmul (sc : BitVec 3) (d : BitVec 5) (a : BitVec 5) (b : BitVec 5) (p : BitVec 1)
  /-- R157: Divides two floating-point values rounded by FRM. -/
  | fdiv (sc : BitVec 3) (d : BitVec 5) (a : BitVec 5) (b : BitVec 5) (p : BitVec 1)
  /-- R157: Takes the square root of a floating-point value rounded by FRM. -/
  | fsqrt (sc : BitVec 3) (d : BitVec 5) (a : BitVec 5) (p : BitVec 1)
  /-- R157: Writes the floating-point minimum under the NaN and zero rules. -/
  | fmin (sc : BitVec 3) (d : BitVec 5) (a : BitVec 5) (b : BitVec 5) (p : BitVec 1)
  /-- R157: Writes the floating-point maximum under the NaN and zero rules. -/
  | fmax (sc : BitVec 3) (d : BitVec 5) (a : BitVec 5) (b : BitVec 5) (p : BitVec 1)
  /-- R157: Writes fA with the sign of fB. -/
  | fsgncpy (sc : BitVec 3) (d : BitVec 5) (a : BitVec 5) (b : BitVec 5) (p : BitVec 1)
  /-- R157: Writes fA with the inverse of fB's sign. -/
  | fsgnneg (sc : BitVec 3) (d : BitVec 5) (a : BitVec 5) (b : BitVec 5) (p : BitVec 1)
  /-- R157: Writes fA with the XOR of both signs. -/
  | fsgnxor (sc : BitVec 3) (d : BitVec 5) (a : BitVec 5) (b : BitVec 5) (p : BitVec 1)
  /-- R157: Writes 1 to gD if fA equals fB. -/
  | feq (sc : BitVec 3) (d : BitVec 5) (a : BitVec 5) (b : BitVec 5) (p : BitVec 1)
  /-- R157: Writes 1 to gD if fA is less than fB. -/
  | flt (sc : BitVec 3) (d : BitVec 5) (a : BitVec 5) (b : BitVec 5) (p : BitVec 1)
  /-- R157: Writes 1 to gD if fA is less than or equal to fB. -/
  | fle (sc : BitVec 3) (d : BitVec 5) (a : BitVec 5) (b : BitVec 5) (p : BitVec 1)
  /-- R159: Writes the class code and sign of fA to gD. -/
  | fclass (sc : BitVec 3) (d : BitVec 5) (a : BitVec 5) (p : BitVec 1)
  /-- R158: Converts between float and integer formats under the conversion code. -/
  | fcvt (sc : BitVec 3) (d : BitVec 5) (a : BitVec 5) (c : BitVec 5)
  /-- R157: Copies the bits of an f register to a g register. -/
  | fmvg (sc : BitVec 3) (d : BitVec 5) (a : BitVec 5) (p : BitVec 1)
  /-- R157: Copies the bits of a g register to an f register. -/
  | fmvf (sc : BitVec 3) (d : BitVec 5) (a : BitVec 5) (p : BitVec 1)
  /-- R160: Computes fA times fB plus fC in FP32 with one rounding. -/
  | fmaS (sc : BitVec 3) (d : BitVec 5) (a : BitVec 5) (b : BitVec 5) (c : BitVec 5)
  /-- R160: Computes fA times fB minus fC in FP32 with one rounding. -/
  | fmsS (sc : BitVec 3) (d : BitVec 5) (a : BitVec 5) (b : BitVec 5) (c : BitVec 5)
  /-- R160: Computes minus fA times fB minus fC in FP32. -/
  | fnmaS (sc : BitVec 3) (d : BitVec 5) (a : BitVec 5) (b : BitVec 5) (c : BitVec 5)
  /-- R160: Computes minus fA times fB plus fC in FP32. -/
  | fnmsS (sc : BitVec 3) (d : BitVec 5) (a : BitVec 5) (b : BitVec 5) (c : BitVec 5)
  /-- R160: Computes fA times fB plus fC in FP64 with one rounding. -/
  | fmaD (sc : BitVec 3) (d : BitVec 5) (a : BitVec 5) (b : BitVec 5) (c : BitVec 5)
  /-- R160: Computes fA times fB minus fC in FP64. -/
  | fmsD (sc : BitVec 3) (d : BitVec 5) (a : BitVec 5) (b : BitVec 5) (c : BitVec 5)
  /-- R160: Computes minus fA times fB minus fC in FP64. -/
  | fnmaD (sc : BitVec 3) (d : BitVec 5) (a : BitVec 5) (b : BitVec 5) (c : BitVec 5)
  /-- R160: Computes minus fA times fB plus fC in FP64. -/
  | fnmsD (sc : BitVec 3) (d : BitVec 5) (a : BitVec 5) (b : BitVec 5) (c : BitVec 5)
  /-- R171: Adds vector lanes, wrapping or rounding by type. -/
  | vadd (sc : BitVec 3) (d : BitVec 5) (a : BitVec 5) (b : BitVec 5) (k : BitVec 3)
  /-- R171: Subtracts vector lanes. -/
  | vsub (sc : BitVec 3) (d : BitVec 5) (a : BitVec 5) (b : BitVec 5) (k : BitVec 3)
  /-- R171: Multiplies vector lanes. -/
  | vmul (sc : BitVec 3) (d : BitVec 5) (a : BitVec 5) (b : BitVec 5) (k : BitVec 3)
  /-- R171: Writes the upper half of the integer lane products. -/
  | vmulh (sc : BitVec 3) (d : BitVec 5) (a : BitVec 5) (b : BitVec 5) (k : BitVec 3)
  /-- R171: Writes the lane minimum. -/
  | vmin (sc : BitVec 3) (d : BitVec 5) (a : BitVec 5) (b : BitVec 5) (k : BitVec 3)
  /-- R171: Writes the lane maximum. -/
  | vmax (sc : BitVec 3) (d : BitVec 5) (a : BitVec 5) (b : BitVec 5) (k : BitVec 3)
  /-- R171: Writes the bitwise AND of the lanes. -/
  | vand (sc : BitVec 3) (d : BitVec 5) (a : BitVec 5) (b : BitVec 5) (k : BitVec 3)
  /-- R171: Writes the bitwise OR of the lanes. -/
  | vor (sc : BitVec 3) (d : BitVec 5) (a : BitVec 5) (b : BitVec 5) (k : BitVec 3)
  /-- R171: Writes the bitwise XOR of the lanes. -/
  | vxor (sc : BitVec 3) (d : BitVec 5) (a : BitVec 5) (b : BitVec 5) (k : BitVec 3)
  /-- R171: Writes vA AND NOT vB per lane. -/
  | vandn (sc : BitVec 3) (d : BitVec 5) (a : BitVec 5) (b : BitVec 5) (k : BitVec 3)
  /-- R171: Shifts integer lanes left. -/
  | vsll (sc : BitVec 3) (d : BitVec 5) (a : BitVec 5) (b : BitVec 5) (k : BitVec 3)
  /-- R171: Shifts integer lanes right logically. -/
  | vsrl (sc : BitVec 3) (d : BitVec 5) (a : BitVec 5) (b : BitVec 5) (k : BitVec 3)
  /-- R171: Shifts integer lanes right arithmetically. -/
  | vsra (sc : BitVec 3) (d : BitVec 5) (a : BitVec 5) (b : BitVec 5) (k : BitVec 3)
  /-- R171: Adds the lane product to the destination lane. -/
  | vmac (sc : BitVec 3) (d : BitVec 5) (a : BitVec 5) (b : BitVec 5) (k : BitVec 3)
  /-- R171: Adds integer lanes with saturation. -/
  | vadds (sc : BitVec 3) (d : BitVec 5) (a : BitVec 5) (b : BitVec 5) (k : BitVec 3)
  /-- R171: Subtracts integer lanes with saturation. -/
  | vsubs (sc : BitVec 3) (d : BitVec 5) (a : BitVec 5) (b : BitVec 5) (k : BitVec 3)
  /-- R171: Writes the absolute value of each lane. -/
  | vabs (sc : BitVec 3) (d : BitVec 5) (a : BitVec 5) (k : BitVec 3)
  /-- R171: Negates each lane. -/
  | vneg (sc : BitVec 3) (d : BitVec 5) (a : BitVec 5) (k : BitVec 3)
  /-- R171: Divides lanes under the saturating integer or float rules. -/
  | vdiv (sc : BitVec 3) (d : BitVec 5) (a : BitVec 5) (b : BitVec 5) (k : BitVec 3)
  /-- R172: Selects each lane from vA or vB by a mask. -/
  | vsel (sc : BitVec 3) (d : BitVec 5) (a : BitVec 5) (b : BitVec 5) (k : BitVec 3)
  /-- R173: Compares lanes and writes the condition bits to a mask register. -/
  | vcmp (sc : BitVec 3) (d : BitVec 3) (a : BitVec 5) (b : BitVec 5) (k : BitVec 3) (c : BitVec 2)
  /-- R174: Sums the lanes in a fixed tree into lane 0. -/
  | vredAdd (sc : BitVec 3) (d : BitVec 5) (a : BitVec 5) (k : BitVec 3)
  /-- R174: Reduces the lanes to their maximum in lane 0. -/
  | vredMax (sc : BitVec 3) (d : BitVec 5) (a : BitVec 5) (k : BitVec 3)
  /-- R174: Reduces the lanes to their minimum in lane 0. -/
  | vredMin (sc : BitVec 3) (d : BitVec 5) (a : BitVec 5) (k : BitVec 3)
  /-- R175: Inclusive running sum over the lanes, optionally segmented. -/
  | vscanAddI (sc : BitVec 3) (d : BitVec 5) (a : BitVec 5) (g : BitVec 1) (h : BitVec 3) (k : BitVec 3)
  /-- R175: Inclusive running maximum over the lanes. -/
  | vscanMaxI (sc : BitVec 3) (d : BitVec 5) (a : BitVec 5) (g : BitVec 1) (h : BitVec 3) (k : BitVec 3)
  /-- R175: Inclusive running minimum over the lanes. -/
  | vscanMinI (sc : BitVec 3) (d : BitVec 5) (a : BitVec 5) (g : BitVec 1) (h : BitVec 3) (k : BitVec 3)
  /-- R175: Exclusive running sum over the lanes. -/
  | vscanAddE (sc : BitVec 3) (d : BitVec 5) (a : BitVec 5) (g : BitVec 1) (h : BitVec 3) (k : BitVec 3)
  /-- R175: Exclusive running maximum over the lanes. -/
  | vscanMaxE (sc : BitVec 3) (d : BitVec 5) (a : BitVec 5) (g : BitVec 1) (h : BitVec 3) (k : BitVec 3)
  /-- R175: Exclusive running minimum over the lanes. -/
  | vscanMinE (sc : BitVec 3) (d : BitVec 5) (a : BitVec 5) (g : BitVec 1) (h : BitVec 3) (k : BitVec 3)
  /-- R176: Permutes lanes of vA by the indices in vB. -/
  | vperm (sc : BitVec 3) (d : BitVec 5) (a : BitVec 5) (b : BitVec 5) (k : BitVec 3)
  /-- R176: Slides lanes up by the count in gB. -/
  | vslideup (sc : BitVec 3) (d : BitVec 5) (a : BitVec 5) (b : BitVec 5) (k : BitVec 3)
  /-- R176: Slides lanes down by the count in gB. -/
  | vslidedn (sc : BitVec 3) (d : BitVec 5) (a : BitVec 5) (b : BitVec 5) (k : BitVec 3)
  /-- R176: Broadcasts gA into every lane. -/
  | vbcast (sc : BitVec 3) (d : BitVec 5) (a : BitVec 5) (k : BitVec 3)
  /-- R176: Inserts gA into the lane named by gB. -/
  | vins (sc : BitVec 3) (d : BitVec 5) (a : BitVec 5) (b : BitVec 5) (k : BitVec 3)
  /-- R176: Extracts the lane named by gB into gD. -/
  | vext (sc : BitVec 3) (d : BitVec 5) (a : BitVec 5) (b : BitVec 5) (k : BitVec 3)
  /-- R177: Converts the low lanes of vA to the destination type. -/
  | vcvtLo (sc : BitVec 3) (d : BitVec 5) (a : BitVec 5) (t : BitVec 4) (k : BitVec 3)
  /-- R177: Converts the high lanes of vA to the destination type. -/
  | vcvtHi (sc : BitVec 3) (d : BitVec 5) (a : BitVec 5) (t : BitVec 4) (k : BitVec 3)
  /-- R178: Quantises lanes times a scale to e4m3 bytes. -/
  | vquantE43 (sc : BitVec 3) (d : BitVec 5) (a : BitVec 5) (b : BitVec 5) (k : BitVec 3)
  /-- R178: Quantises lanes times a scale to e5m2 bytes. -/
  | vquantE52 (sc : BitVec 3) (d : BitVec 5) (a : BitVec 5) (b : BitVec 5) (k : BitVec 3)
  /-- R178: Quantises lanes times a scale to s8 bytes. -/
  | vquantS8 (sc : BitVec 3) (d : BitVec 5) (a : BitVec 5) (b : BitVec 5) (k : BitVec 3)
  /-- R178: Dequantises e4m3 bytes times a scale into VTYPE lanes. -/
  | vdeqE43 (sc : BitVec 3) (d : BitVec 5) (a : BitVec 5) (b : BitVec 5) (k : BitVec 3)
  /-- R178: Dequantises e5m2 bytes times a scale. -/
  | vdeqE52 (sc : BitVec 3) (d : BitVec 5) (a : BitVec 5) (b : BitVec 5) (k : BitVec 3)
  /-- R178: Dequantises s8 bytes times a scale. -/
  | vdeqS8 (sc : BitVec 3) (d : BitVec 5) (a : BitVec 5) (b : BitVec 5) (k : BitVec 3)
  /-- R179: Appends the largest lane magnitude to the hart's amax history ring. -/
  | vamax (sc : BitVec 3) (h : BitVec 2) (a : BitVec 5) (k : BitVec 3)
  /-- R180: Derives a power-of-two scale from the history ring into fD. -/
  | scld (sc : BitVec 3) (d : BitVec 5) (h : BitVec 2) (t : BitVec 4)
  /-- R181: Queues a correctly rounded reciprocal of each lane on the SFU. -/
  | vrcp (sc : BitVec 3) (d : BitVec 5) (a : BitVec 5) (k : BitVec 3)
  /-- R181: Queues a correctly rounded reciprocal square root on the SFU. -/
  | vrsqrt (sc : BitVec 3) (d : BitVec 5) (a : BitVec 5) (k : BitVec 3)
  /-- R181: Queues a correctly rounded base-2 exponential on the SFU. -/
  | vexp2 (sc : BitVec 3) (d : BitVec 5) (a : BitVec 5) (k : BitVec 3)
  /-- R181: Queues a correctly rounded base-2 logarithm on the SFU. -/
  | vlog2 (sc : BitVec 3) (d : BitVec 5) (a : BitVec 5) (k : BitVec 3)
  /-- R181: Queues a correctly rounded square root on the SFU. -/
  | vsqrt (sc : BitVec 3) (d : BitVec 5) (a : BitVec 5) (k : BitVec 3)
  /-- R184: Loads the unmasked lanes of a 64-byte aligned block as one access. -/
  | vld (sc : BitVec 3) (d : BitVec 5) (a : BitVec 5) (k : BitVec 3) (o : BitVec 9)
  /-- R184: Stores the unmasked lanes to a 64-byte aligned block as one access. -/
  | vst (sc : BitVec 3) (d : BitVec 5) (a : BitVec 5) (k : BitVec 3) (o : BitVec 9)
  /-- R185: Loads one element per lane at a stride. -/
  | vlds (sc : BitVec 3) (d : BitVec 5) (a : BitVec 5) (b : BitVec 5) (k : BitVec 3)
  /-- R185: Stores one element per lane at a stride. -/
  | vsts (sc : BitVec 3) (d : BitVec 5) (a : BitVec 5) (b : BitVec 5) (k : BitVec 3)
  /-- R185: Loads one element per lane at vector offsets. -/
  | vgath (sc : BitVec 3) (d : BitVec 5) (a : BitVec 5) (b : BitVec 5) (k : BitVec 3)
  /-- R185: Stores one element per lane at vector offsets. -/
  | vscat (sc : BitVec 3) (d : BitVec 5) (a : BitVec 5) (b : BitVec 5) (k : BitVec 3)
  /-- R185: Loads one element and writes it to every unmasked lane. -/
  | vldb (sc : BitVec 3) (d : BitVec 5) (a : BitVec 5) (k : BitVec 3)
  /-- R187: Writes the AND of two masks. -/
  | kand (sc : BitVec 3) (d : BitVec 3) (a : BitVec 3) (b : BitVec 3)
  /-- R187: Writes the OR of two masks. -/
  | kor (sc : BitVec 3) (d : BitVec 3) (a : BitVec 3) (b : BitVec 3)
  /-- R187: Writes the XOR of two masks. -/
  | kxor (sc : BitVec 3) (d : BitVec 3) (a : BitVec 3) (b : BitVec 3)
  /-- R187: Writes kA AND NOT kB. -/
  | kandn (sc : BitVec 3) (d : BitVec 3) (a : BitVec 3) (b : BitVec 3)
  /-- R187: Writes the complement of a mask. -/
  | knot (sc : BitVec 3) (d : BitVec 3) (a : BitVec 3)
  /-- R187: Writes the count of set mask bits below n to gD. -/
  | kpop (sc : BitVec 3) (d : BitVec 5) (a : BitVec 3)
  /-- R187: Writes the index of the lowest set mask bit, or 64. -/
  | kffs (sc : BitVec 3) (d : BitVec 5) (a : BitVec 3)
  /-- R187: Sets the low min(gA, n) bits of a mask. -/
  | ksetn (sc : BitVec 3) (d : BitVec 3) (a : BitVec 5)
  /-- R187: Copies a mask to gD. -/
  | kmovg (sc : BitVec 3) (d : BitVec 5) (a : BitVec 3)
  /-- R187: Copies gA to a mask. -/
  | kmovk (sc : BitVec 3) (d : BitVec 3) (a : BitVec 5)
  /-- R170: Sets VTYPE.TYPE and writes the lane count to gD. -/
  | vsett (sc : BitVec 3) (d : BitVec 5) (a : BitVec 5) (t : BitVec 4)
  /-- R197: Queues a bf16 matrix multiply-accumulate from two rings into the hart's bank. -/
  | mmaBf (sc : BitVec 3) (n : BitVec 2) (r : BitVec 3) (q : BitVec 3) (z : BitVec 1)
  /-- R197: Queues an f16 matrix multiply-accumulate. -/
  | mmaHf (sc : BitVec 3) (n : BitVec 2) (r : BitVec 3) (q : BitVec 3) (z : BitVec 1)
  /-- R197: Queues a scaled e4m3 by e4m3 matrix multiply-accumulate. -/
  | mmaE44 (sc : BitVec 3) (n : BitVec 2) (r : BitVec 3) (q : BitVec 3) (f : BitVec 5) (z : BitVec 1)
  /-- R197: Queues a scaled e4m3 by e5m2 matrix multiply-accumulate. -/
  | mmaE45 (sc : BitVec 3) (n : BitVec 2) (r : BitVec 3) (q : BitVec 3) (f : BitVec 5) (z : BitVec 1)
  /-- R197: Queues a scaled e5m2 by e5m2 matrix multiply-accumulate. -/
  | mmaE55 (sc : BitVec 3) (n : BitVec 2) (r : BitVec 3) (q : BitVec 3) (f : BitVec 5) (z : BitVec 1)
  /-- R197: Queues an s8 matrix multiply-accumulate into s32 with saturation. -/
  | mmaI8 (sc : BitVec 3) (n : BitVec 2) (r : BitVec 3) (q : BitVec 3) (z : BitVec 1)
  /-- R197: Queues an nq4 by bf16 matrix multiply-accumulate with block scales. -/
  | mmaNb (sc : BitVec 3) (n : BitVec 2) (r : BitVec 3) (q : BitVec 3) (f : BitVec 5) (z : BitVec 1)
  /-- R197: Queues an nq4 by e4m3 matrix multiply-accumulate with block scales. -/
  | mmaNe (sc : BitVec 3) (n : BitVec 2) (r : BitVec 3) (q : BitVec 3) (f : BitVec 5) (z : BitVec 1)
  /-- R192: Requests the array lease and waits until it is held. -/
  | mlease (sc : BitVec 3)
  /-- R192: Tries to obtain the lease without waiting and reports the result. -/
  | mleaseB (sc : BitVec 3) (d : BitVec 5)
  /-- R192: Withdraws a lease request or releases the lease at once. -/
  | mrel (sc : BitVec 3)
  /-- R202: Queues a command that zeroes the hart's bank and checksums. -/
  | mzero (sc : BitVec 3) (n : BitVec 2)
  /-- R203: Queues a drain of the bank to another slice through the egress gate, with a wake message. -/
  | mdrain (sc : BitVec 3) (n : BitVec 2) (a : BitVec 5) (b : BitVec 5)
  /-- R202: Queues a copy of one 16x16 bank sub-block into an m register. -/
  | maccget (sc : BitVec 3) (m : BitVec 3) (n : BitVec 2) (c : BitVec 4)
  /-- R202: Queues a copy of an m register into one bank sub-block. -/
  | maccput (sc : BitVec 3) (n : BitVec 2) (m : BitVec 3) (c : BitVec 4)
  /-- R205: Queues a pop of one ring entry at the hart's turn. -/
  | rpop (sc : BitVec 3) (r : BitVec 3)
  /-- R205: Queues a read of a ring's enable and occupancy at the hart's turn. -/
  | rstat (sc : BitVec 3) (d : BitVec 5) (r : BitVec 3)
  /-- R207: Writes a row of an m register from vA. -/
  | mrowset (sc : BitVec 3) (m : BitVec 3) (a : BitVec 5) (b : BitVec 5)
  /-- R207: Reads a row of an m register into vD. -/
  | mrowget (sc : BitVec 3) (d : BitVec 5) (m : BitVec 3) (b : BitVec 5)
  /-- R207: Writes a column of an m register from vA. -/
  | mcolset (sc : BitVec 3) (m : BitVec 3) (a : BitVec 5) (b : BitVec 5)
  /-- R207: Reads a column of an m register into vD. -/
  | mcolget (sc : BitVec 3) (d : BitVec 5) (m : BitVec 3) (b : BitVec 5)
  /-- R208: Loads every row of an m register from memory. -/
  | mldm (sc : BitVec 3) (m : BitVec 3) (a : BitVec 5)
  /-- R208: Stores every row of an m register to memory. -/
  | mstm (sc : BitVec 3) (m : BitVec 3) (a : BitVec 5)
  /-- R51: A reserved instruction word raises ILLEGAL with no other effect. -/
  | reservedEncoding (w : BitVec 32)
  /-- R387: Release of reset runs bring-up from power domains to PCIe training. -/
  | panelReset (verified : Bool) (failing : List Nat)
  /-- R360: A host doorbell write posts a message-window slot to the panel supervisor. -/
  | mwbell (slot : Nat)
  /-- R358: A host BAR2 access performs a line access at the home of HBASE plus offset. -/
  | bar2Access (off len : Nat) (data : Option (List Byte))
  /-- R368: A host nonce write returns a signed quote of MEAS. -/
  | nonceWrite (nonce : List Byte)
  /-- R277: The panel supervisor reads and checks a launch record and reports its status. -/
  | launch
  /-- R278: When predecessors hold 0, the counter is set and one task per hart is placed on each die. -/
  | launchInject (launch die : Nat)
  /-- R279: A CANCEL message marks a counter's level or stops a pending or injecting launch. -/
  | cancelMessage
  /-- R361: Assigns a counter to a tenant. -/
  | mgmtAssignCounter
  /-- R361: Frees a counter that holds 0. -/
  | mgmtFreeCounter
  /-- R362: Releases a CXL extent in state 3 to its device. -/
  | mgmtExtentUnmapped
  /-- R361: Removes the executable mark of a page. -/
  | mgmtUnmarkExecutable
  /-- R281: Defines a tenant area and sets its bit in every router of the area. -/
  | mgmtDefineTenant
  /-- R281: Removes a tenant and clears its router bits. -/
  | mgmtRemoveTenant
  /-- R283: Checks and loads one routing class's tables into the area's routers. -/
  | routeset (die : Nat)
  /-- R292: Sets or cancels a hart's timebase deadline at its die supervisor. -/
  | timerset (die : Nat)
  /-- R292: The timebase reaches a deadline and KIP bit 0 of the hart is set. -/
  | timerDeadline (hart : Nat)
  /-- R294: Registers a tenant's fault hart and dump area. -/
  | parkctlRegister (die : Nat)
  /-- R294: Reloads a parked frame and takes the parking trap at K. -/
  | parkctlResume (die : Nat)
  /-- R294: Ends a parked hart's task as by TEND and returns it to dispatch. -/
  | parkctlDiscard (die : Nat)
  /-- R293: A die supervisor forwards a FAULT record to the tenant's fault hart or logs it. -/
  | faultRecord (die : Nat)
  /-- R362: A device offers an extent and the supervisor accepts it. -/
  | cxlExtentOffer (port index base length : Nat)
  /-- R362: A device asks for an extent back and it moves to state 3. -/
  | cxlExtentReleaseRequest (port index : Nat)
  /-- R367: The loader engine verifies, measures and writes each segment of a Bollia image. -/
  | imageLoad (image : BolliaImage)
  /-- R353: A host panel halt travels down the tree and halts every in-service hart within the window. -/
  | panelHalt
  /-- R353: A host panel resume releases every halted hart within the window. -/
  | panelResume
  /-- R234: A free hart picks the highest-priority waiting channel and starts its head message as a task. -/
  | dispatch (hart : Nat)
  /-- R241: A message arriving at a hart is placed, refused, held or discarded by its network. -/
  | messageArrival (packet : Nat)
  /-- R241: A refused request returns to its sender, which counts the refusal. -/
  | bounceReturn (packet : Nat)
  /-- R241: RETRYGAP cycles after a bounce the request is sent again. -/
  | sendRetry (hart entry : Nat)
  /-- R240: A message is accepted and its send-queue entry is freed. -/
  | sendAcceptance (packet : Nat)
  /-- R242: A SPAWN answer retires the SPAWN or runs the child inline. -/
  | spawnAnswer (packet : Nat)
  /-- R249: A counter applies an update, and at zero posts COMPLETE and decrements its parent. -/
  | counterUpdate (packet : Nat)
  /-- R249: The counter's acknowledgement lets the message leave the send queue or the MREQ completion post. -/
  | counterUpdateAck (packet : Nat)
  /-- R251: Every LLINT interval the tile moves waiting c1 messages to its least loaded neighbour. -/
  | loadLevel (vt : Nat)
  /-- R221: An accumulate unit accepts or refuses an arriving delivery by quota and queue. -/
  | accDeliveryArrival (packet : Nat)
  /-- R220: The unit applies a queued delivery to its 64-byte target and replies. -/
  | accApply (unit : Nat)
  /-- R221: A refused addend returns to the sender and merges into its tail. -/
  | accBounce (packet : Nat)
  /-- R218: An acceptance or failure reply gives an ACC its outcome. -/
  | accOutcome (packet : Nat)
  /-- R221: At each QWIN multiple of CYCLE the per-source accept counts reset. -/
  | quotaWindow (vt : Nat)
  /-- R230: A Vilore switch dedups and merges an arriving RDW addend into its buffer. -/
  | switchAddend (packet : Nat)
  /-- R230: A switch buffer is delivered to the home 1 us after its first addend or at 64 addends. -/
  | switchDeliver (buffer : Nat)
  /-- R230: A refused switch buffer is resent 1 us later as a flush delivery. -/
  | switchResend (buffer : Nat)
  /-- R119: The engine admits one card per cycle from the FIFOs round-robin into the window. -/
  | cardAdmit (vt : Nat)
  /-- R121: A card whose edges are all complete starts its line requests. -/
  | cardStart (vt card : Nat)
  /-- R127: A card line access completes or fails and stops the card. -/
  | cardLineAccess (vt card line : Nat)
  /-- R129: A card completes, updates its tag count, TAGERR and TAGS. -/
  | cardComplete (vt card : Nat)
  /-- R141: A RINGFEED card writes the next entry when occupancy allows and advances TAIL. -/
  | ringfeedEntry (vt card : Nat)
  /-- R94: An MREQ line lands in the slice, and after the last line the completion is posted. -/
  | mreqLineLand (vt mreq line : Nat)
  /-- R198: A ready MMA reads its ring entries and starts in the array. -/
  | mmaStart (vt : Nat)
  /-- R198: An MMA retires, pops its rings and updates the checksums. -/
  | mmaRetire (vt : Nat)
  /-- R201: Four cycles after retirement the screen tests every row of the bank. -/
  | screenVerdict (vt : Nat)
  /-- R189: The array starts an MZERO, MACCGET or MACCPUT. -/
  | arrayCommandStart (vt : Nat)
  /-- R189: An MZERO, MACCGET or MACCPUT completes its effect on the bank or m register. -/
  | arrayCommandRetire (vt : Nat)
  /-- R205: An RPOP or RSTAT takes effect at its turn in the hart's sequence. -/
  | ringCommandTurn (vt hart : Nat)
  /-- R203: With 16 KiB free in the hold, the bank is copied into the egress hold. -/
  | mdrainCopy (vt : Nat)
  /-- R203: After passing verdicts the drain writes its rows to the destination slice. -/
  | mdrainRowWrite (vt drain row : Nat)
  /-- R203: After every row write is performed the wake message is sent. -/
  | mdrainWake (vt drain : Nat)
  /-- R191: At each 256-cycle slot boundary holders are displaced and the lease is granted. -/
  | slotBoundary (vt : Nat)
  /-- R191: In a cycle with no holder a requesting hart is granted the lease. -/
  | leaseGrant (vt : Nat)
  /-- R135: A load given a retry reply by a full line-wait list is sent again 64 cycles later. -/
  | feLoadRetry (hart access part : Nat)
  /-- R136: A load unanswered after FEWAIT cycles raises FE_TIMEOUT and is withdrawn. -/
  | feTimeout (hart access : Nat)
  /-- R142: The scrubber reads every SRAM row each 64 ms. -/
  | sramScrub (vt offset : Nat)
  /-- R92: A line request is performed at its home stack or slice. -/
  | homeLineRequest (hart access part : Nat)
  /-- R92: The data or acceptance of an access returns to the issuing hart. -/
  | accessAnswer (hart access : Nat)
  /-- R97: A channel controller with no open batch marks the next batch of requests. -/
  | hbmBatchForm (die channel : Nat)
  /-- R98: Refresh management runs for a row whose activation count reached ACTTH. -/
  | refreshManagement (die channel bank row : Nat)
  /-- R99: The patrol engine reads the next line and writes back a corrected line by compare. -/
  | patrolRead (die channel : Nat) (finding : PatrolFinding)
  /-- R110: A TLB miss walks the four-level tables and sets A and D by compare-and-swap. -/
  | pageWalk (hart : Nat) (va : BitVec 64) (kind : AccessKind)
  /-- R264: A barrier operation is applied at its home entry. -/
  | barrierOpApply (packet : Nat)
  /-- R269: A watch registration is performed at the line's home and the watch is armed. -/
  | watchRegister (hart watch : Nat)
  /-- R270: The die supervisor evicts a watch from a full directory, giving a spurious wake. -/
  | watchEvict (hart watch : Nat)
  /-- R270: The timebase passes an LWAIT's timeout and it returns 1. -/
  | lwaitTimeout (hart : Nat)
  /-- R288: A trap is taken at U or K by delegation, or the hart parks. -/
  | trapEntry (hart : Nat)
  /-- R292: The lowest-ranked enabled pending interrupt is taken at K at a boundary. -/
  | interruptEntry (hart : Nat)
  /-- R304: The die supervisor copies a parked frame and secondary records to the dump area. -/
  | parkDump (die : Nat)
  /-- R397: The die supervisor serves a parked ECALL_K from the frame and reloads it. -/
  | ecallKService (hart : Nat)
  /-- R294: The die supervisor reloads a parked frame and the hart continues. -/
  | frameReload (hart : Nat)
  /-- R166: Each cycle the arbiter binds free lane groups to waiting harts by share count. -/
  | laneGroupGrant (vt : Nat)
  /-- R182: The SFU starts its head entry, one every 2 cycles. -/
  | sfuEntryStart (vt : Nat)
  /-- R182: An SFU result is written 12 cycles after its entry starts. -/
  | sfuResult (vt : Nat)
  /-- R183: Withdrawn SFU entries re-enter the queue in order when their hart may issue. -/
  | sfuReentry (hart : Nat)
  /-- R306: Every 20 ms a die picks a VT and a spare and begins pre-copy. -/
  | rotationStart (die : Nat)
  /-- R307: After pre-copy, admission stops and the rotation waits for the VT to drain. -/
  | rotationDrain (die : Nat)
  /-- R307: The drained VT is stopped, copied, remapped and resumed on the spare, and the old PT is released. -/
  | rotationPause (die : Nat)
  /-- R307: A drain not finished within 2 ms abandons the rotation. -/
  | rotationAbandon (die : Nat)
  /-- R309: An eclipsed tile's self-test ends and it becomes a ready spare or is retired. -/
  | selfTestEnd (die pt : Nat) (pass : Bool)
  /-- R331: A claimed spare's header switches and forwarder finish waking. -/
  | tileWakeDone (die pt : Nat)
  /-- R314: A hart's checkpoint interval expires and interrupt 0x83 is requested. -/
  | ckptInterval (hart : Nat)
  /-- R316: A full inbound log forces a checkpoint of the tile. -/
  | logForcedCkpt (vt : Nat)
  /-- R317: When its moon is lost, a VT takes a full checkpoint into its base image. -/
  | moonForcedCkpt (vt : Nat)
  /-- R313: A checkpoint's copy completes and its commit dword is written. -/
  | ckptCommit (vt : Nat)
  /-- R318: An item returned out of turn is resent once its predecessor is accepted or voided. -/
  | outOfTurnResend (packet : Nat)
  /-- R318: A void marker advances the destination's highest accepted number. -/
  | voidMarker (packet : Nat)
  /-- R319: A held outbound item is released once the checks covering it have passed. -/
  | egressRelease (vt : Nat)
  /-- R321: A block's signature check completes 4 cycles after its last retirement. -/
  | blockCheck (hart : Nat)
  /-- R322: The die supervisor stops a failed VT, discards its hold, pauses it and claims a spare. -/
  | rollback (vt : Nat)
  /-- R322: The checkpoint rebuild on the spare completes, VMAP is rewritten and the VT resumes. -/
  | replayResume (vt : Nat)
  /-- R322: A logged inbound event takes effect when the harts reach its recorded INSTRET. -/
  | replayLogEvent (vt : Nat)
  /-- R325: Each microsecond AGESTRESS adds the weight of the tile's bins. -/
  | ageStressTick (die pt voltageBin temperatureBin : Nat)
  /-- R326: A regulator phase fails, capping duty or darkening the group. -/
  | regulatorPhaseFail (die group : Nat)
  /-- R389: The panel supervisor rewrites the retired set and ageing counts to flash. -/
  | flashRewrite
  /-- R334: Every 10 us the budget tree divides power and writes FETCHDUTY. -/
  | budgetTick (otherWatts : Nat) (p16 : List Nat)
  /-- R335: The 1 ms energy window renews and debt carries over. -/
  | equotaRenew (hart : Nat)
  /-- R333: A rail sag below the threshold starts a clock stretch and counts a trip. -/
  | droopTrip (vt : Nat)
  /-- R333: The stretch count ends and halved issue begins. -/
  | droopStretchEnd (vt : Nat)
  /-- R333: The halve count ends and full issue resumes. -/
  | droopHalveEnd (vt : Nat)
  /-- R336: A shelf frame is checked and may lower the class limit. -/
  | shelfFrame (bytes : List Byte)
  /-- R338: A die receives a new lower limit and requests 0x84 for shed harts. -/
  | shedLimitUpdate (die : Nat)
  /-- R338: A shed hart with no boundary 1.5 ms after the frame is stopped into shed hold. -/
  | shedHoldTimeout (hart : Nat)
  /-- R339: After HOLDOFF of higher frames the limit rises and held harts resume. -/
  | shedRestore (die : Nat)
  /-- R340: After 10 ms with no frame the fallback limit and share apply. -/
  | shelfFallback
  /-- R345: A tile missing parent edges for 64 ns switches to its oscillator and enters hold. -/
  | clockLoss (die pt : Nat)
  /-- R341: The standby hub takes over within 64 ns when the active hub stops. -/
  | hubFailover (die : Nat)
  /-- R347: The die supervisor chooses new parents for orphaned tiles and rewrites SKEWCLS. -/
  | reroot (die : Nat)
  /-- R347: The panel re-roots from the alternate root when the primary root fails. -/
  | rootFailover
  /-- R347: A held tile locks to its new parent and leaves hold. -/
  | clockLock (die pt : Nat)
  /-- R363: A flit failing its CRC is retried, and 16 failures take the link down. -/
  | linkCrcRetry (link : Nat) (good : Bool)
  /-- R355: A sampling pulse latches every hart's PC and state and writes a sample record. -/
  | samplePulse (die : Nat)
  /-- R351: Writing RESUME leaves debug halt and re-enters withdrawn SFU entries. -/
  | dbgctlResume (hart : Nat)
  /-- R349: Writing HALTREQ requests interrupt 0x86. -/
  | dbgctlHaltreq (hart : Nat)
  /-- R36: A write to a register without a row of its own stores under its access codes. -/
  | csrWrite (hart : Nat) (csr : BitVec 12) (value : BitVec 64)
  /-- R34: Changing an m register's shape clears it and sets its dirty bit. -/
  | mshapeWrite (hart : Nat) (value : BitVec 64)
  /-- R190: A slot table write takes effect at the next slot boundary. -/
  | slottabWrite (hart : Nat) (value : BitVec 64)
  /-- R190: A new N is in force at once and may make the holder SPENT. -/
  | leasenWrite (hart : Nat) (value : BitVec 64)
  /-- R210: A CLAIM write makes the matrix state valid for the context and clears dirty bits. -/
  | msaveClaim (hart : Nat) (value : BitVec 64)
  /-- R210: An INVAL write clears VALID and ACCV. -/
  | msaveInval (hart : Nat) (value : BitVec 64)
  /-- R140: A ring configuration write by the owner enables, resets or disables a ring. -/
  | ringcfgWrite (hart ring : Nat) (value : BitVec 64)
  /-- R35: A write through HRDATA sets the selected history-ring slot. -/
  | hrdataWrite (hart : Nat) (value : BitVec 64)
  /-- R334: A FETCHDUTY write sets issue duty and a lowering requests 0x82. -/
  | fetchdutyWrite (hart : Nat) (value : BitVec 64)
  /-- R354: Turning EN from 0 to 1 clears WPTR and WRAP. -/
  | tracectlWrite (hart : Nat) (value : BitVec 64)
  /-- R310: VMAP CMD 1 rotates VIDX at the next rotation. -/
  | vmapRotate (die : Nat)
  /-- R310: VMAP CMD 2 marks PTQ for retirement. -/
  | vmapMarkRetire (die : Nat)
  /-- R324: Arms a flip of one accumulator bit in the next MMA result. -/
  | diaginjAccBit (die pt hart row column bit : Nat)
  /-- R324: Flips one SRAM bit without updating parity. -/
  | diaginjSramBit (die pt offset bit : Nat)
  /-- R324: Corrupts the expected value of the hart's next block check. -/
  | diaginjSignature (die pt hart : Nat)
  /-- R28: A result in flight on a hart (fixed-latency ALU or FP result, divide, FDIV or FSQRT, lane-group result, or a per-die CSR or CNTREAD round trip) is written into its register and becomes ready to its consumers. -/
  | resultWritten (hart : Nat)
  deriving DecidableEq, Repr, Inhabited

end Sys2Proof
end

