-- ==== Sys2Proof/Config.lean ====
section
/-! DEFINITION. What the signed blob or the module fixes (R389, R392), and the free values: constants without a body,
so that nothing can be proved of a value the spec leaves open. -/

namespace Sys2Proof

/-- Who makes a move: a hart reaching its next instruction boundary, or one step of another agent. -/
inductive Actor where
  | hart (h : Nat)
  | event (e : Instr)
  deriving DecidableEq, Repr, Inhabited

end Sys2Proof

namespace Sys2Proof.Config

/-- A value the spec leaves open, fresh at each count (notes/assumptions/5.md). -/
opaque freeWord : Nat → Word

/-- A choice the spec leaves open, fresh at each count (notes/assumptions/5.md). -/
opaque freeNat : Nat → Nat

/-- Energy in microjoules charged for an instruction word (R335): characterised per module. -/
opaque energyOfWord : Word32 → Nat

/-- Energy in microjoules charged when an array command starts: true for an MDRAIN (R335). -/
opaque energyOfArray : Bool → Nat

/-- Energy in microjoules charged for one line of a card (R335). -/
opaque energyOfCardLine : Nat

/-- A voltage and a temperature bin of the nominal set point at up to 85 degrees, where the weight is 1 (R392). -/
opaque nominalBin : Nat → Nat → Bool

/-- The stress weight of any other voltage and temperature bin (R325), below 256. -/
opaque stressWeight : Nat → Nat → BitVec 8

/-- Results a0-a6 of the firmware's ECALL_K calls 2-255 (R397), none where the firmware defines no such call. -/
opaque firmwareCall : Nat → List Word → Option (List Word)

/-- The firmware version that call 0 answers (R397). -/
opaque firmwareVersion : Word

/-- Whether the stack corrects an error when it reads a line at a tick (R93). -/
opaque correctedAt : Nat → Nat → Bool

/-- Whether a CXL device returns a line with poison set at a tick (R102). -/
opaque cxlPoison : Nat → Nat → Bool

/-- Verification of a signature over a descriptor and a digest with a public key of the blob (R367): ECDSA P-521, an
external standard. -/
opaque verifySegment : List Byte → List Byte → List Byte → List Byte → Bool

/-- The identity key's signature over a digest (R368). -/
opaque identitySign : List Byte → List Byte

/-- The certificate of the identity public key, signed by the vendor key (R368). -/
opaque identityCertificate : List Byte

/-- Messages that a supervisor mailbox holds beyond one before a record is dropped (R128). -/
opaque mailboxMore : Nat

/-- A mailbox holds at least one message (DEDUCED, notes/assumptions/5.md). -/
def mailboxSlots : Nat := mailboxMore + 1

/-- When the agenda names no move: the ticks that pass, whether the units met answer at once, and who moves
(notes/assumptions/1.md). -/
opaque nextTicks : Nat → Nat
opaque nextPrompt : Nat → Bool
opaque nextActor : Nat → Actor

end Sys2Proof.Config
end

