-- ==== Sys2Proof/WellFormed.lean ====
section
/-! DEFINITION. Which terms of `Instr` are instructions of the panel: field values that R40-R50 reserve and agent
numbers that name nothing (R9, R12-R14, R16) are ill formed, each by a name. -/

namespace Sys2Proof

/-- Why a term of `Instr` stands for nothing on the panel. -/
inductive IllFormed where
  /-- Scope codes 5-7 (R40, R41). -/
  | scopeCode
  /-- FENCE kinds 6-7 (R40). -/
  | kindCode
  /-- A field that this form does not use is nonzero (R50). -/
  | unusedField
  /-- SUBMIT with A at or above 29 (R43). -/
  | cardRegister
  /-- FCVT codes 0x16-0x1F (R44). -/
  | conversionCode
  /-- VSEL with K = 0 (R172). -/
  | selectorMask
  /-- A reserved type or format code (R40, R46). -/
  | typeCode
  /-- FS above 30 where f[FS+1] is read (R48). -/
  | scaleRegister
  /-- No such die (R9), tile (R13), hart (R14), physical tile (R12), CXL port (R10) or ring (R139). -/
  | noSuchAgent
  deriving DecidableEq, Repr

def scopeCheck (e : BitVec 3) : Option IllFormed := if e.toNat > 4 then some .scopeCode else none
def dieCheck (n : Nat) : Option IllFormed := if n < 48 then none else some .noSuchAgent
def vtCheck (n : Nat) : Option IllFormed := if n < 3072 then none else some .noSuchAgent
/-- Harts 0-12,287 are the tile harts, the 96 numbers above them the supervisor harts (R9, R14). -/
def hartCheck (n : Nat) : Option IllFormed := if n < 12384 then none else some .noSuchAgent
def slotCheck (n : Nat) : Option IllFormed := if n < 4 then none else some .noSuchAgent
def portCheck (n : Nat) : Option IllFormed := if n < 4 then none else some .noSuchAgent
def ptCheck (n : Nat) : Option IllFormed := if n < 72 then none else some .noSuchAgent
def ringCheck (n : Nat) : Option IllFormed := if n < 8 then none else some .noSuchAgent

/-- The first thing wrong with a term, if any. -/
def Instr.illFormed (i : Instr) : Option IllFormed :=
  match i with
  | .add _ _ _ _ => none
  | .sub _ _ _ _ => none
  | .and _ _ _ _ => none
  | .or _ _ _ _ => none
  | .xor _ _ _ _ => none
  | .andn _ _ _ _ => none
  | .orn _ _ _ _ => none
  | .sll _ _ _ _ => none
  | .srl _ _ _ _ => none
  | .sra _ _ _ _ => none
  | .rol _ _ _ _ => none
  | .ror _ _ _ _ => none
  | .slt _ _ _ _ => none
  | .sltu _ _ _ _ => none
  | .seq _ _ _ _ => none
  | .sne _ _ _ _ => none
  | .min _ _ _ _ => none
  | .max _ _ _ _ => none
  | .minu _ _ _ _ => none
  | .maxu _ _ _ _ => none
  | .clz _ _ _ => none
  | .ctz _ _ _ => none
  | .popc _ _ _ => none
  | .brev _ _ _ => none
  | .sextb _ _ _ => none
  | .sexth _ _ _ => none
  | .sextw _ _ _ => none
  | .zextw _ _ _ => none
  | .addsh _ _ _ _ _ => none
  | .addw _ _ _ _ => none
  | .subw _ _ _ _ => none
  | .sllw _ _ _ _ => none
  | .srlw _ _ _ _ => none
  | .sraw _ _ _ _ => none
  | .rolw _ _ _ _ => none
  | .rorw _ _ _ _ => none
  | .mul _ _ _ _ => none
  | .mulhs _ _ _ _ => none
  | .mulhz _ _ _ _ => none
  | .mulhsz _ _ _ _ => none
  | .div _ _ _ _ => none
  | .divu _ _ _ _ => none
  | .rem _ _ _ _ => none
  | .remu _ _ _ _ => none
  | .mulw _ _ _ _ => none
  | .divw _ _ _ _ => none
  | .divuw _ _ _ _ => none
  | .remw _ _ _ _ => none
  | .remuw _ _ _ _ => none
  | .addi _ _ _ _ => none
  | .andi _ _ _ _ => none
  | .ori _ _ _ _ => none
  | .xori _ _ _ _ => none
  | .slti _ _ _ _ => none
  | .sltiu _ _ _ _ => none
  | .addiw _ _ _ _ => none
  | .slli _ _ _ _ => none
  | .srli _ _ _ _ => none
  | .srai _ _ _ _ => none
  | .rori _ _ _ _ => none
  | .slliw _ _ _ _ => none
  | .srliw _ _ _ _ => none
  | .sraiw _ _ _ _ => none
  | .roriw _ _ _ _ => none
  | .lui _ _ _ => none
  | .auipc _ _ _ => none
  | .liw _ _ _ => none
  | .beq _ _ _ _ => none
  | .bne _ _ _ _ => none
  | .blt _ _ _ _ => none
  | .bge _ _ _ _ => none
  | .bltu _ _ _ _ => none
  | .bgeu _ _ _ _ => none
  | .jal _ _ _ => none
  | .jalr _ _ _ _ => none
  | .ldb _ _ _ _ => none
  | .ldh _ _ _ _ => none
  | .ldw _ _ _ _ => none
  | .ldd _ _ _ _ => none
  | .ldbz _ _ _ _ => none
  | .ldhz _ _ _ _ => none
  | .ldwz _ _ _ _ => none
  | .stb _ _ _ _ => none
  | .sth _ _ _ _ => none
  | .stw _ _ _ _ => none
  | .std _ _ _ _ => none
  | .fldw _ _ _ _ => none
  | .fldd _ _ _ _ => none
  | .fstw _ _ _ _ => none
  | .fstd _ _ _ _ => none
  | .ldAcq _ _ _ e _ => scopeCheck e
  | .stRel _ _ _ e _ => scopeCheck e
  | .setfull _ _ => none
  | .setempty _ _ => none
  | .ldtake _ _ _ => none
  | .stfill _ _ _ => none
  | .festat _ _ _ => none
  | .amoadd _ _ _ _ _ => none
  | .amomin _ _ _ _ _ => none
  | .amomax _ _ _ _ _ => none
  | .amoand _ _ _ _ _ => none
  | .amoor _ _ _ _ _ => none
  | .amoxor _ _ _ _ _ => none
  | .amoswap _ _ _ _ _ => none
  | .amocas _ _ _ _ _ => none
  | .accF32 _ _ _ => none
  | .accBf _ _ _ => none
  | .accS32 _ _ _ => none
  | .accS64 _ _ _ => none
  | .flushres _ => none
  | .tailstat _ _ _ => none
  | .csrrw _ _ _ _ => none
  | .csrrs _ _ _ _ => none
  | .csrrc _ _ _ _ => none
  | .csrrwi _ _ _ _ => none
  | .csrrsi _ _ _ _ => none
  | .csrrci _ _ _ _ => none
  | .ecall _ => none
  | .ebreak _ => none
  | .uret _ => none
  | .kret _ => none
  | .fret _ => none
  | .wfi _ => none
  | .fenceI _ => none
  | .tlbinv _ _ _ => none
  | .savept _ => none
  | .ckpt _ => none
  | .tstamp _ _ => none
  | .fence _ k e => if k.toNat > 5 then some .kindCode else scopeCheck e
  | .send _ d _ _ _ u _ => if u = 0 ∧ d ≠ 0 then some .unusedField else none
  | .spawn _ _ _ => none
  | .tend _ => none
  | .tendX _ => none
  | .tyield _ => none
  | .msgpeek _ _ _ => none
  | .barinit _ _ _ => none
  | .barjoin _ _ => none
  | .bararrive _ _ => none
  | .barwait _ _ => none
  | .bardrop _ _ => none
  | .lwatch _ _ => none
  | .lwait _ _ _ => none
  | .cntadd _ _ _ => none
  | .cntwait _ _ _ => none
  | .cntread _ _ _ => none
  | .cancel _ _ => none
  | .submit _ a => if a.toNat > 28 then some .cardRegister else none
  | .submitB _ _ a => if a.toNat > 28 then some .cardRegister else none
  | .tmap _ _ _ => none
  | .waitany _ _ _ => none
  | .waitall _ _ => none
  | .fftag _ _ _ => none
  | .clrtag _ _ => none
  | .mreq _ _ _ => none
  | .mbind _ _ _ => none
  | .fadd _ _ _ _ _ => none
  | .fsub _ _ _ _ _ => none
  | .fmul _ _ _ _ _ => none
  | .fdiv _ _ _ _ _ => none
  | .fsqrt _ _ _ _ => none
  | .fmin _ _ _ _ _ => none
  | .fmax _ _ _ _ _ => none
  | .fsgncpy _ _ _ _ _ => none
  | .fsgnneg _ _ _ _ _ => none
  | .fsgnxor _ _ _ _ _ => none
  | .feq _ _ _ _ _ => none
  | .flt _ _ _ _ _ => none
  | .fle _ _ _ _ _ => none
  | .fclass _ _ _ _ => none
  | .fcvt _ _ _ c => if c.toNat > 0x15 then some .conversionCode else none
  | .fmvg _ _ _ _ => none
  | .fmvf _ _ _ _ => none
  | .fmaS _ _ _ _ _ => none
  | .fmsS _ _ _ _ _ => none
  | .fnmaS _ _ _ _ _ => none
  | .fnmsS _ _ _ _ _ => none
  | .fmaD _ _ _ _ _ => none
  | .fmsD _ _ _ _ _ => none
  | .fnmaD _ _ _ _ _ => none
  | .fnmsD _ _ _ _ _ => none
  | .vadd _ _ _ _ _ => none
  | .vsub _ _ _ _ _ => none
  | .vmul _ _ _ _ _ => none
  | .vmulh _ _ _ _ _ => none
  | .vmin _ _ _ _ _ => none
  | .vmax _ _ _ _ _ => none
  | .vand _ _ _ _ _ => none
  | .vor _ _ _ _ _ => none
  | .vxor _ _ _ _ _ => none
  | .vandn _ _ _ _ _ => none
  | .vsll _ _ _ _ _ => none
  | .vsrl _ _ _ _ _ => none
  | .vsra _ _ _ _ _ => none
  | .vmac _ _ _ _ _ => none
  | .vadds _ _ _ _ _ => none
  | .vsubs _ _ _ _ _ => none
  | .vabs _ _ _ _ => none
  | .vneg _ _ _ _ => none
  | .vdiv _ _ _ _ _ => none
  | .vsel _ _ _ _ k => if k = 0 then some .selectorMask else none
  | .vcmp _ _ _ _ _ _ => none
  | .vredAdd _ _ _ _ => none
  | .vredMax _ _ _ _ => none
  | .vredMin _ _ _ _ => none
  -- VB[2:0] of an unsegmented VSCAN is a field it does not list (R46, R50; notes/assumptions/69.md).
  | .vscanAddI _ _ _ g h _ => if g = 0 ∧ h ≠ 0 then some .unusedField else none
  | .vscanMaxI _ _ _ g h _ => if g = 0 ∧ h ≠ 0 then some .unusedField else none
  | .vscanMinI _ _ _ g h _ => if g = 0 ∧ h ≠ 0 then some .unusedField else none
  | .vscanAddE _ _ _ g h _ => if g = 0 ∧ h ≠ 0 then some .unusedField else none
  | .vscanMaxE _ _ _ g h _ => if g = 0 ∧ h ≠ 0 then some .unusedField else none
  | .vscanMinE _ _ _ g h _ => if g = 0 ∧ h ≠ 0 then some .unusedField else none
  | .vperm _ _ _ _ _ => none
  | .vslideup _ _ _ _ _ => none
  | .vslidedn _ _ _ _ _ => none
  | .vbcast _ _ _ _ => none
  | .vins _ _ _ _ _ => none
  | .vext _ _ _ _ _ => none
  | .vcvtLo _ _ _ t _ => if t.toNat > 13 then some .typeCode else none
  | .vcvtHi _ _ _ t _ => if t.toNat > 13 then some .typeCode else none
  | .vquantE43 _ _ _ _ _ => none
  | .vquantE52 _ _ _ _ _ => none
  | .vquantS8 _ _ _ _ _ => none
  | .vdeqE43 _ _ _ _ _ => none
  | .vdeqE52 _ _ _ _ _ => none
  | .vdeqS8 _ _ _ _ _ => none
  | .vamax _ _ _ _ => none
  | .scld _ _ _ t => if t = 0 ∨ t = 12 ∨ t = 13 then none else some .typeCode
  | .vrcp _ _ _ _ => none
  | .vrsqrt _ _ _ _ => none
  | .vexp2 _ _ _ _ => none
  | .vlog2 _ _ _ _ => none
  | .vsqrt _ _ _ _ => none
  | .vld _ _ _ _ _ => none
  | .vst _ _ _ _ _ => none
  | .vlds _ _ _ _ _ => none
  | .vsts _ _ _ _ _ => none
  | .vgath _ _ _ _ _ => none
  | .vscat _ _ _ _ _ => none
  | .vldb _ _ _ _ => none
  | .kand _ _ _ _ => none
  | .kor _ _ _ _ => none
  | .kxor _ _ _ _ => none
  | .kandn _ _ _ _ => none
  | .knot _ _ _ => none
  | .kpop _ _ _ => none
  | .kffs _ _ _ => none
  | .ksetn _ _ _ => none
  | .kmovg _ _ _ => none
  | .kmovk _ _ _ => none
  | .vsett _ _ a t => if a = 0 then (if t = 15 then some .typeCode else none) else (if t = 0 then none else some .unusedField)
  | .mmaBf _ _ _ _ _ => none
  | .mmaHf _ _ _ _ _ => none
  | .mmaE44 _ _ _ _ f _ => if f.toNat > 30 then some .scaleRegister else none
  | .mmaE45 _ _ _ _ f _ => if f.toNat > 30 then some .scaleRegister else none
  | .mmaE55 _ _ _ _ f _ => if f.toNat > 30 then some .scaleRegister else none
  | .mmaI8 _ _ _ _ _ => none
  | .mmaNb _ _ _ _ _ _ => none
  | .mmaNe _ _ _ _ f _ => if f.toNat > 30 then some .scaleRegister else none
  | .mlease _ => none
  | .mleaseB _ _ => none
  | .mrel _ => none
  | .mzero _ _ => none
  | .mdrain _ _ _ _ => none
  | .maccget _ _ _ _ => none
  | .maccput _ _ _ _ => none
  | .rpop _ _ => none
  | .rstat _ _ _ => none
  | .mrowset _ _ _ _ => none
  | .mrowget _ _ _ _ => none
  | .mcolset _ _ _ _ => none
  | .mcolget _ _ _ _ => none
  | .mldm _ _ _ => none
  | .mstm _ _ _ => none
  | .reservedEncoding _ => none
  | .panelReset _ _ => none
  | .mwbell _ => none
  | .bar2Access _ _ _ => none
  | .nonceWrite _ => none
  | .launch => none
  | .launchInject _ die => dieCheck die
  | .cancelMessage => none
  | .mgmtAssignCounter => none
  | .mgmtFreeCounter => none
  | .mgmtExtentUnmapped => none
  | .mgmtUnmarkExecutable => none
  | .mgmtDefineTenant => none
  | .mgmtRemoveTenant => none
  | .routeset die => dieCheck die
  | .timerset die => dieCheck die
  | .timerDeadline hart => hartCheck hart
  | .parkctlRegister die => dieCheck die
  | .parkctlResume die => dieCheck die
  | .parkctlDiscard die => dieCheck die
  | .faultRecord die => dieCheck die
  | .cxlExtentOffer port _ _ _ => portCheck port
  | .cxlExtentReleaseRequest port _ => portCheck port
  | .imageLoad _ => none
  | .panelHalt => none
  | .panelResume => none
  | .dispatch hart => hartCheck hart
  | .messageArrival _ => none
  | .bounceReturn _ => none
  | .sendRetry hart _ => hartCheck hart
  | .sendAcceptance _ => none
  | .spawnAnswer _ => none
  | .counterUpdate _ => none
  | .counterUpdateAck _ => none
  | .loadLevel vt => vtCheck vt
  | .accDeliveryArrival _ => none
  | .accApply _ => none
  | .accBounce _ => none
  | .accOutcome _ => none
  | .quotaWindow vt => vtCheck vt
  | .switchAddend _ => none
  | .switchDeliver _ => none
  | .switchResend _ => none
  | .cardAdmit vt => vtCheck vt
  | .cardStart vt _ => vtCheck vt
  | .cardLineAccess vt _ _ => vtCheck vt
  | .cardComplete vt _ => vtCheck vt
  | .ringfeedEntry vt _ => vtCheck vt
  | .mreqLineLand vt _ _ => vtCheck vt
  | .mmaStart vt => vtCheck vt
  | .mmaRetire vt => vtCheck vt
  | .screenVerdict vt => vtCheck vt
  | .arrayCommandStart vt => vtCheck vt
  | .arrayCommandRetire vt => vtCheck vt
  | .ringCommandTurn vt hart => (vtCheck vt).or (slotCheck hart)
  | .mdrainCopy vt => vtCheck vt
  | .mdrainRowWrite vt _ _ => vtCheck vt
  | .mdrainWake vt _ => vtCheck vt
  | .slotBoundary vt => vtCheck vt
  | .leaseGrant vt => vtCheck vt
  | .feLoadRetry hart _ _ => hartCheck hart
  | .feTimeout hart _ => hartCheck hart
  | .sramScrub vt _ => vtCheck vt
  | .homeLineRequest hart _ _ => hartCheck hart
  | .accessAnswer hart _ => hartCheck hart
  | .hbmBatchForm die _ => dieCheck die
  | .refreshManagement die _ _ _ => dieCheck die
  | .patrolRead die _ _ => dieCheck die
  | .pageWalk hart _ _ => hartCheck hart
  | .barrierOpApply _ => none
  | .watchRegister hart _ => hartCheck hart
  | .watchEvict hart _ => hartCheck hart
  | .lwaitTimeout hart => hartCheck hart
  | .trapEntry hart => hartCheck hart
  | .interruptEntry hart => hartCheck hart
  | .parkDump die => dieCheck die
  | .ecallKService hart => hartCheck hart
  | .frameReload hart => hartCheck hart
  | .laneGroupGrant vt => vtCheck vt
  | .sfuEntryStart vt => vtCheck vt
  | .sfuResult vt => vtCheck vt
  | .sfuReentry hart => hartCheck hart
  | .rotationStart die => dieCheck die
  | .rotationDrain die => dieCheck die
  | .rotationPause die => dieCheck die
  | .rotationAbandon die => dieCheck die
  | .selfTestEnd die pt _ => (dieCheck die).or (ptCheck pt)
  | .tileWakeDone die pt => (dieCheck die).or (ptCheck pt)
  | .ckptInterval hart => hartCheck hart
  | .logForcedCkpt vt => vtCheck vt
  | .moonForcedCkpt vt => vtCheck vt
  | .ckptCommit vt => vtCheck vt
  | .outOfTurnResend _ => none
  | .voidMarker _ => none
  | .egressRelease vt => vtCheck vt
  | .blockCheck hart => hartCheck hart
  | .rollback vt => vtCheck vt
  | .replayResume vt => vtCheck vt
  | .replayLogEvent vt => vtCheck vt
  | .ageStressTick die pt _ _ => (dieCheck die).or (ptCheck pt)
  | .regulatorPhaseFail die _ => dieCheck die
  | .flashRewrite => none
  | .budgetTick _ _ => none
  | .equotaRenew hart => hartCheck hart
  | .droopTrip vt => vtCheck vt
  | .droopStretchEnd vt => vtCheck vt
  | .droopHalveEnd vt => vtCheck vt
  | .shelfFrame _ => none
  | .shedLimitUpdate die => dieCheck die
  | .shedHoldTimeout hart => hartCheck hart
  | .shedRestore die => dieCheck die
  | .shelfFallback => none
  | .clockLoss die pt => (dieCheck die).or (ptCheck pt)
  | .hubFailover die => dieCheck die
  | .reroot die => dieCheck die
  | .rootFailover => none
  | .clockLock die pt => (dieCheck die).or (ptCheck pt)
  | .linkCrcRetry _ _ => none
  | .samplePulse die => dieCheck die
  | .dbgctlResume hart => hartCheck hart
  | .dbgctlHaltreq hart => hartCheck hart
  | .csrWrite hart _ _ => hartCheck hart
  | .mshapeWrite hart _ => hartCheck hart
  | .slottabWrite hart _ => hartCheck hart
  | .leasenWrite hart _ => hartCheck hart
  | .msaveClaim hart _ => hartCheck hart
  | .msaveInval hart _ => hartCheck hart
  | .ringcfgWrite hart ring _ => (hartCheck hart).or (ringCheck ring)
  | .hrdataWrite hart _ => hartCheck hart
  | .fetchdutyWrite hart _ => hartCheck hart
  | .tracectlWrite hart _ => hartCheck hart
  | .vmapRotate die => dieCheck die
  | .vmapMarkRetire die => dieCheck die
  | .diaginjAccBit die pt hart _ _ _ => (dieCheck die).or ((ptCheck pt).or (slotCheck hart))
  | .diaginjSramBit die pt _ _ => (dieCheck die).or (ptCheck pt)
  | .diaginjSignature die pt hart => (dieCheck die).or ((ptCheck pt).or (slotCheck hart))
  | .resultWritten hart => hartCheck hart

/-- A term is well formed when nothing is wrong with it. -/
abbrev Instr.WellFormed (i : Instr) : Prop := i.illFormed = none

end Sys2Proof
end

