-- ==== Sys2Proof/Decode.lean ====
section
/-! DEFINITION. Words to instructions and back (R22, R23, R38-R49). `decode` is total: every word that names no
instruction is refused by name (R50, R51). `encode` writes an instruction's word from the same tables. -/

namespace Sys2Proof

/-- Why a word names no instruction (R50, R51). -/
inductive DecodeError where
  /-- An opcode of R51's list. -/
  | unassignedOpcode
  /-- A function, sub-operation, kind or size code that no table lists (R39-R49). -/
  | reservedFunction
  /-- A nonzero bit in a field the member does not use (R50). -/
  | nonzeroField
  /-- A field value that R40, R43, R46, R48 or R44 reserves. -/
  | illFormed (why : IllFormed)
  deriving DecidableEq, Repr

/-- The field of `n` bits at bit `lo` of an instruction word (R23). -/
def fld (w : Word32) (lo n : Nat) : BitVec n := w.extractLsb' lo n

/-- A word from its stall count, major opcode and the 22 bits below them (R22). -/
def pack (sc : BitVec 3) (op : BitVec 7) (body : BitVec 22) : Word32 := sc ++ op ++ body

/-- OP 0x01, group INT (R38). -/
def decodeINT (w : Word32) : Except DecodeError Instr :=
  match (fld w 0 7).toNat with
  | 0 => .ok (.add (fld w 29 3) (fld w 17 5) (fld w 12 5) (fld w 7 5))
  | 1 => .ok (.sub (fld w 29 3) (fld w 17 5) (fld w 12 5) (fld w 7 5))
  | 2 => .ok (.and (fld w 29 3) (fld w 17 5) (fld w 12 5) (fld w 7 5))
  | 3 => .ok (.or (fld w 29 3) (fld w 17 5) (fld w 12 5) (fld w 7 5))
  | 4 => .ok (.xor (fld w 29 3) (fld w 17 5) (fld w 12 5) (fld w 7 5))
  | 5 => .ok (.andn (fld w 29 3) (fld w 17 5) (fld w 12 5) (fld w 7 5))
  | 6 => .ok (.orn (fld w 29 3) (fld w 17 5) (fld w 12 5) (fld w 7 5))
  | 8 => .ok (.sll (fld w 29 3) (fld w 17 5) (fld w 12 5) (fld w 7 5))
  | 9 => .ok (.srl (fld w 29 3) (fld w 17 5) (fld w 12 5) (fld w 7 5))
  | 10 => .ok (.sra (fld w 29 3) (fld w 17 5) (fld w 12 5) (fld w 7 5))
  | 11 => .ok (.rol (fld w 29 3) (fld w 17 5) (fld w 12 5) (fld w 7 5))
  | 12 => .ok (.ror (fld w 29 3) (fld w 17 5) (fld w 12 5) (fld w 7 5))
  | 16 => .ok (.slt (fld w 29 3) (fld w 17 5) (fld w 12 5) (fld w 7 5))
  | 17 => .ok (.sltu (fld w 29 3) (fld w 17 5) (fld w 12 5) (fld w 7 5))
  | 18 => .ok (.seq (fld w 29 3) (fld w 17 5) (fld w 12 5) (fld w 7 5))
  | 19 => .ok (.sne (fld w 29 3) (fld w 17 5) (fld w 12 5) (fld w 7 5))
  | 20 => .ok (.min (fld w 29 3) (fld w 17 5) (fld w 12 5) (fld w 7 5))
  | 21 => .ok (.max (fld w 29 3) (fld w 17 5) (fld w 12 5) (fld w 7 5))
  | 22 => .ok (.minu (fld w 29 3) (fld w 17 5) (fld w 12 5) (fld w 7 5))
  | 23 => .ok (.maxu (fld w 29 3) (fld w 17 5) (fld w 12 5) (fld w 7 5))
  | 24 => if fld w 7 5 = 0 then .ok (.clz (fld w 29 3) (fld w 17 5) (fld w 12 5)) else .error .nonzeroField
  | 25 => if fld w 7 5 = 0 then .ok (.ctz (fld w 29 3) (fld w 17 5) (fld w 12 5)) else .error .nonzeroField
  | 26 => if fld w 7 5 = 0 then .ok (.popc (fld w 29 3) (fld w 17 5) (fld w 12 5)) else .error .nonzeroField
  | 27 => if fld w 7 5 = 0 then .ok (.brev (fld w 29 3) (fld w 17 5) (fld w 12 5)) else .error .nonzeroField
  | 28 => if fld w 7 5 = 0 then .ok (.sextb (fld w 29 3) (fld w 17 5) (fld w 12 5)) else .error .nonzeroField
  | 29 => if fld w 7 5 = 0 then .ok (.sexth (fld w 29 3) (fld w 17 5) (fld w 12 5)) else .error .nonzeroField
  | 30 => if fld w 7 5 = 0 then .ok (.sextw (fld w 29 3) (fld w 17 5) (fld w 12 5)) else .error .nonzeroField
  | 31 => if fld w 7 5 = 0 then .ok (.zextw (fld w 29 3) (fld w 17 5) (fld w 12 5)) else .error .nonzeroField
  | 32 | 33 | 34 | 35 => .ok (.addsh (fld w 29 3) (fld w 17 5) (fld w 12 5) (fld w 7 5) (fld w 0 2))
  | _ => .error .reservedFunction

/-- OP 0x02, group INTW (R38). -/
def decodeINTW (w : Word32) : Except DecodeError Instr :=
  match (fld w 0 7).toNat with
  | 0 => .ok (.addw (fld w 29 3) (fld w 17 5) (fld w 12 5) (fld w 7 5))
  | 1 => .ok (.subw (fld w 29 3) (fld w 17 5) (fld w 12 5) (fld w 7 5))
  | 8 => .ok (.sllw (fld w 29 3) (fld w 17 5) (fld w 12 5) (fld w 7 5))
  | 9 => .ok (.srlw (fld w 29 3) (fld w 17 5) (fld w 12 5) (fld w 7 5))
  | 10 => .ok (.sraw (fld w 29 3) (fld w 17 5) (fld w 12 5) (fld w 7 5))
  | 11 => .ok (.rolw (fld w 29 3) (fld w 17 5) (fld w 12 5) (fld w 7 5))
  | 12 => .ok (.rorw (fld w 29 3) (fld w 17 5) (fld w 12 5) (fld w 7 5))
  | _ => .error .reservedFunction

/-- OP 0x03, group MULDIV (R38). -/
def decodeMULDIV (w : Word32) : Except DecodeError Instr :=
  match (fld w 0 7).toNat with
  | 0 => .ok (.mul (fld w 29 3) (fld w 17 5) (fld w 12 5) (fld w 7 5))
  | 1 => .ok (.mulhs (fld w 29 3) (fld w 17 5) (fld w 12 5) (fld w 7 5))
  | 2 => .ok (.mulhz (fld w 29 3) (fld w 17 5) (fld w 12 5) (fld w 7 5))
  | 3 => .ok (.mulhsz (fld w 29 3) (fld w 17 5) (fld w 12 5) (fld w 7 5))
  | 4 => .ok (.div (fld w 29 3) (fld w 17 5) (fld w 12 5) (fld w 7 5))
  | 5 => .ok (.divu (fld w 29 3) (fld w 17 5) (fld w 12 5) (fld w 7 5))
  | 6 => .ok (.rem (fld w 29 3) (fld w 17 5) (fld w 12 5) (fld w 7 5))
  | 7 => .ok (.remu (fld w 29 3) (fld w 17 5) (fld w 12 5) (fld w 7 5))
  | 8 => .ok (.mulw (fld w 29 3) (fld w 17 5) (fld w 12 5) (fld w 7 5))
  | 12 => .ok (.divw (fld w 29 3) (fld w 17 5) (fld w 12 5) (fld w 7 5))
  | 13 => .ok (.divuw (fld w 29 3) (fld w 17 5) (fld w 12 5) (fld w 7 5))
  | 14 => .ok (.remw (fld w 29 3) (fld w 17 5) (fld w 12 5) (fld w 7 5))
  | 15 => .ok (.remuw (fld w 29 3) (fld w 17 5) (fld w 12 5) (fld w 7 5))
  | _ => .error .reservedFunction

/-- OP 0x0a, group SHIFTI (R38). -/
def decodeSHIFTI (w : Word32) : Except DecodeError Instr :=
  match (fld w 6 6).toNat with
  | 0 => .ok (.slli (fld w 29 3) (fld w 17 5) (fld w 12 5) (fld w 0 6))
  | 1 => .ok (.srli (fld w 29 3) (fld w 17 5) (fld w 12 5) (fld w 0 6))
  | 2 => .ok (.srai (fld w 29 3) (fld w 17 5) (fld w 12 5) (fld w 0 6))
  | 3 => .ok (.rori (fld w 29 3) (fld w 17 5) (fld w 12 5) (fld w 0 6))
  | 4 => if fld w 5 1 = 0 then .ok (.slliw (fld w 29 3) (fld w 17 5) (fld w 12 5) (fld w 0 5)) else .error .nonzeroField
  | 5 => if fld w 5 1 = 0 then .ok (.srliw (fld w 29 3) (fld w 17 5) (fld w 12 5) (fld w 0 5)) else .error .nonzeroField
  | 6 => if fld w 5 1 = 0 then .ok (.sraiw (fld w 29 3) (fld w 17 5) (fld w 12 5) (fld w 0 5)) else .error .nonzeroField
  | 7 => if fld w 5 1 = 0 then .ok (.roriw (fld w 29 3) (fld w 17 5) (fld w 12 5) (fld w 0 5)) else .error .nonzeroField
  | _ => .error .reservedFunction

/-- OP 0x28, group ORDERED (R38). -/
def decodeORDERED (w : Word32) : Except DecodeError Instr :=
  match (fld w 0 7).toNat with
  | 0 | 1 | 2 | 3 | 4 | 5 | 6 | 7 | 8 | 9 | 10 | 11 | 12 | 13 | 14 | 15 | 16 | 17 | 18 | 19 | 20 | 21 | 22 | 23 | 24 | 25 | 26 | 27 | 28 | 29 | 30 | 31 => if fld w 7 5 = 0 then .ok (.ldAcq (fld w 29 3) (fld w 17 5) (fld w 12 5) (fld w 2 3) (fld w 0 2)) else .error .nonzeroField
  | 32 | 33 | 34 | 35 | 36 | 37 | 38 | 39 | 40 | 41 | 42 | 43 | 44 | 45 | 46 | 47 | 48 | 49 | 50 | 51 | 52 | 53 | 54 | 55 | 56 | 57 | 58 | 59 | 60 | 61 | 62 | 63 => if fld w 17 5 = 0 then .ok (.stRel (fld w 29 3) (fld w 12 5) (fld w 7 5) (fld w 2 3) (fld w 0 2)) else .error .nonzeroField
  | _ => .error .reservedFunction

/-- OP 0x29, group FEMEM (R38). -/
def decodeFEMEM (w : Word32) : Except DecodeError Instr :=
  match (fld w 0 7).toNat with
  | 0 => if fld w 17 5 = 0 ∧ fld w 7 5 = 0 then .ok (.setfull (fld w 29 3) (fld w 12 5)) else .error .nonzeroField
  | 1 => if fld w 17 5 = 0 ∧ fld w 7 5 = 0 then .ok (.setempty (fld w 29 3) (fld w 12 5)) else .error .nonzeroField
  | 2 => if fld w 7 5 = 0 then .ok (.ldtake (fld w 29 3) (fld w 17 5) (fld w 12 5)) else .error .nonzeroField
  | 3 => if fld w 17 5 = 0 then .ok (.stfill (fld w 29 3) (fld w 12 5) (fld w 7 5)) else .error .nonzeroField
  | 4 => if fld w 7 5 = 0 then .ok (.festat (fld w 29 3) (fld w 17 5) (fld w 12 5)) else .error .nonzeroField
  | _ => .error .reservedFunction

/-- OP 0x2a, group ATOMIC (R38). -/
def decodeATOMIC (w : Word32) : Except DecodeError Instr :=
  match (fld w 0 7).toNat with
  | 0 | 8 => .ok (.amoadd (fld w 29 3) (fld w 17 5) (fld w 12 5) (fld w 7 5) (fld w 3 1))
  | 1 | 9 => .ok (.amomin (fld w 29 3) (fld w 17 5) (fld w 12 5) (fld w 7 5) (fld w 3 1))
  | 2 | 10 => .ok (.amomax (fld w 29 3) (fld w 17 5) (fld w 12 5) (fld w 7 5) (fld w 3 1))
  | 3 | 11 => .ok (.amoand (fld w 29 3) (fld w 17 5) (fld w 12 5) (fld w 7 5) (fld w 3 1))
  | 4 | 12 => .ok (.amoor (fld w 29 3) (fld w 17 5) (fld w 12 5) (fld w 7 5) (fld w 3 1))
  | 5 | 13 => .ok (.amoxor (fld w 29 3) (fld w 17 5) (fld w 12 5) (fld w 7 5) (fld w 3 1))
  | 6 | 14 => .ok (.amoswap (fld w 29 3) (fld w 17 5) (fld w 12 5) (fld w 7 5) (fld w 3 1))
  | 7 | 15 => .ok (.amocas (fld w 29 3) (fld w 17 5) (fld w 12 5) (fld w 7 5) (fld w 3 1))
  | _ => .error .reservedFunction

/-- OP 0x2b, group ACCUM (R38). -/
def decodeACCUM (w : Word32) : Except DecodeError Instr :=
  match (fld w 0 7).toNat with
  | 0 => if fld w 17 5 = 0 then .ok (.accF32 (fld w 29 3) (fld w 12 5) (fld w 7 5)) else .error .nonzeroField
  | 1 => if fld w 17 5 = 0 then .ok (.accBf (fld w 29 3) (fld w 12 5) (fld w 7 5)) else .error .nonzeroField
  | 2 => if fld w 17 5 = 0 then .ok (.accS32 (fld w 29 3) (fld w 12 5) (fld w 7 5)) else .error .nonzeroField
  | 3 => if fld w 17 5 = 0 then .ok (.accS64 (fld w 29 3) (fld w 12 5) (fld w 7 5)) else .error .nonzeroField
  | 16 => if fld w 7 15 = 0 then .ok (.flushres (fld w 29 3)) else .error .nonzeroField
  | 17 => if fld w 7 5 = 0 then .ok (.tailstat (fld w 29 3) (fld w 17 5) (fld w 12 5)) else .error .nonzeroField
  | _ => .error .reservedFunction

/-- OP 0x36, group SYSTEM (R38). -/
def decodeSYSTEM (w : Word32) : Except DecodeError Instr :=
  match (fld w 0 7).toNat with
  | 0 => if fld w 7 15 = 0 then .ok (.ecall (fld w 29 3)) else .error .nonzeroField
  | 1 => if fld w 7 15 = 0 then .ok (.ebreak (fld w 29 3)) else .error .nonzeroField
  | 2 => if fld w 7 15 = 0 then .ok (.uret (fld w 29 3)) else .error .nonzeroField
  | 3 => if fld w 7 15 = 0 then .ok (.kret (fld w 29 3)) else .error .nonzeroField
  | 4 => if fld w 7 15 = 0 then .ok (.fret (fld w 29 3)) else .error .nonzeroField
  | 5 => if fld w 7 15 = 0 then .ok (.wfi (fld w 29 3)) else .error .nonzeroField
  | 6 => if fld w 7 15 = 0 then .ok (.fenceI (fld w 29 3)) else .error .nonzeroField
  | 8 => if fld w 17 5 = 0 then .ok (.tlbinv (fld w 29 3) (fld w 12 5) (fld w 7 5)) else .error .nonzeroField
  | 9 => if fld w 7 15 = 0 then .ok (.savept (fld w 29 3)) else .error .nonzeroField
  | 10 => if fld w 7 15 = 0 then .ok (.ckpt (fld w 29 3)) else .error .nonzeroField
  | 11 => if fld w 7 10 = 0 then .ok (.tstamp (fld w 29 3) (fld w 17 5)) else .error .nonzeroField
  | _ => .error .reservedFunction

/-- OP 0x38, group MSG (R38). -/
def decodeMSG (w : Word32) : Except DecodeError Instr :=
  match (fld w 0 7).toNat with
  | 0 | 1 | 2 | 3 | 4 | 5 | 6 | 7 => .ok (.send (fld w 29 3) (fld w 17 5) (fld w 12 5) (fld w 7 5) (fld w 2 1) (fld w 1 1) (fld w 0 1))
  | 8 => if fld w 17 5 = 0 then .ok (.spawn (fld w 29 3) (fld w 12 5) (fld w 7 5)) else .error .nonzeroField
  | 16 => if fld w 7 15 = 0 then .ok (.tend (fld w 29 3)) else .error .nonzeroField
  | 17 => if fld w 7 15 = 0 then .ok (.tendX (fld w 29 3)) else .error .nonzeroField
  | 18 => if fld w 7 15 = 0 then .ok (.tyield (fld w 29 3)) else .error .nonzeroField
  | 24 => if fld w 7 5 = 0 then .ok (.msgpeek (fld w 29 3) (fld w 17 5) (fld w 12 5)) else .error .nonzeroField
  | _ => .error .reservedFunction

/-- OP 0x39, group SYNC (R38). -/
def decodeSYNC (w : Word32) : Except DecodeError Instr :=
  match (fld w 0 7).toNat with
  | 0 => if fld w 17 5 = 0 then .ok (.barinit (fld w 29 3) (fld w 12 5) (fld w 7 5)) else .error .nonzeroField
  | 1 => if fld w 17 5 = 0 ∧ fld w 7 5 = 0 then .ok (.barjoin (fld w 29 3) (fld w 12 5)) else .error .nonzeroField
  | 2 => if fld w 17 5 = 0 ∧ fld w 7 5 = 0 then .ok (.bararrive (fld w 29 3) (fld w 12 5)) else .error .nonzeroField
  | 3 => if fld w 17 5 = 0 ∧ fld w 7 5 = 0 then .ok (.barwait (fld w 29 3) (fld w 12 5)) else .error .nonzeroField
  | 4 => if fld w 17 5 = 0 ∧ fld w 7 5 = 0 then .ok (.bardrop (fld w 29 3) (fld w 12 5)) else .error .nonzeroField
  | 8 => if fld w 17 5 = 0 ∧ fld w 7 5 = 0 then .ok (.lwatch (fld w 29 3) (fld w 12 5)) else .error .nonzeroField
  | 9 => if fld w 7 5 = 0 then .ok (.lwait (fld w 29 3) (fld w 17 5) (fld w 12 5)) else .error .nonzeroField
  | 16 => if fld w 17 5 = 0 then .ok (.cntadd (fld w 29 3) (fld w 12 5) (fld w 7 5)) else .error .nonzeroField
  | 17 => if fld w 17 5 = 0 then .ok (.cntwait (fld w 29 3) (fld w 12 5) (fld w 7 5)) else .error .nonzeroField
  | 18 => if fld w 7 5 = 0 then .ok (.cntread (fld w 29 3) (fld w 17 5) (fld w 12 5)) else .error .nonzeroField
  | 24 => if fld w 17 5 = 0 ∧ fld w 7 5 = 0 then .ok (.cancel (fld w 29 3) (fld w 12 5)) else .error .nonzeroField
  | _ => .error .reservedFunction

/-- OP 0x3a, group ENGINE (R38). -/
def decodeENGINE (w : Word32) : Except DecodeError Instr :=
  match (fld w 0 7).toNat with
  | 0 => if fld w 17 5 = 0 ∧ fld w 7 5 = 0 then .ok (.submit (fld w 29 3) (fld w 12 5)) else .error .nonzeroField
  | 1 => if fld w 7 5 = 0 then .ok (.submitB (fld w 29 3) (fld w 17 5) (fld w 12 5)) else .error .nonzeroField
  | 8 => if fld w 17 5 = 0 then .ok (.tmap (fld w 29 3) (fld w 12 5) (fld w 7 5)) else .error .nonzeroField
  | 16 => if fld w 7 5 = 0 then .ok (.waitany (fld w 29 3) (fld w 17 5) (fld w 12 5)) else .error .nonzeroField
  | 17 => if fld w 17 5 = 0 ∧ fld w 7 5 = 0 then .ok (.waitall (fld w 29 3) (fld w 12 5)) else .error .nonzeroField
  | 18 => if fld w 7 5 = 0 then .ok (.fftag (fld w 29 3) (fld w 17 5) (fld w 12 5)) else .error .nonzeroField
  | 19 => if fld w 17 5 = 0 ∧ fld w 7 5 = 0 then .ok (.clrtag (fld w 29 3) (fld w 12 5)) else .error .nonzeroField
  | 24 => if fld w 17 5 = 0 then .ok (.mreq (fld w 29 3) (fld w 12 5) (fld w 7 5)) else .error .nonzeroField
  | 25 => if fld w 17 5 = 0 then .ok (.mbind (fld w 29 3) (fld w 12 5) (fld w 7 5)) else .error .nonzeroField
  | _ => .error .reservedFunction

/-- OP 0x40, group FP (R38). -/
def decodeFP (w : Word32) : Except DecodeError Instr :=
  match (fld w 0 7).toNat with
  | 0 | 1 => .ok (.fadd (fld w 29 3) (fld w 17 5) (fld w 12 5) (fld w 7 5) (fld w 0 1))
  | 2 | 3 => .ok (.fsub (fld w 29 3) (fld w 17 5) (fld w 12 5) (fld w 7 5) (fld w 0 1))
  | 4 | 5 => .ok (.fmul (fld w 29 3) (fld w 17 5) (fld w 12 5) (fld w 7 5) (fld w 0 1))
  | 6 | 7 => .ok (.fdiv (fld w 29 3) (fld w 17 5) (fld w 12 5) (fld w 7 5) (fld w 0 1))
  | 8 | 9 => if fld w 7 5 = 0 then .ok (.fsqrt (fld w 29 3) (fld w 17 5) (fld w 12 5) (fld w 0 1)) else .error .nonzeroField
  | 10 | 11 => .ok (.fmin (fld w 29 3) (fld w 17 5) (fld w 12 5) (fld w 7 5) (fld w 0 1))
  | 12 | 13 => .ok (.fmax (fld w 29 3) (fld w 17 5) (fld w 12 5) (fld w 7 5) (fld w 0 1))
  | 14 | 15 => .ok (.fsgncpy (fld w 29 3) (fld w 17 5) (fld w 12 5) (fld w 7 5) (fld w 0 1))
  | 16 | 17 => .ok (.fsgnneg (fld w 29 3) (fld w 17 5) (fld w 12 5) (fld w 7 5) (fld w 0 1))
  | 18 | 19 => .ok (.fsgnxor (fld w 29 3) (fld w 17 5) (fld w 12 5) (fld w 7 5) (fld w 0 1))
  | 20 | 21 => .ok (.feq (fld w 29 3) (fld w 17 5) (fld w 12 5) (fld w 7 5) (fld w 0 1))
  | 22 | 23 => .ok (.flt (fld w 29 3) (fld w 17 5) (fld w 12 5) (fld w 7 5) (fld w 0 1))
  | 24 | 25 => .ok (.fle (fld w 29 3) (fld w 17 5) (fld w 12 5) (fld w 7 5) (fld w 0 1))
  | 26 | 27 => if fld w 7 5 = 0 then .ok (.fclass (fld w 29 3) (fld w 17 5) (fld w 12 5) (fld w 0 1)) else .error .nonzeroField
  | 28 => .ok (.fcvt (fld w 29 3) (fld w 17 5) (fld w 12 5) (fld w 7 5))
  | 30 | 31 => if fld w 7 5 = 0 then .ok (.fmvg (fld w 29 3) (fld w 17 5) (fld w 12 5) (fld w 0 1)) else .error .nonzeroField
  | 32 | 33 => if fld w 7 5 = 0 then .ok (.fmvf (fld w 29 3) (fld w 17 5) (fld w 12 5) (fld w 0 1)) else .error .nonzeroField
  | _ => .error .reservedFunction

/-- OP 0x41, group FMA.S (R38). -/
def decodeFMA_S (w : Word32) : Except DecodeError Instr :=
  match (fld w 0 2).toNat with
  | 0 => .ok (.fmaS (fld w 29 3) (fld w 17 5) (fld w 12 5) (fld w 7 5) (fld w 2 5))
  | 1 => .ok (.fmsS (fld w 29 3) (fld w 17 5) (fld w 12 5) (fld w 7 5) (fld w 2 5))
  | 2 => .ok (.fnmaS (fld w 29 3) (fld w 17 5) (fld w 12 5) (fld w 7 5) (fld w 2 5))
  | 3 => .ok (.fnmsS (fld w 29 3) (fld w 17 5) (fld w 12 5) (fld w 7 5) (fld w 2 5))
  | _ => .error .reservedFunction

/-- OP 0x42, group FMA.D (R38). -/
def decodeFMA_D (w : Word32) : Except DecodeError Instr :=
  match (fld w 0 2).toNat with
  | 0 => .ok (.fmaD (fld w 29 3) (fld w 17 5) (fld w 12 5) (fld w 7 5) (fld w 2 5))
  | 1 => .ok (.fmsD (fld w 29 3) (fld w 17 5) (fld w 12 5) (fld w 7 5) (fld w 2 5))
  | 2 => .ok (.fnmaD (fld w 29 3) (fld w 17 5) (fld w 12 5) (fld w 7 5) (fld w 2 5))
  | 3 => .ok (.fnmsD (fld w 29 3) (fld w 17 5) (fld w 12 5) (fld w 7 5) (fld w 2 5))
  | _ => .error .reservedFunction

/-- OP 0x50, group VARITH (R38). -/
def decodeVARITH (w : Word32) : Except DecodeError Instr :=
  match (fld w 0 4).toNat with
  | 0 => .ok (.vadd (fld w 29 3) (fld w 17 5) (fld w 12 5) (fld w 7 5) (fld w 4 3))
  | 1 => .ok (.vsub (fld w 29 3) (fld w 17 5) (fld w 12 5) (fld w 7 5) (fld w 4 3))
  | 2 => .ok (.vmul (fld w 29 3) (fld w 17 5) (fld w 12 5) (fld w 7 5) (fld w 4 3))
  | 3 => .ok (.vmulh (fld w 29 3) (fld w 17 5) (fld w 12 5) (fld w 7 5) (fld w 4 3))
  | 4 => .ok (.vmin (fld w 29 3) (fld w 17 5) (fld w 12 5) (fld w 7 5) (fld w 4 3))
  | 5 => .ok (.vmax (fld w 29 3) (fld w 17 5) (fld w 12 5) (fld w 7 5) (fld w 4 3))
  | 6 => .ok (.vand (fld w 29 3) (fld w 17 5) (fld w 12 5) (fld w 7 5) (fld w 4 3))
  | 7 => .ok (.vor (fld w 29 3) (fld w 17 5) (fld w 12 5) (fld w 7 5) (fld w 4 3))
  | 8 => .ok (.vxor (fld w 29 3) (fld w 17 5) (fld w 12 5) (fld w 7 5) (fld w 4 3))
  | 9 => .ok (.vandn (fld w 29 3) (fld w 17 5) (fld w 12 5) (fld w 7 5) (fld w 4 3))
  | 10 => .ok (.vsll (fld w 29 3) (fld w 17 5) (fld w 12 5) (fld w 7 5) (fld w 4 3))
  | 11 => .ok (.vsrl (fld w 29 3) (fld w 17 5) (fld w 12 5) (fld w 7 5) (fld w 4 3))
  | 12 => .ok (.vsra (fld w 29 3) (fld w 17 5) (fld w 12 5) (fld w 7 5) (fld w 4 3))
  | 13 => .ok (.vmac (fld w 29 3) (fld w 17 5) (fld w 12 5) (fld w 7 5) (fld w 4 3))
  | 14 => .ok (.vadds (fld w 29 3) (fld w 17 5) (fld w 12 5) (fld w 7 5) (fld w 4 3))
  | 15 => .ok (.vsubs (fld w 29 3) (fld w 17 5) (fld w 12 5) (fld w 7 5) (fld w 4 3))
  | _ => .error .reservedFunction

/-- OP 0x51, group VUNARY (R38). -/
def decodeVUNARY (w : Word32) : Except DecodeError Instr :=
  match (fld w 0 4).toNat with
  | 0 => if fld w 7 5 = 0 then .ok (.vabs (fld w 29 3) (fld w 17 5) (fld w 12 5) (fld w 4 3)) else .error .nonzeroField
  | 1 => if fld w 7 5 = 0 then .ok (.vneg (fld w 29 3) (fld w 17 5) (fld w 12 5) (fld w 4 3)) else .error .nonzeroField
  | 2 => .ok (.vdiv (fld w 29 3) (fld w 17 5) (fld w 12 5) (fld w 7 5) (fld w 4 3))
  | 3 => .ok (.vsel (fld w 29 3) (fld w 17 5) (fld w 12 5) (fld w 7 5) (fld w 4 3))
  | _ => .error .reservedFunction

/-- OP 0x52, group VCMP (R38). -/
def decodeVCMP (w : Word32) : Except DecodeError Instr :=
  match (fld w 0 4).toNat with
  | 0 | 1 | 2 | 3 => if fld w 20 2 = 0 then .ok (.vcmp (fld w 29 3) (fld w 17 3) (fld w 12 5) (fld w 7 5) (fld w 4 3) (fld w 0 2)) else .error .nonzeroField
  | _ => .error .reservedFunction

/-- OP 0x53, group VREDSCAN (R38). -/
def decodeVREDSCAN (w : Word32) : Except DecodeError Instr :=
  match (fld w 0 4).toNat with
  | 0 => if fld w 7 5 = 0 then .ok (.vredAdd (fld w 29 3) (fld w 17 5) (fld w 12 5) (fld w 4 3)) else .error .nonzeroField
  | 1 => if fld w 7 5 = 0 then .ok (.vredMax (fld w 29 3) (fld w 17 5) (fld w 12 5) (fld w 4 3)) else .error .nonzeroField
  | 2 => if fld w 7 5 = 0 then .ok (.vredMin (fld w 29 3) (fld w 17 5) (fld w 12 5) (fld w 4 3)) else .error .nonzeroField
  | 4 => if fld w 11 1 = 0 then .ok (.vscanAddI (fld w 29 3) (fld w 17 5) (fld w 12 5) (fld w 10 1) (fld w 7 3) (fld w 4 3)) else .error .nonzeroField
  | 5 => if fld w 11 1 = 0 then .ok (.vscanMaxI (fld w 29 3) (fld w 17 5) (fld w 12 5) (fld w 10 1) (fld w 7 3) (fld w 4 3)) else .error .nonzeroField
  | 6 => if fld w 11 1 = 0 then .ok (.vscanMinI (fld w 29 3) (fld w 17 5) (fld w 12 5) (fld w 10 1) (fld w 7 3) (fld w 4 3)) else .error .nonzeroField
  | 8 => if fld w 11 1 = 0 then .ok (.vscanAddE (fld w 29 3) (fld w 17 5) (fld w 12 5) (fld w 10 1) (fld w 7 3) (fld w 4 3)) else .error .nonzeroField
  | 9 => if fld w 11 1 = 0 then .ok (.vscanMaxE (fld w 29 3) (fld w 17 5) (fld w 12 5) (fld w 10 1) (fld w 7 3) (fld w 4 3)) else .error .nonzeroField
  | 10 => if fld w 11 1 = 0 then .ok (.vscanMinE (fld w 29 3) (fld w 17 5) (fld w 12 5) (fld w 10 1) (fld w 7 3) (fld w 4 3)) else .error .nonzeroField
  | _ => .error .reservedFunction

/-- OP 0x54, group VPERM (R38). -/
def decodeVPERM (w : Word32) : Except DecodeError Instr :=
  match (fld w 0 4).toNat with
  | 0 => .ok (.vperm (fld w 29 3) (fld w 17 5) (fld w 12 5) (fld w 7 5) (fld w 4 3))
  | 1 => .ok (.vslideup (fld w 29 3) (fld w 17 5) (fld w 12 5) (fld w 7 5) (fld w 4 3))
  | 2 => .ok (.vslidedn (fld w 29 3) (fld w 17 5) (fld w 12 5) (fld w 7 5) (fld w 4 3))
  | 3 => if fld w 7 5 = 0 then .ok (.vbcast (fld w 29 3) (fld w 17 5) (fld w 12 5) (fld w 4 3)) else .error .nonzeroField
  | 4 => .ok (.vins (fld w 29 3) (fld w 17 5) (fld w 12 5) (fld w 7 5) (fld w 4 3))
  | 5 => .ok (.vext (fld w 29 3) (fld w 17 5) (fld w 12 5) (fld w 7 5) (fld w 4 3))
  | _ => .error .reservedFunction

/-- OP 0x55, group VCVT (R38). -/
def decodeVCVT (w : Word32) : Except DecodeError Instr :=
  match (fld w 0 4).toNat with
  | 0 => if fld w 11 1 = 0 then .ok (.vcvtLo (fld w 29 3) (fld w 17 5) (fld w 12 5) (fld w 7 4) (fld w 4 3)) else .error .nonzeroField
  | 1 => if fld w 11 1 = 0 then .ok (.vcvtHi (fld w 29 3) (fld w 17 5) (fld w 12 5) (fld w 7 4) (fld w 4 3)) else .error .nonzeroField
  | _ => .error .reservedFunction

/-- OP 0x56, group VQNT (R38). -/
def decodeVQNT (w : Word32) : Except DecodeError Instr :=
  match (fld w 0 4).toNat with
  | 0 => .ok (.vquantE43 (fld w 29 3) (fld w 17 5) (fld w 12 5) (fld w 7 5) (fld w 4 3))
  | 1 => .ok (.vquantE52 (fld w 29 3) (fld w 17 5) (fld w 12 5) (fld w 7 5) (fld w 4 3))
  | 2 => .ok (.vquantS8 (fld w 29 3) (fld w 17 5) (fld w 12 5) (fld w 7 5) (fld w 4 3))
  | 4 => .ok (.vdeqE43 (fld w 29 3) (fld w 17 5) (fld w 12 5) (fld w 7 5) (fld w 4 3))
  | 5 => .ok (.vdeqE52 (fld w 29 3) (fld w 17 5) (fld w 12 5) (fld w 7 5) (fld w 4 3))
  | 6 => .ok (.vdeqS8 (fld w 29 3) (fld w 17 5) (fld w 12 5) (fld w 7 5) (fld w 4 3))
  | 8 => if fld w 19 3 = 0 ∧ fld w 7 5 = 0 then .ok (.vamax (fld w 29 3) (fld w 17 2) (fld w 12 5) (fld w 4 3)) else .error .nonzeroField
  | 9 => if fld w 14 3 = 0 ∧ fld w 11 1 = 0 ∧ fld w 4 3 = 0 then .ok (.scld (fld w 29 3) (fld w 17 5) (fld w 12 2) (fld w 7 4)) else .error .nonzeroField
  | _ => .error .reservedFunction

/-- OP 0x57, group VSFU (R38). -/
def decodeVSFU (w : Word32) : Except DecodeError Instr :=
  match (fld w 0 4).toNat with
  | 0 => if fld w 7 5 = 0 then .ok (.vrcp (fld w 29 3) (fld w 17 5) (fld w 12 5) (fld w 4 3)) else .error .nonzeroField
  | 1 => if fld w 7 5 = 0 then .ok (.vrsqrt (fld w 29 3) (fld w 17 5) (fld w 12 5) (fld w 4 3)) else .error .nonzeroField
  | 2 => if fld w 7 5 = 0 then .ok (.vexp2 (fld w 29 3) (fld w 17 5) (fld w 12 5) (fld w 4 3)) else .error .nonzeroField
  | 3 => if fld w 7 5 = 0 then .ok (.vlog2 (fld w 29 3) (fld w 17 5) (fld w 12 5) (fld w 4 3)) else .error .nonzeroField
  | 4 => if fld w 7 5 = 0 then .ok (.vsqrt (fld w 29 3) (fld w 17 5) (fld w 12 5) (fld w 4 3)) else .error .nonzeroField
  | _ => .error .reservedFunction

/-- OP 0x5a, group VMEMX (R38). -/
def decodeVMEMX (w : Word32) : Except DecodeError Instr :=
  match (fld w 0 4).toNat with
  | 0 => .ok (.vlds (fld w 29 3) (fld w 17 5) (fld w 12 5) (fld w 7 5) (fld w 4 3))
  | 1 => .ok (.vsts (fld w 29 3) (fld w 17 5) (fld w 12 5) (fld w 7 5) (fld w 4 3))
  | 2 => .ok (.vgath (fld w 29 3) (fld w 17 5) (fld w 12 5) (fld w 7 5) (fld w 4 3))
  | 3 => .ok (.vscat (fld w 29 3) (fld w 17 5) (fld w 12 5) (fld w 7 5) (fld w 4 3))
  | 4 => if fld w 7 5 = 0 then .ok (.vldb (fld w 29 3) (fld w 17 5) (fld w 12 5) (fld w 4 3)) else .error .nonzeroField
  | _ => .error .reservedFunction

/-- OP 0x5b, group MASK (R38). -/
noncomputable def decodeMASK (w : Word32) : Except DecodeError Instr :=
  match (fld w 0 4).toNat with
  | 0 => if fld w 20 2 = 0 ∧ fld w 15 2 = 0 ∧ fld w 10 2 = 0 ∧ fld w 4 3 = 0 then .ok (.kand (fld w 29 3) (fld w 17 3) (fld w 12 3) (fld w 7 3)) else .error .nonzeroField
  | 1 => if fld w 20 2 = 0 ∧ fld w 15 2 = 0 ∧ fld w 10 2 = 0 ∧ fld w 4 3 = 0 then .ok (.kor (fld w 29 3) (fld w 17 3) (fld w 12 3) (fld w 7 3)) else .error .nonzeroField
  | 2 => if fld w 20 2 = 0 ∧ fld w 15 2 = 0 ∧ fld w 10 2 = 0 ∧ fld w 4 3 = 0 then .ok (.kxor (fld w 29 3) (fld w 17 3) (fld w 12 3) (fld w 7 3)) else .error .nonzeroField
  | 3 => if fld w 20 2 = 0 ∧ fld w 15 2 = 0 ∧ fld w 10 2 = 0 ∧ fld w 4 3 = 0 then .ok (.kandn (fld w 29 3) (fld w 17 3) (fld w 12 3) (fld w 7 3)) else .error .nonzeroField
  | 4 => if fld w 20 2 = 0 ∧ fld w 15 2 = 0 ∧ fld w 4 8 = 0 then .ok (.knot (fld w 29 3) (fld w 17 3) (fld w 12 3)) else .error .nonzeroField
  | 5 => if fld w 15 2 = 0 ∧ fld w 4 8 = 0 then .ok (.kpop (fld w 29 3) (fld w 17 5) (fld w 12 3)) else .error .nonzeroField
  | 6 => if fld w 15 2 = 0 ∧ fld w 4 8 = 0 then .ok (.kffs (fld w 29 3) (fld w 17 5) (fld w 12 3)) else .error .nonzeroField
  | 7 => if fld w 20 2 = 0 ∧ fld w 4 8 = 0 then .ok (.ksetn (fld w 29 3) (fld w 17 3) (fld w 12 5)) else .error .nonzeroField
  | 8 => if fld w 15 2 = 0 ∧ fld w 4 8 = 0 then .ok (.kmovg (fld w 29 3) (fld w 17 5) (fld w 12 3)) else .error .nonzeroField
  | 9 => if fld w 20 2 = 0 ∧ fld w 4 8 = 0 then .ok (.kmovk (fld w 29 3) (fld w 17 3) (fld w 12 5)) else .error .nonzeroField
  | _ => .error .reservedFunction

/-- OP 0x68, group MCTL (R38). -/
noncomputable def decodeMCTL (w : Word32) : Except DecodeError Instr :=
  match (fld w 0 7).toNat with
  | 0 => if fld w 7 15 = 0 then .ok (.mlease (fld w 29 3)) else .error .nonzeroField
  | 1 => if fld w 7 10 = 0 then .ok (.mleaseB (fld w 29 3) (fld w 17 5)) else .error .nonzeroField
  | 2 => if fld w 7 15 = 0 then .ok (.mrel (fld w 29 3)) else .error .nonzeroField
  | 3 => if fld w 19 3 = 0 ∧ fld w 7 10 = 0 then .ok (.mzero (fld w 29 3) (fld w 17 2)) else .error .nonzeroField
  | 4 => if fld w 19 3 = 0 then .ok (.mdrain (fld w 29 3) (fld w 17 2) (fld w 12 5) (fld w 7 5)) else .error .nonzeroField
  | 5 => if fld w 20 2 = 0 ∧ fld w 14 3 = 0 ∧ fld w 11 1 = 0 then .ok (.maccget (fld w 29 3) (fld w 17 3) (fld w 12 2) (fld w 7 4)) else .error .nonzeroField
  | 6 => if fld w 19 3 = 0 ∧ fld w 15 2 = 0 ∧ fld w 11 1 = 0 then .ok (.maccput (fld w 29 3) (fld w 17 2) (fld w 12 3) (fld w 7 4)) else .error .nonzeroField
  | 8 => if fld w 15 7 = 0 ∧ fld w 7 5 = 0 then .ok (.rpop (fld w 29 3) (fld w 12 3)) else .error .nonzeroField
  | 9 => if fld w 15 2 = 0 ∧ fld w 7 5 = 0 then .ok (.rstat (fld w 29 3) (fld w 17 5) (fld w 12 3)) else .error .nonzeroField
  | _ => .error .reservedFunction

/-- OP 0x69, group MREG (R38). -/
noncomputable def decodeMREG (w : Word32) : Except DecodeError Instr :=
  match (fld w 0 7).toNat with
  | 0 => if fld w 20 2 = 0 then .ok (.mrowset (fld w 29 3) (fld w 17 3) (fld w 12 5) (fld w 7 5)) else .error .nonzeroField
  | 1 => if fld w 15 2 = 0 then .ok (.mrowget (fld w 29 3) (fld w 17 5) (fld w 12 3) (fld w 7 5)) else .error .nonzeroField
  | 2 => if fld w 20 2 = 0 then .ok (.mcolset (fld w 29 3) (fld w 17 3) (fld w 12 5) (fld w 7 5)) else .error .nonzeroField
  | 3 => if fld w 15 2 = 0 then .ok (.mcolget (fld w 29 3) (fld w 17 5) (fld w 12 3) (fld w 7 5)) else .error .nonzeroField
  | 4 => if fld w 20 2 = 0 ∧ fld w 7 5 = 0 then .ok (.mldm (fld w 29 3) (fld w 17 3) (fld w 12 5)) else .error .nonzeroField
  | 5 => if fld w 20 2 = 0 ∧ fld w 7 5 = 0 then .ok (.mstm (fld w 29 3) (fld w 17 3) (fld w 12 5)) else .error .nonzeroField
  | _ => .error .reservedFunction

/-- The instruction a word stands for by its opcode and function code alone; `w2` is the word after it, which only
the long form reads (R22, R38, R49). -/
noncomputable def decodeFields (w w2 : Word32) : Except DecodeError Instr :=
  match (fld w 22 7).toNat with
  | 0x01 => decodeINT w
  | 0x02 => decodeINTW w
  | 0x03 => decodeMULDIV w
  | 0x04 => .ok (.addi (fld w 29 3) (fld w 17 5) (fld w 12 5) (fld w 0 12))
  | 0x05 => .ok (.andi (fld w 29 3) (fld w 17 5) (fld w 12 5) (fld w 0 12))
  | 0x06 => .ok (.ori (fld w 29 3) (fld w 17 5) (fld w 12 5) (fld w 0 12))
  | 0x07 => .ok (.xori (fld w 29 3) (fld w 17 5) (fld w 12 5) (fld w 0 12))
  | 0x08 => .ok (.slti (fld w 29 3) (fld w 17 5) (fld w 12 5) (fld w 0 12))
  | 0x09 => .ok (.sltiu (fld w 29 3) (fld w 17 5) (fld w 12 5) (fld w 0 12))
  | 0x0a => decodeSHIFTI w
  | 0x0b => .ok (.addiw (fld w 29 3) (fld w 17 5) (fld w 12 5) (fld w 0 12))
  | 0x0c => .ok (.lui (fld w 29 3) (fld w 17 5) (fld w 0 17))
  | 0x0d => .ok (.auipc (fld w 29 3) (fld w 17 5) (fld w 0 17))
  | 0x10 => .ok (.beq (fld w 29 3) (fld w 17 5) (fld w 12 5) (fld w 0 12))
  | 0x11 => .ok (.bne (fld w 29 3) (fld w 17 5) (fld w 12 5) (fld w 0 12))
  | 0x12 => .ok (.blt (fld w 29 3) (fld w 17 5) (fld w 12 5) (fld w 0 12))
  | 0x13 => .ok (.bge (fld w 29 3) (fld w 17 5) (fld w 12 5) (fld w 0 12))
  | 0x14 => .ok (.bltu (fld w 29 3) (fld w 17 5) (fld w 12 5) (fld w 0 12))
  | 0x15 => .ok (.bgeu (fld w 29 3) (fld w 17 5) (fld w 12 5) (fld w 0 12))
  | 0x16 => .ok (.jal (fld w 29 3) (fld w 17 5) (fld w 0 17))
  | 0x17 => .ok (.jalr (fld w 29 3) (fld w 17 5) (fld w 12 5) (fld w 0 12))
  | 0x18 => .ok (.ldb (fld w 29 3) (fld w 17 5) (fld w 12 5) (fld w 0 12))
  | 0x19 => .ok (.ldh (fld w 29 3) (fld w 17 5) (fld w 12 5) (fld w 0 12))
  | 0x1a => .ok (.ldw (fld w 29 3) (fld w 17 5) (fld w 12 5) (fld w 0 12))
  | 0x1b => .ok (.ldd (fld w 29 3) (fld w 17 5) (fld w 12 5) (fld w 0 12))
  | 0x1c => .ok (.ldbz (fld w 29 3) (fld w 17 5) (fld w 12 5) (fld w 0 12))
  | 0x1d => .ok (.ldhz (fld w 29 3) (fld w 17 5) (fld w 12 5) (fld w 0 12))
  | 0x1e => .ok (.ldwz (fld w 29 3) (fld w 17 5) (fld w 12 5) (fld w 0 12))
  | 0x20 => .ok (.stb (fld w 29 3) (fld w 17 5) (fld w 12 5) (fld w 0 12))
  | 0x21 => .ok (.sth (fld w 29 3) (fld w 17 5) (fld w 12 5) (fld w 0 12))
  | 0x22 => .ok (.stw (fld w 29 3) (fld w 17 5) (fld w 12 5) (fld w 0 12))
  | 0x23 => .ok (.std (fld w 29 3) (fld w 17 5) (fld w 12 5) (fld w 0 12))
  | 0x24 => .ok (.fldw (fld w 29 3) (fld w 17 5) (fld w 12 5) (fld w 0 12))
  | 0x25 => .ok (.fldd (fld w 29 3) (fld w 17 5) (fld w 12 5) (fld w 0 12))
  | 0x26 => .ok (.fstw (fld w 29 3) (fld w 17 5) (fld w 12 5) (fld w 0 12))
  | 0x27 => .ok (.fstd (fld w 29 3) (fld w 17 5) (fld w 12 5) (fld w 0 12))
  | 0x28 => decodeORDERED w
  | 0x29 => decodeFEMEM w
  | 0x2a => decodeATOMIC w
  | 0x2b => decodeACCUM w
  | 0x30 => .ok (.csrrw (fld w 29 3) (fld w 17 5) (fld w 12 5) (fld w 0 12))
  | 0x31 => .ok (.csrrs (fld w 29 3) (fld w 17 5) (fld w 12 5) (fld w 0 12))
  | 0x32 => .ok (.csrrc (fld w 29 3) (fld w 17 5) (fld w 12 5) (fld w 0 12))
  | 0x33 => .ok (.csrrwi (fld w 29 3) (fld w 17 5) (fld w 12 5) (fld w 0 12))
  | 0x34 => .ok (.csrrsi (fld w 29 3) (fld w 17 5) (fld w 12 5) (fld w 0 12))
  | 0x35 => .ok (.csrrci (fld w 29 3) (fld w 17 5) (fld w 12 5) (fld w 0 12))
  | 0x36 => decodeSYSTEM w
  | 0x37 => if fld w 6 16 = 0 then .ok (.fence (fld w 29 3) (fld w 3 3) (fld w 0 3)) else .error .nonzeroField
  | 0x38 => decodeMSG w
  | 0x39 => decodeSYNC w
  | 0x3a => decodeENGINE w
  | 0x40 => decodeFP w
  | 0x41 => decodeFMA_S w
  | 0x42 => decodeFMA_D w
  | 0x50 => decodeVARITH w
  | 0x51 => decodeVUNARY w
  | 0x52 => decodeVCMP w
  | 0x53 => decodeVREDSCAN w
  | 0x54 => decodeVPERM w
  | 0x55 => decodeVCVT w
  | 0x56 => decodeVQNT w
  | 0x57 => decodeVSFU w
  | 0x58 => .ok (.vld (fld w 29 3) (fld w 17 5) (fld w 12 5) (fld w 9 3) (fld w 0 9))
  | 0x59 => .ok (.vst (fld w 29 3) (fld w 17 5) (fld w 12 5) (fld w 9 3) (fld w 0 9))
  | 0x5a => decodeVMEMX w
  | 0x5b => decodeMASK w
  | 0x5c => if fld w 4 8 = 0 then .ok (.vsett (fld w 29 3) (fld w 17 5) (fld w 12 5) (fld w 0 4)) else .error .nonzeroField
  | 0x60 => if fld w 9 5 = 0 ∧ fld w 0 8 = 0 then .ok (.mmaBf (fld w 29 3) (fld w 20 2) (fld w 17 3) (fld w 14 3) (fld w 8 1)) else .error .nonzeroField
  | 0x61 => if fld w 9 5 = 0 ∧ fld w 0 8 = 0 then .ok (.mmaHf (fld w 29 3) (fld w 20 2) (fld w 17 3) (fld w 14 3) (fld w 8 1)) else .error .nonzeroField
  | 0x62 => if fld w 0 8 = 0 then .ok (.mmaE44 (fld w 29 3) (fld w 20 2) (fld w 17 3) (fld w 14 3) (fld w 9 5) (fld w 8 1)) else .error .nonzeroField
  | 0x63 => if fld w 0 8 = 0 then .ok (.mmaE45 (fld w 29 3) (fld w 20 2) (fld w 17 3) (fld w 14 3) (fld w 9 5) (fld w 8 1)) else .error .nonzeroField
  | 0x64 => if fld w 0 8 = 0 then .ok (.mmaE55 (fld w 29 3) (fld w 20 2) (fld w 17 3) (fld w 14 3) (fld w 9 5) (fld w 8 1)) else .error .nonzeroField
  | 0x65 => if fld w 9 5 = 0 ∧ fld w 0 8 = 0 then .ok (.mmaI8 (fld w 29 3) (fld w 20 2) (fld w 17 3) (fld w 14 3) (fld w 8 1)) else .error .nonzeroField
  | 0x66 => if fld w 0 8 = 0 then .ok (.mmaNb (fld w 29 3) (fld w 20 2) (fld w 17 3) (fld w 14 3) (fld w 9 5) (fld w 8 1)) else .error .nonzeroField
  | 0x67 => if fld w 0 8 = 0 then .ok (.mmaNe (fld w 29 3) (fld w 20 2) (fld w 17 3) (fld w 14 3) (fld w 9 5) (fld w 8 1)) else .error .nonzeroField
  | 0x68 => decodeMCTL w
  | 0x69 => decodeMREG w
  | 0x7f => if fld w 0 17 = 0 then .ok (.liw (fld w 29 3) (fld w 17 5) w2) else .error .reservedFunction
  | _ => .error .unassignedOpcode

/-- The decoder: fields first, then the values that R51 reserves. -/
noncomputable def decode (w w2 : Word32) : Except DecodeError Instr :=
  match decodeFields w w2 with
  | .error e => .error e
  | .ok i =>
    match i.illFormed with
    | some why => .error (.illFormed why)
    | none => .ok i

/-- The first word of an instruction (R23, R38-R49); a row without an encoding has none, written 0. -/
def encode (i : Instr) : Word32 :=
  match i with
  | .add sc d a b => pack sc 0x01#7 (d ++ a ++ b ++ 0#7)
  | .sub sc d a b => pack sc 0x01#7 (d ++ a ++ b ++ 1#7)
  | .and sc d a b => pack sc 0x01#7 (d ++ a ++ b ++ 2#7)
  | .or sc d a b => pack sc 0x01#7 (d ++ a ++ b ++ 3#7)
  | .xor sc d a b => pack sc 0x01#7 (d ++ a ++ b ++ 4#7)
  | .andn sc d a b => pack sc 0x01#7 (d ++ a ++ b ++ 5#7)
  | .orn sc d a b => pack sc 0x01#7 (d ++ a ++ b ++ 6#7)
  | .sll sc d a b => pack sc 0x01#7 (d ++ a ++ b ++ 8#7)
  | .srl sc d a b => pack sc 0x01#7 (d ++ a ++ b ++ 9#7)
  | .sra sc d a b => pack sc 0x01#7 (d ++ a ++ b ++ 10#7)
  | .rol sc d a b => pack sc 0x01#7 (d ++ a ++ b ++ 11#7)
  | .ror sc d a b => pack sc 0x01#7 (d ++ a ++ b ++ 12#7)
  | .slt sc d a b => pack sc 0x01#7 (d ++ a ++ b ++ 16#7)
  | .sltu sc d a b => pack sc 0x01#7 (d ++ a ++ b ++ 17#7)
  | .seq sc d a b => pack sc 0x01#7 (d ++ a ++ b ++ 18#7)
  | .sne sc d a b => pack sc 0x01#7 (d ++ a ++ b ++ 19#7)
  | .min sc d a b => pack sc 0x01#7 (d ++ a ++ b ++ 20#7)
  | .max sc d a b => pack sc 0x01#7 (d ++ a ++ b ++ 21#7)
  | .minu sc d a b => pack sc 0x01#7 (d ++ a ++ b ++ 22#7)
  | .maxu sc d a b => pack sc 0x01#7 (d ++ a ++ b ++ 23#7)
  | .clz sc d a => pack sc 0x01#7 (d ++ a ++ 24#12)
  | .ctz sc d a => pack sc 0x01#7 (d ++ a ++ 25#12)
  | .popc sc d a => pack sc 0x01#7 (d ++ a ++ 26#12)
  | .brev sc d a => pack sc 0x01#7 (d ++ a ++ 27#12)
  | .sextb sc d a => pack sc 0x01#7 (d ++ a ++ 28#12)
  | .sexth sc d a => pack sc 0x01#7 (d ++ a ++ 29#12)
  | .sextw sc d a => pack sc 0x01#7 (d ++ a ++ 30#12)
  | .zextw sc d a => pack sc 0x01#7 (d ++ a ++ 31#12)
  | .addsh sc d a b h => pack sc 0x01#7 (d ++ a ++ b ++ 8#5 ++ h)
  | .addw sc d a b => pack sc 0x02#7 (d ++ a ++ b ++ 0#7)
  | .subw sc d a b => pack sc 0x02#7 (d ++ a ++ b ++ 1#7)
  | .sllw sc d a b => pack sc 0x02#7 (d ++ a ++ b ++ 8#7)
  | .srlw sc d a b => pack sc 0x02#7 (d ++ a ++ b ++ 9#7)
  | .sraw sc d a b => pack sc 0x02#7 (d ++ a ++ b ++ 10#7)
  | .rolw sc d a b => pack sc 0x02#7 (d ++ a ++ b ++ 11#7)
  | .rorw sc d a b => pack sc 0x02#7 (d ++ a ++ b ++ 12#7)
  | .mul sc d a b => pack sc 0x03#7 (d ++ a ++ b ++ 0#7)
  | .mulhs sc d a b => pack sc 0x03#7 (d ++ a ++ b ++ 1#7)
  | .mulhz sc d a b => pack sc 0x03#7 (d ++ a ++ b ++ 2#7)
  | .mulhsz sc d a b => pack sc 0x03#7 (d ++ a ++ b ++ 3#7)
  | .div sc d a b => pack sc 0x03#7 (d ++ a ++ b ++ 4#7)
  | .divu sc d a b => pack sc 0x03#7 (d ++ a ++ b ++ 5#7)
  | .rem sc d a b => pack sc 0x03#7 (d ++ a ++ b ++ 6#7)
  | .remu sc d a b => pack sc 0x03#7 (d ++ a ++ b ++ 7#7)
  | .mulw sc d a b => pack sc 0x03#7 (d ++ a ++ b ++ 8#7)
  | .divw sc d a b => pack sc 0x03#7 (d ++ a ++ b ++ 12#7)
  | .divuw sc d a b => pack sc 0x03#7 (d ++ a ++ b ++ 13#7)
  | .remw sc d a b => pack sc 0x03#7 (d ++ a ++ b ++ 14#7)
  | .remuw sc d a b => pack sc 0x03#7 (d ++ a ++ b ++ 15#7)
  | .addi sc d a i => pack sc 0x04#7 (d ++ a ++ i)
  | .andi sc d a i => pack sc 0x05#7 (d ++ a ++ i)
  | .ori sc d a i => pack sc 0x06#7 (d ++ a ++ i)
  | .xori sc d a i => pack sc 0x07#7 (d ++ a ++ i)
  | .slti sc d a i => pack sc 0x08#7 (d ++ a ++ i)
  | .sltiu sc d a i => pack sc 0x09#7 (d ++ a ++ i)
  | .addiw sc d a i => pack sc 0x0b#7 (d ++ a ++ i)
  | .slli sc d a h => pack sc 0x0a#7 (d ++ a ++ 0#6 ++ h)
  | .srli sc d a h => pack sc 0x0a#7 (d ++ a ++ 1#6 ++ h)
  | .srai sc d a h => pack sc 0x0a#7 (d ++ a ++ 2#6 ++ h)
  | .rori sc d a h => pack sc 0x0a#7 (d ++ a ++ 3#6 ++ h)
  | .slliw sc d a h => pack sc 0x0a#7 (d ++ a ++ 8#7 ++ h)
  | .srliw sc d a h => pack sc 0x0a#7 (d ++ a ++ 10#7 ++ h)
  | .sraiw sc d a h => pack sc 0x0a#7 (d ++ a ++ 12#7 ++ h)
  | .roriw sc d a h => pack sc 0x0a#7 (d ++ a ++ 14#7 ++ h)
  | .lui sc d i => pack sc 0x0c#7 (d ++ i)
  | .auipc sc d i => pack sc 0x0d#7 (d ++ i)
  | .beq sc a b o => pack sc 0x10#7 (a ++ b ++ o)
  | .bne sc a b o => pack sc 0x11#7 (a ++ b ++ o)
  | .blt sc a b o => pack sc 0x12#7 (a ++ b ++ o)
  | .bge sc a b o => pack sc 0x13#7 (a ++ b ++ o)
  | .bltu sc a b o => pack sc 0x14#7 (a ++ b ++ o)
  | .bgeu sc a b o => pack sc 0x15#7 (a ++ b ++ o)
  | .jal sc d o => pack sc 0x16#7 (d ++ o)
  | .jalr sc d a i => pack sc 0x17#7 (d ++ a ++ i)
  | .ldb sc d a i => pack sc 0x18#7 (d ++ a ++ i)
  | .ldh sc d a i => pack sc 0x19#7 (d ++ a ++ i)
  | .ldw sc d a i => pack sc 0x1a#7 (d ++ a ++ i)
  | .ldd sc d a i => pack sc 0x1b#7 (d ++ a ++ i)
  | .ldbz sc d a i => pack sc 0x1c#7 (d ++ a ++ i)
  | .ldhz sc d a i => pack sc 0x1d#7 (d ++ a ++ i)
  | .ldwz sc d a i => pack sc 0x1e#7 (d ++ a ++ i)
  | .stb sc t a i => pack sc 0x20#7 (t ++ a ++ i)
  | .sth sc t a i => pack sc 0x21#7 (t ++ a ++ i)
  | .stw sc t a i => pack sc 0x22#7 (t ++ a ++ i)
  | .std sc t a i => pack sc 0x23#7 (t ++ a ++ i)
  | .fldw sc d a i => pack sc 0x24#7 (d ++ a ++ i)
  | .fldd sc d a i => pack sc 0x25#7 (d ++ a ++ i)
  | .fstw sc t a i => pack sc 0x26#7 (t ++ a ++ i)
  | .fstd sc t a i => pack sc 0x27#7 (t ++ a ++ i)
  | .ldAcq sc d a e z => pack sc 0x28#7 (d ++ a ++ 0#7 ++ e ++ z)
  | .stRel sc a b e z => pack sc 0x28#7 (0#5 ++ a ++ b ++ 1#2 ++ e ++ z)
  | .setfull sc a => pack sc 0x29#7 (0#5 ++ a ++ 0#12)
  | .setempty sc a => pack sc 0x29#7 (0#5 ++ a ++ 1#12)
  | .ldtake sc d a => pack sc 0x29#7 (d ++ a ++ 2#12)
  | .stfill sc a b => pack sc 0x29#7 (0#5 ++ a ++ b ++ 3#7)
  | .festat sc d a => pack sc 0x29#7 (d ++ a ++ 4#12)
  | .amoadd sc d a b w => pack sc 0x2a#7 (d ++ a ++ b ++ 0#3 ++ w ++ 0#3)
  | .amomin sc d a b w => pack sc 0x2a#7 (d ++ a ++ b ++ 0#3 ++ w ++ 1#3)
  | .amomax sc d a b w => pack sc 0x2a#7 (d ++ a ++ b ++ 0#3 ++ w ++ 2#3)
  | .amoand sc d a b w => pack sc 0x2a#7 (d ++ a ++ b ++ 0#3 ++ w ++ 3#3)
  | .amoor sc d a b w => pack sc 0x2a#7 (d ++ a ++ b ++ 0#3 ++ w ++ 4#3)
  | .amoxor sc d a b w => pack sc 0x2a#7 (d ++ a ++ b ++ 0#3 ++ w ++ 5#3)
  | .amoswap sc d a b w => pack sc 0x2a#7 (d ++ a ++ b ++ 0#3 ++ w ++ 6#3)
  | .amocas sc d a b w => pack sc 0x2a#7 (d ++ a ++ b ++ 0#3 ++ w ++ 7#3)
  | .accF32 sc a b => pack sc 0x2b#7 (0#5 ++ a ++ b ++ 0#7)
  | .accBf sc a b => pack sc 0x2b#7 (0#5 ++ a ++ b ++ 1#7)
  | .accS32 sc a b => pack sc 0x2b#7 (0#5 ++ a ++ b ++ 2#7)
  | .accS64 sc a b => pack sc 0x2b#7 (0#5 ++ a ++ b ++ 3#7)
  | .flushres sc => pack sc 0x2b#7 (16#22)
  | .tailstat sc d a => pack sc 0x2b#7 (d ++ a ++ 17#12)
  | .csrrw sc d a c => pack sc 0x30#7 (d ++ a ++ c)
  | .csrrs sc d a c => pack sc 0x31#7 (d ++ a ++ c)
  | .csrrc sc d a c => pack sc 0x32#7 (d ++ a ++ c)
  | .csrrwi sc d i c => pack sc 0x33#7 (d ++ i ++ c)
  | .csrrsi sc d i c => pack sc 0x34#7 (d ++ i ++ c)
  | .csrrci sc d i c => pack sc 0x35#7 (d ++ i ++ c)
  | .ecall sc => pack sc 0x36#7 (0#22)
  | .ebreak sc => pack sc 0x36#7 (1#22)
  | .uret sc => pack sc 0x36#7 (2#22)
  | .kret sc => pack sc 0x36#7 (3#22)
  | .fret sc => pack sc 0x36#7 (4#22)
  | .wfi sc => pack sc 0x36#7 (5#22)
  | .fenceI sc => pack sc 0x36#7 (6#22)
  | .tlbinv sc a b => pack sc 0x36#7 (0#5 ++ a ++ b ++ 8#7)
  | .savept sc => pack sc 0x36#7 (9#22)
  | .ckpt sc => pack sc 0x36#7 (10#22)
  | .tstamp sc d => pack sc 0x36#7 (d ++ 11#17)
  | .fence sc k e => pack sc 0x37#7 (0#16 ++ k ++ e)
  | .send sc d a b r u p => pack sc 0x38#7 (d ++ a ++ b ++ 0#4 ++ r ++ u ++ p)
  | .spawn sc a b => pack sc 0x38#7 (0#5 ++ a ++ b ++ 8#7)
  | .tend sc => pack sc 0x38#7 (16#22)
  | .tendX sc => pack sc 0x38#7 (17#22)
  | .tyield sc => pack sc 0x38#7 (18#22)
  | .msgpeek sc d a => pack sc 0x38#7 (d ++ a ++ 24#12)
  | .barinit sc a b => pack sc 0x39#7 (0#5 ++ a ++ b ++ 0#7)
  | .barjoin sc a => pack sc 0x39#7 (0#5 ++ a ++ 1#12)
  | .bararrive sc a => pack sc 0x39#7 (0#5 ++ a ++ 2#12)
  | .barwait sc a => pack sc 0x39#7 (0#5 ++ a ++ 3#12)
  | .bardrop sc a => pack sc 0x39#7 (0#5 ++ a ++ 4#12)
  | .lwatch sc a => pack sc 0x39#7 (0#5 ++ a ++ 8#12)
  | .lwait sc d a => pack sc 0x39#7 (d ++ a ++ 9#12)
  | .cntadd sc a b => pack sc 0x39#7 (0#5 ++ a ++ b ++ 16#7)
  | .cntwait sc a b => pack sc 0x39#7 (0#5 ++ a ++ b ++ 17#7)
  | .cntread sc d a => pack sc 0x39#7 (d ++ a ++ 18#12)
  | .cancel sc a => pack sc 0x39#7 (0#5 ++ a ++ 24#12)
  | .submit sc a => pack sc 0x3a#7 (0#5 ++ a ++ 0#12)
  | .submitB sc d a => pack sc 0x3a#7 (d ++ a ++ 1#12)
  | .tmap sc a i => pack sc 0x3a#7 (0#5 ++ a ++ i ++ 8#7)
  | .waitany sc d a => pack sc 0x3a#7 (d ++ a ++ 16#12)
  | .waitall sc a => pack sc 0x3a#7 (0#5 ++ a ++ 17#12)
  | .fftag sc d a => pack sc 0x3a#7 (d ++ a ++ 18#12)
  | .clrtag sc a => pack sc 0x3a#7 (0#5 ++ a ++ 19#12)
  | .mreq sc a b => pack sc 0x3a#7 (0#5 ++ a ++ b ++ 24#7)
  | .mbind sc a b => pack sc 0x3a#7 (0#5 ++ a ++ b ++ 25#7)
  | .fadd sc d a b p => pack sc 0x40#7 (d ++ a ++ b ++ 0#6 ++ p)
  | .fsub sc d a b p => pack sc 0x40#7 (d ++ a ++ b ++ 1#6 ++ p)
  | .fmul sc d a b p => pack sc 0x40#7 (d ++ a ++ b ++ 2#6 ++ p)
  | .fdiv sc d a b p => pack sc 0x40#7 (d ++ a ++ b ++ 3#6 ++ p)
  | .fsqrt sc d a p => pack sc 0x40#7 (d ++ a ++ 4#11 ++ p)
  | .fmin sc d a b p => pack sc 0x40#7 (d ++ a ++ b ++ 5#6 ++ p)
  | .fmax sc d a b p => pack sc 0x40#7 (d ++ a ++ b ++ 6#6 ++ p)
  | .fsgncpy sc d a b p => pack sc 0x40#7 (d ++ a ++ b ++ 7#6 ++ p)
  | .fsgnneg sc d a b p => pack sc 0x40#7 (d ++ a ++ b ++ 8#6 ++ p)
  | .fsgnxor sc d a b p => pack sc 0x40#7 (d ++ a ++ b ++ 9#6 ++ p)
  | .feq sc d a b p => pack sc 0x40#7 (d ++ a ++ b ++ 10#6 ++ p)
  | .flt sc d a b p => pack sc 0x40#7 (d ++ a ++ b ++ 11#6 ++ p)
  | .fle sc d a b p => pack sc 0x40#7 (d ++ a ++ b ++ 12#6 ++ p)
  | .fclass sc d a p => pack sc 0x40#7 (d ++ a ++ 13#11 ++ p)
  | .fcvt sc d a c => pack sc 0x40#7 (d ++ a ++ c ++ 28#7)
  | .fmvg sc d a p => pack sc 0x40#7 (d ++ a ++ 15#11 ++ p)
  | .fmvf sc d a p => pack sc 0x40#7 (d ++ a ++ 16#11 ++ p)
  | .fmaS sc d a b c => pack sc 0x41#7 (d ++ a ++ b ++ c ++ 0#2)
  | .fmsS sc d a b c => pack sc 0x41#7 (d ++ a ++ b ++ c ++ 1#2)
  | .fnmaS sc d a b c => pack sc 0x41#7 (d ++ a ++ b ++ c ++ 2#2)
  | .fnmsS sc d a b c => pack sc 0x41#7 (d ++ a ++ b ++ c ++ 3#2)
  | .fmaD sc d a b c => pack sc 0x42#7 (d ++ a ++ b ++ c ++ 0#2)
  | .fmsD sc d a b c => pack sc 0x42#7 (d ++ a ++ b ++ c ++ 1#2)
  | .fnmaD sc d a b c => pack sc 0x42#7 (d ++ a ++ b ++ c ++ 2#2)
  | .fnmsD sc d a b c => pack sc 0x42#7 (d ++ a ++ b ++ c ++ 3#2)
  | .vadd sc d a b k => pack sc 0x50#7 (d ++ a ++ b ++ k ++ 0#4)
  | .vsub sc d a b k => pack sc 0x50#7 (d ++ a ++ b ++ k ++ 1#4)
  | .vmul sc d a b k => pack sc 0x50#7 (d ++ a ++ b ++ k ++ 2#4)
  | .vmulh sc d a b k => pack sc 0x50#7 (d ++ a ++ b ++ k ++ 3#4)
  | .vmin sc d a b k => pack sc 0x50#7 (d ++ a ++ b ++ k ++ 4#4)
  | .vmax sc d a b k => pack sc 0x50#7 (d ++ a ++ b ++ k ++ 5#4)
  | .vand sc d a b k => pack sc 0x50#7 (d ++ a ++ b ++ k ++ 6#4)
  | .vor sc d a b k => pack sc 0x50#7 (d ++ a ++ b ++ k ++ 7#4)
  | .vxor sc d a b k => pack sc 0x50#7 (d ++ a ++ b ++ k ++ 8#4)
  | .vandn sc d a b k => pack sc 0x50#7 (d ++ a ++ b ++ k ++ 9#4)
  | .vsll sc d a b k => pack sc 0x50#7 (d ++ a ++ b ++ k ++ 10#4)
  | .vsrl sc d a b k => pack sc 0x50#7 (d ++ a ++ b ++ k ++ 11#4)
  | .vsra sc d a b k => pack sc 0x50#7 (d ++ a ++ b ++ k ++ 12#4)
  | .vmac sc d a b k => pack sc 0x50#7 (d ++ a ++ b ++ k ++ 13#4)
  | .vadds sc d a b k => pack sc 0x50#7 (d ++ a ++ b ++ k ++ 14#4)
  | .vsubs sc d a b k => pack sc 0x50#7 (d ++ a ++ b ++ k ++ 15#4)
  | .vabs sc d a k => pack sc 0x51#7 (d ++ a ++ 0#5 ++ k ++ 0#4)
  | .vneg sc d a k => pack sc 0x51#7 (d ++ a ++ 0#5 ++ k ++ 1#4)
  | .vdiv sc d a b k => pack sc 0x51#7 (d ++ a ++ b ++ k ++ 2#4)
  | .vsel sc d a b k => pack sc 0x51#7 (d ++ a ++ b ++ k ++ 3#4)
  | .vcmp sc d a b k c => pack sc 0x52#7 (0#2 ++ d ++ a ++ b ++ k ++ 0#2 ++ c)
  | .vredAdd sc d a k => pack sc 0x53#7 (d ++ a ++ 0#5 ++ k ++ 0#4)
  | .vredMax sc d a k => pack sc 0x53#7 (d ++ a ++ 0#5 ++ k ++ 1#4)
  | .vredMin sc d a k => pack sc 0x53#7 (d ++ a ++ 0#5 ++ k ++ 2#4)
  | .vscanAddI sc d a g h k => pack sc 0x53#7 (d ++ a ++ 0#1 ++ g ++ h ++ k ++ 4#4)
  | .vscanMaxI sc d a g h k => pack sc 0x53#7 (d ++ a ++ 0#1 ++ g ++ h ++ k ++ 5#4)
  | .vscanMinI sc d a g h k => pack sc 0x53#7 (d ++ a ++ 0#1 ++ g ++ h ++ k ++ 6#4)
  | .vscanAddE sc d a g h k => pack sc 0x53#7 (d ++ a ++ 0#1 ++ g ++ h ++ k ++ 8#4)
  | .vscanMaxE sc d a g h k => pack sc 0x53#7 (d ++ a ++ 0#1 ++ g ++ h ++ k ++ 9#4)
  | .vscanMinE sc d a g h k => pack sc 0x53#7 (d ++ a ++ 0#1 ++ g ++ h ++ k ++ 10#4)
  | .vperm sc d a b k => pack sc 0x54#7 (d ++ a ++ b ++ k ++ 0#4)
  | .vslideup sc d a b k => pack sc 0x54#7 (d ++ a ++ b ++ k ++ 1#4)
  | .vslidedn sc d a b k => pack sc 0x54#7 (d ++ a ++ b ++ k ++ 2#4)
  | .vbcast sc d a k => pack sc 0x54#7 (d ++ a ++ 0#5 ++ k ++ 3#4)
  | .vins sc d a b k => pack sc 0x54#7 (d ++ a ++ b ++ k ++ 4#4)
  | .vext sc d a b k => pack sc 0x54#7 (d ++ a ++ b ++ k ++ 5#4)
  | .vcvtLo sc d a t k => pack sc 0x55#7 (d ++ a ++ 0#1 ++ t ++ k ++ 0#4)
  | .vcvtHi sc d a t k => pack sc 0x55#7 (d ++ a ++ 0#1 ++ t ++ k ++ 1#4)
  | .vquantE43 sc d a b k => pack sc 0x56#7 (d ++ a ++ b ++ k ++ 0#4)
  | .vquantE52 sc d a b k => pack sc 0x56#7 (d ++ a ++ b ++ k ++ 1#4)
  | .vquantS8 sc d a b k => pack sc 0x56#7 (d ++ a ++ b ++ k ++ 2#4)
  | .vdeqE43 sc d a b k => pack sc 0x56#7 (d ++ a ++ b ++ k ++ 4#4)
  | .vdeqE52 sc d a b k => pack sc 0x56#7 (d ++ a ++ b ++ k ++ 5#4)
  | .vdeqS8 sc d a b k => pack sc 0x56#7 (d ++ a ++ b ++ k ++ 6#4)
  | .vamax sc h a k => pack sc 0x56#7 (0#3 ++ h ++ a ++ 0#5 ++ k ++ 8#4)
  | .scld sc d h t => pack sc 0x56#7 (d ++ 0#3 ++ h ++ 0#1 ++ t ++ 9#7)
  | .vrcp sc d a k => pack sc 0x57#7 (d ++ a ++ 0#5 ++ k ++ 0#4)
  | .vrsqrt sc d a k => pack sc 0x57#7 (d ++ a ++ 0#5 ++ k ++ 1#4)
  | .vexp2 sc d a k => pack sc 0x57#7 (d ++ a ++ 0#5 ++ k ++ 2#4)
  | .vlog2 sc d a k => pack sc 0x57#7 (d ++ a ++ 0#5 ++ k ++ 3#4)
  | .vsqrt sc d a k => pack sc 0x57#7 (d ++ a ++ 0#5 ++ k ++ 4#4)
  | .vld sc d a k o => pack sc 0x58#7 (d ++ a ++ k ++ o)
  | .vst sc d a k o => pack sc 0x59#7 (d ++ a ++ k ++ o)
  | .vlds sc d a b k => pack sc 0x5a#7 (d ++ a ++ b ++ k ++ 0#4)
  | .vsts sc d a b k => pack sc 0x5a#7 (d ++ a ++ b ++ k ++ 1#4)
  | .vgath sc d a b k => pack sc 0x5a#7 (d ++ a ++ b ++ k ++ 2#4)
  | .vscat sc d a b k => pack sc 0x5a#7 (d ++ a ++ b ++ k ++ 3#4)
  | .vldb sc d a k => pack sc 0x5a#7 (d ++ a ++ 0#5 ++ k ++ 4#4)
  | .kand sc d a b => pack sc 0x5b#7 (0#2 ++ d ++ 0#2 ++ a ++ 0#2 ++ b ++ 0#7)
  | .kor sc d a b => pack sc 0x5b#7 (0#2 ++ d ++ 0#2 ++ a ++ 0#2 ++ b ++ 1#7)
  | .kxor sc d a b => pack sc 0x5b#7 (0#2 ++ d ++ 0#2 ++ a ++ 0#2 ++ b ++ 2#7)
  | .kandn sc d a b => pack sc 0x5b#7 (0#2 ++ d ++ 0#2 ++ a ++ 0#2 ++ b ++ 3#7)
  | .knot sc d a => pack sc 0x5b#7 (0#2 ++ d ++ 0#2 ++ a ++ 4#12)
  | .kpop sc d a => pack sc 0x5b#7 (d ++ 0#2 ++ a ++ 5#12)
  | .kffs sc d a => pack sc 0x5b#7 (d ++ 0#2 ++ a ++ 6#12)
  | .ksetn sc d a => pack sc 0x5b#7 (0#2 ++ d ++ a ++ 7#12)
  | .kmovg sc d a => pack sc 0x5b#7 (d ++ 0#2 ++ a ++ 8#12)
  | .kmovk sc d a => pack sc 0x5b#7 (0#2 ++ d ++ a ++ 9#12)
  | .vsett sc d a t => pack sc 0x5c#7 (d ++ a ++ 0#8 ++ t)
  | .mmaBf sc n r q z => pack sc 0x60#7 (n ++ r ++ q ++ 0#5 ++ z ++ 0#8)
  | .mmaHf sc n r q z => pack sc 0x61#7 (n ++ r ++ q ++ 0#5 ++ z ++ 0#8)
  | .mmaE44 sc n r q f z => pack sc 0x62#7 (n ++ r ++ q ++ f ++ z ++ 0#8)
  | .mmaE45 sc n r q f z => pack sc 0x63#7 (n ++ r ++ q ++ f ++ z ++ 0#8)
  | .mmaE55 sc n r q f z => pack sc 0x64#7 (n ++ r ++ q ++ f ++ z ++ 0#8)
  | .mmaI8 sc n r q z => pack sc 0x65#7 (n ++ r ++ q ++ 0#5 ++ z ++ 0#8)
  | .mmaNb sc n r q f z => pack sc 0x66#7 (n ++ r ++ q ++ f ++ z ++ 0#8)
  | .mmaNe sc n r q f z => pack sc 0x67#7 (n ++ r ++ q ++ f ++ z ++ 0#8)
  | .mlease sc => pack sc 0x68#7 (0#22)
  | .mleaseB sc d => pack sc 0x68#7 (d ++ 1#17)
  | .mrel sc => pack sc 0x68#7 (2#22)
  | .mzero sc n => pack sc 0x68#7 (0#3 ++ n ++ 3#17)
  | .mdrain sc n a b => pack sc 0x68#7 (0#3 ++ n ++ a ++ b ++ 4#7)
  | .maccget sc m n c => pack sc 0x68#7 (0#2 ++ m ++ 0#3 ++ n ++ 0#1 ++ c ++ 5#7)
  | .maccput sc n m c => pack sc 0x68#7 (0#3 ++ n ++ 0#2 ++ m ++ 0#1 ++ c ++ 6#7)
  | .rpop sc r => pack sc 0x68#7 (0#7 ++ r ++ 8#12)
  | .rstat sc d r => pack sc 0x68#7 (d ++ 0#2 ++ r ++ 9#12)
  | .mrowset sc m a b => pack sc 0x69#7 (0#2 ++ m ++ a ++ b ++ 0#7)
  | .mrowget sc d m b => pack sc 0x69#7 (d ++ 0#2 ++ m ++ b ++ 1#7)
  | .mcolset sc m a b => pack sc 0x69#7 (0#2 ++ m ++ a ++ b ++ 2#7)
  | .mcolget sc d m b => pack sc 0x69#7 (d ++ 0#2 ++ m ++ b ++ 3#7)
  | .mldm sc m a => pack sc 0x69#7 (0#2 ++ m ++ a ++ 4#12)
  | .mstm sc m a => pack sc 0x69#7 (0#2 ++ m ++ a ++ 5#12)
  | .liw sc d _ => pack sc 0x7f#7 (d ++ 0#17)
  | .reservedEncoding w => w
  | .panelReset _ _ => 0
  | .mwbell _ => 0
  | .bar2Access _ _ _ => 0
  | .nonceWrite _ => 0
  | .launch => 0
  | .launchInject _ _ => 0
  | .cancelMessage => 0
  | .mgmtAssignCounter => 0
  | .mgmtFreeCounter => 0
  | .mgmtExtentUnmapped => 0
  | .mgmtUnmarkExecutable => 0
  | .mgmtDefineTenant => 0
  | .mgmtRemoveTenant => 0
  | .routeset _ => 0
  | .timerset _ => 0
  | .timerDeadline _ => 0
  | .parkctlRegister _ => 0
  | .parkctlResume _ => 0
  | .parkctlDiscard _ => 0
  | .faultRecord _ => 0
  | .cxlExtentOffer _ _ _ _ => 0
  | .cxlExtentReleaseRequest _ _ => 0
  | .imageLoad _ => 0
  | .panelHalt => 0
  | .panelResume => 0
  | .dispatch _ => 0
  | .messageArrival _ => 0
  | .bounceReturn _ => 0
  | .sendRetry _ _ => 0
  | .sendAcceptance _ => 0
  | .spawnAnswer _ => 0
  | .counterUpdate _ => 0
  | .counterUpdateAck _ => 0
  | .loadLevel _ => 0
  | .accDeliveryArrival _ => 0
  | .accApply _ => 0
  | .accBounce _ => 0
  | .accOutcome _ => 0
  | .quotaWindow _ => 0
  | .switchAddend _ => 0
  | .switchDeliver _ => 0
  | .switchResend _ => 0
  | .cardAdmit _ => 0
  | .cardStart _ _ => 0
  | .cardLineAccess _ _ _ => 0
  | .cardComplete _ _ => 0
  | .ringfeedEntry _ _ => 0
  | .mreqLineLand _ _ _ => 0
  | .mmaStart _ => 0
  | .mmaRetire _ => 0
  | .screenVerdict _ => 0
  | .arrayCommandStart _ => 0
  | .arrayCommandRetire _ => 0
  | .ringCommandTurn _ _ => 0
  | .mdrainCopy _ => 0
  | .mdrainRowWrite _ _ _ => 0
  | .mdrainWake _ _ => 0
  | .slotBoundary _ => 0
  | .leaseGrant _ => 0
  | .feLoadRetry _ _ _ => 0
  | .feTimeout _ _ => 0
  | .sramScrub _ _ => 0
  | .homeLineRequest _ _ _ => 0
  | .accessAnswer _ _ => 0
  | .hbmBatchForm _ _ => 0
  | .refreshManagement _ _ _ _ => 0
  | .patrolRead _ _ _ => 0
  | .pageWalk _ _ _ => 0
  | .barrierOpApply _ => 0
  | .watchRegister _ _ => 0
  | .watchEvict _ _ => 0
  | .lwaitTimeout _ => 0
  | .trapEntry _ => 0
  | .interruptEntry _ => 0
  | .parkDump _ => 0
  | .ecallKService _ => 0
  | .frameReload _ => 0
  | .laneGroupGrant _ => 0
  | .sfuEntryStart _ => 0
  | .sfuResult _ => 0
  | .sfuReentry _ => 0
  | .rotationStart _ => 0
  | .rotationDrain _ => 0
  | .rotationPause _ => 0
  | .rotationAbandon _ => 0
  | .selfTestEnd _ _ _ => 0
  | .tileWakeDone _ _ => 0
  | .ckptInterval _ => 0
  | .logForcedCkpt _ => 0
  | .moonForcedCkpt _ => 0
  | .ckptCommit _ => 0
  | .outOfTurnResend _ => 0
  | .voidMarker _ => 0
  | .egressRelease _ => 0
  | .blockCheck _ => 0
  | .rollback _ => 0
  | .replayResume _ => 0
  | .replayLogEvent _ => 0
  | .ageStressTick _ _ _ _ => 0
  | .regulatorPhaseFail _ _ => 0
  | .flashRewrite => 0
  | .budgetTick _ _ => 0
  | .equotaRenew _ => 0
  | .droopTrip _ => 0
  | .droopStretchEnd _ => 0
  | .droopHalveEnd _ => 0
  | .shelfFrame _ => 0
  | .shedLimitUpdate _ => 0
  | .shedHoldTimeout _ => 0
  | .shedRestore _ => 0
  | .shelfFallback => 0
  | .clockLoss _ _ => 0
  | .hubFailover _ => 0
  | .reroot _ => 0
  | .rootFailover => 0
  | .clockLock _ _ => 0
  | .linkCrcRetry _ _ => 0
  | .samplePulse _ => 0
  | .dbgctlResume _ => 0
  | .dbgctlHaltreq _ => 0
  | .csrWrite _ _ _ => 0
  | .mshapeWrite _ _ => 0
  | .slottabWrite _ _ => 0
  | .leasenWrite _ _ => 0
  | .msaveClaim _ _ => 0
  | .msaveInval _ _ => 0
  | .ringcfgWrite _ _ _ => 0
  | .hrdataWrite _ _ => 0
  | .fetchdutyWrite _ _ => 0
  | .tracectlWrite _ _ => 0
  | .vmapRotate _ => 0
  | .vmapMarkRetire _ => 0
  | .diaginjAccBit _ _ _ _ _ _ => 0
  | .diaginjSramBit _ _ _ _ => 0
  | .diaginjSignature _ _ _ => 0
  | .resultWritten _ => 0

/-- The second word of the long form (R49), 0 for every other instruction. -/
def encodeSecond (i : Instr) : Word32 :=
  match i with
  | .liw _ _ imm => imm
  | _ => 0

/-- The bytes an instruction occupies: 8 for the long form, 4 otherwise (R22). -/
def instrBytes (i : Instr) : Nat :=
  match i with
  | .liw _ _ _ => 8
  | _ => 4

/-- The four bytes of a word in memory order (R3, R22). -/
def wordBytes (w : Word32) : List Byte :=
  [fldByte w 0, fldByte w 8, fldByte w 16, fldByte w 24]
where
  fldByte (w : Word32) (lo : Nat) : Byte := w.extractLsb' lo 8

/-- The instruction word that four bytes in memory order hold (R3). -/
def bytesWord (b : List Byte) : Word32 :=
  match b with
  | b0 :: b1 :: b2 :: b3 :: _ => b3 ++ b2 ++ b1 ++ b0
  | _ => 0

/-- The instruction read from eight bytes at the program counter. -/
noncomputable def decodeBytes (b : List Byte) : Except DecodeError Instr :=
  decode (bytesWord b) (bytesWord (b.drop 4))

/-- What the decoder reads from an instruction of `nbits` bits `w`, numbered as the opcode table numbers them: the
first word is bits 31..0, the second bits 63..32; bits above `nbits` are 0. -/
noncomputable def decodeTableWord (nbits w : Nat) : Option Instr :=
  let n := w % 2 ^ nbits
  let bytes := wordBytes (BitVec.ofNat 32 n) ++ wordBytes (BitVec.ofNat 32 (n / 2 ^ 32))
  match decodeBytes bytes with
  | .ok i => some i
  | .error _ => none

end Sys2Proof
end

