-- ==== Sys2Proof/Machine/State.lean ====
section
/-! DEFINITION. The state of the panel as plain data (INVENTORY.md, section State), the reasons a step can stop, and the
state right after reset. A panel has thousands of like agents, most of them still as reset left them, so their states
stand in sparse maps; an agent that no entry names is in its reset state. -/

namespace Sys2Proof.Machine

/-- A sparse table: keys with their values, in ascending key order. -/
abbrev Map (α : Type) := List (Nat × α)

/-! ### Harts -/

/-- Execution modes (R286). -/
inductive Mode where
  | user
  | kernel
  | firmware
  deriving DecidableEq, Repr, Inhabited

/-- Trap causes (R287). -/
inductive Cause where
  | fetchFault | illegal | priv | brk | ecallU | ecallK | misalign | loadPf | storePf | fetchPf | memError
  | stallViol | sendqFull | undeliverable | tenantViol | matrixUnavail | mregUnconfig | ringFault | leaseFault
  | tmapFault | lwatchFull | barrierFull | feTimeout | inlineFault | sigMismatch | screenFail | watch
  deriving DecidableEq, Repr, Inhabited

/-- A register a result can go to; `g 0` discards (R30-R34). -/
inductive Reg where
  | g (d : BitVec 5)
  | f (d : BitVec 5)
  | v (d : BitVec 5)
  | k (d : BitVec 3)
  | m (d : BitVec 3)
  deriving DecidableEq, Repr, Inhabited

/-- The g, f, v and k registers of a hart (R30-R33). -/
structure Regs where
  g : Vector Word 32
  f : Vector Word 32
  v : Vector VReg 32
  k : Vector Word 8
  deriving DecidableEq, Repr

/-- A fixed-latency result in flight (R25): `left` units of encoded distance until a consumer may read it, `old` what
the register held before it (R27), `written` once the unit has delivered it. -/
structure FixedResult where
  dst : Reg
  val : Word
  old : Word
  left : Nat
  written : Bool
  deriving DecidableEq, Repr

/-- A scoreboarded result in flight (R28): the value the register will hold. -/
structure BoardResult where
  dst : Reg
  val : VReg
  seq : Nat
  deriving DecidableEq, Repr

/-- A message: header and payload dwords (R231, R238). -/
structure Msg where
  header : Word
  payload : List Word
  deriving DecidableEq, Repr, Inhabited

/-- An occupied channel slot: the message, whether the running task holds it (R231), and the load-levelling interval in
which it last moved (R251). -/
structure Slot where
  msg : Msg
  running : Bool
  moved : Option Nat
  deriving DecidableEq, Repr, Inhabited

/-- The task a hart runs: the channel whose slot it holds, and the word count of an inline task (R234, R235). -/
structure Task where
  chan : Nat
  inlineWords : Option Nat
  deriving DecidableEq, Repr, Inhabited

/-- Where a send-queue entry stands (R240, R241, R249). -/
inductive SendState where
  /-- Waiting for the counter's acknowledgement (R249) or for its turn to leave. -/
  | queued
  /-- In the egress hold or on its way; its answer has not come. -/
  | sent
  /-- Refused; sent again from this cycle on (R241). -/
  | bounced (retryAt : Nat)
  /-- Kept for the wake of an MDRAIN (R203). -/
  | reserved
  deriving DecidableEq, Repr, Inhabited

/-- An entry of the send queue (R240). -/
structure SendEntry where
  id : Nat
  dest : Word
  msg : Msg
  acked : Bool
  state : SendState
  refusals : Nat
  /-- Its number in the refusable stream, once released (R318). -/
  seq : Option Nat
  /-- A SPAWN's message (R242). -/
  spawn : Bool
  /-- The wake of an MDRAIN (R203). -/
  wake : Bool := false
  deriving DecidableEq, Repr, Inhabited

/-- The spawn latch (R242, R296), with the refusals' retry time when inline depth 255 forces another send. -/
structure SpawnLatch where
  armed : Bool
  answered : Bool
  accepted : Bool
  retryAt : Nat
  /-- The SPAWN that armed it, and the send-queue entry of its message. -/
  pc : Word := 0
  entry : Nat := 0
  deriving DecidableEq, Repr, Inhabited

/-- A barrier record of a hart (R265, R296): word, J, AR, in use and phase. -/
structure BarrierRecord where
  word : BitVec 17
  joined : Bool
  arrived : Bool
  inUse : Bool
  phase : BitVec 16
  deriving DecidableEq, Repr, Inhabited

/-- The home of a location (R88, R104, R105). -/
inductive Home where
  | slice (vt : Nat)
  | hbm (die : Nat)
  | cxl (port : Nat)
  | panel (number : Nat)
  deriving DecidableEq, Repr, Inhabited

/-- A location: its home, its byte offset there, and the key of its first byte in the memory list. -/
structure Place where
  home : Home
  off : Nat
  key : Nat
  deriving DecidableEq, Repr, Inhabited

/-- Who sends or receives an item (R246, R318, R361, R396). -/
inductive Node where
  | tile (vt : Nat)
  | dieSup (die : Nat)
  | panelSup
  | ioDie (n : Nat)
  | switch
  /-- A port of a Vilore switch, which has streams of its own (R230). -/
  | port (n : Nat)
  | host
  deriving DecidableEq, Repr, Inhabited

/-- What a load or atomic does with its data when it completes. -/
inductive LoadDst where
  /-- g[D], the low `n` bytes sign- or zero-extended (R153, R155). -/
  | g (d : BitVec 5) (n : Nat) (signed : Bool)
  /-- f[D], `n` bytes with ones above (R154). -/
  | f (d : BitVec 5) (n : Nat)
  /-- v[D], lanes of `w` bytes written where the mask says (R184-R186). -/
  | v (d : BitVec 5) (w : Nat) (mask : Word)
  /-- VLDB: one element of `w` bytes copied into every lane the mask selects (R187). -/
  | bcast (d : BitVec 5) (w : Nat) (mask : Word)
  /-- MLDM: the rows of m register `m` (R208). -/
  | m (m : BitVec 3) (rowBytes : Nat)
  /-- TMAP: the descriptor for a map entry (R125). -/
  | tmap (index : BitVec 5) (addr : Word)
  /-- SEND.P: the payload of a message to be sent (R240); `d` receives the busy flag under .b. -/
  | payload (busy : Option (BitVec 5)) (dest header : Word)
  /-- A FENCE that lets younger reads issue while it waits, by its scope (R257, R263): it reads nothing. -/
  | fence (scope : Nat)
  deriving DecidableEq, Repr, Inhabited

/-- What an access does at its home: a plain read, LDTAKE, FESTAT, or an AMO (R138, R215). -/
inductive HomeOp where
  | load
  | take
  | festat
  | amo (op : BitVec 3) (dword : Bool) (operand compare : Word)
  deriving DecidableEq, Repr, Inhabited

/-- How far one part of an access has come. -/
inductive PartStatus where
  /-- On its way to the home, or in this tile's egress hold for an AMO (R319). -/
  | sent
  /-- In the home's line-wait list (R135). -/
  | waiting
  /-- Performed; the data answer is held at the answering tile's gate (R319). -/
  | held (data : List Byte)
  /-- Answered with data. -/
  | done (data : List Byte)
  /-- The line was uncorrectable (R93). -/
  | bad
  /-- A retry reply came; the request is sent again from this cycle on (R135). -/
  | retry (at_ : Nat)
  deriving DecidableEq, Repr, Inhabited

/-- A part of an access: what one home performs at one point (R92, R252). `dst` is the byte offset of its data in the
access's data, `seq` its number in the assured stream to `via` if it carries one (R318). -/
structure Part where
  va : Word
  place : Place
  len : Nat
  dst : Nat
  status : PartStatus
  released : Bool
  seq : Option Nat
  via : Option Node := none
  /-- It came out of turn and has been returned (R318). -/
  returned : Bool := false
  deriving DecidableEq, Repr, Inhabited

/-- What the hart's registers held when an access issued, to be put back if it is abandoned or traps (R290, R291). -/
structure Snapshot where
  regs : Regs
  fixed : List FixedResult
  board : List BoardResult
  pc : Word
  instret : Nat
  deriving DecidableEq, Repr

/-- An outstanding load or atomic (R92, R215, R291): `since` is the cycle of the first empty reply (R136). -/
structure Access where
  id : Nat
  op : HomeOp
  dst : LoadDst
  parts : List Part
  seq : Nat
  since : Option Nat
  /-- The scope of an acquire (R137, R155), by its code. -/
  acquire : Option Nat
  word : Word32
  snap : Snapshot
  deriving DecidableEq, Repr

/-- What a posted write does at its home (R92, R138): bytes with holes where a mask leaves memory alone. -/
inductive PostOp where
  | store (data : List (Option Byte))
  | setFull
  | setEmpty
  | fill (data : List Byte)
  deriving DecidableEq, Repr, Inhabited

/-- A posted write not yet performed (R92, R254). -/
structure Posted where
  id : Nat
  va : Word
  place : Place
  op : PostOp
  released : Bool
  seq : Option Nat
  via : Option Node := none
  /-- The place of its instruction among the hart's. -/
  made : Nat := 0
  /-- It came out of turn and has been returned (R318). -/
  returned : Bool := false
  deriving DecidableEq, Repr, Inhabited

/-- A trap the hart must take at its next boundary although no instruction of its own raises it there: the faults of
outstanding accesses (R93, R136) and UNDELIVERABLE (R241). -/
structure PendingTrap where
  cause : Cause
  tval : Word
  /-- The access it belongs to, whose snapshot names the trapping instruction. -/
  access : Option Nat
  deriving DecidableEq, Repr, Inhabited

/-- A withdrawn or queued SFU operation (R182, R183, R296): function, type, mask register, destination, captured
source and mask. `seq` orders it among the hart's instructions. -/
structure SfuEntry where
  id : Nat
  hart : Nat
  fn : BitVec 4
  type : BitVec 4
  k : BitVec 3
  vd : BitVec 5
  source : VReg
  mask : Word
  seq : Nat
  /-- Its result is thrown away when it comes (R291). -/
  discard : Bool
  deriving DecidableEq, Repr, Inhabited

/-- Why and how a hart is parked (R294). -/
structure ParkState where
  cause : BitVec 8
  tval : Word
  word : Word
  mode : Mode
  deriving DecidableEq, Repr, Inhabited

/-- The open signature block of a hart's checker (R320, R321). -/
structure OpenBlock where
  start : Word
  expected : BitVec 32
  count : Nat
  folded : Nat
  crc : BitVec 32
  /-- For each register written in the block, the index of its last writer. -/
  writers : List (Reg × Nat)
  checkId : Nat
  deriving DecidableEq, Repr

/-- A block whose last instruction has retired and whose check completes 4 cycles later (R321). -/
structure PendingCheck where
  checkId : Nat
  pass : Bool
  retired : Nat
  deriving DecidableEq, Repr

/-- The signature checker of a hart (R321, R324). -/
structure Checker where
  resync : Bool
  block : Option OpenBlock
  pending : List PendingCheck
  /-- A KIND 3 injection waits for the next check (R324). -/
  corrupt : Bool
  deriving DecidableEq, Repr

/-- A TLBINV in progress (R113): the instruction's `seq`, the first identifier of an access that it does not wait for, and
the accumulates and MREQs that it waits for. -/
structure TlbinvWait where
  seq : Nat
  since : Nat
  names : List Nat
  deriving DecidableEq, Repr

/-- The program-visible control registers of a hart (R37); the fields are as the register layouts give them. -/
structure Csrs where
  fflags : BitVec 5
  frm : BitVec 3
  vtype : BitVec 4
  tags : Word
  tagerr : Word
  mshape : Word
  instret : Nat
  tenant : BitVec 6
  launchid : BitVec 16
  hrsel : BitVec 6
  chprio : BitVec 8
  inld : BitVec 8
  replyres : Nat
  retrymax : BitVec 16
  retrygap : BitVec 32
  utvec : Word
  uepc : Word
  uh : Bool
  ucode : BitVec 8
  utval : Word
  uscratch : Word
  stallchk : Bool
  pm : BitVec 2
  sp : Bool
  pie : Bool
  ie : Bool
  ktvec : Word
  kepc : Word
  kcause : BitVec 8
  ktval : Word
  kscratch : Word
  kie : Word
  kip : BitVec 7
  udeleg : Word
  kdeleg : Word
  ptbase : Word
  iset : Word
  sigbase : Word
  savemap : Word
  pclass : BitVec 3
  equotaUsed : BitVec 32
  equotaLimit : BitVec 32
  msave : Word
  tenpermInline : Bool
  fetchduty : BitVec 5
  ckptctl : BitVec 32
  tracectl : Word
  dbgctl : Word
  bp : Vector Word 4
  wp : Vector Word 2
  /-- Supervisor harts only (R289). -/
  fTarget : BitVec 9
  fPie : Bool
  fIe : Bool
  ftvec : Word
  fepc : Word
  fcause : BitVec 8
  ftval : Word
  deriving DecidableEq, Repr

/-- The TVALs that interrupts 0x82, 0x84 and 0x85 carry while they are pending (R287). -/
structure InterruptValues where
  throttle : Word
  /-- Cycle of the pending preempt request (R295, R300). -/
  preemptAt : Nat
  shed : Word
  cancel : Word
  deriving DecidableEq, Repr

/-- A job card as SUBMIT queued it (R115, R117): the four dwords and what was captured with them. -/
structure Card where
  id : Nat
  hart : Nat
  dw : List Word
  iset : Word
  tenant : BitVec 6
  mode : Mode
  /-- The captured tensor map (R125). -/
  map : Option (List Word)
  deriving DecidableEq, Repr, Inhabited

/-- Lease states (R191). -/
inductive LeaseState where
  | none
  | req
  | held
  | spent
  deriving DecidableEq, Repr, Inhabited

/-- One hart: a tile hart, or a supervisor hart (R9, R14). -/
structure Hart where
  regs : Regs
  /-- m0-m7, sixteen rows of 64 bytes each (R34). -/
  m : Vector (Vector VReg 16) 8
  pc : Word
  mode : Mode
  csr : Csrs
  irq : InterruptValues
  task : Option Task
  lastChan : Nat
  chans : Vector (List Slot) 4
  sendq : List SendEntry
  spawn : SpawnLatch
  /-- Armed latches of SPAWNs that a SPAWN of a trap handler has put aside, the last first (R242;
  notes/assumptions/85.md). -/
  spawnOuter : List SpawnLatch
  barriers : Vector BarrierRecord 4
  fixed : List FixedResult
  board : List BoardResult
  seq : Nat
  flights : List Access
  posted : List Posted
  pendTraps : List PendingTrap
  /-- Accumulate deliveries without an outcome (R218): their packet ids. -/
  accs : List Nat
  /-- LWAIT in progress: the cycle it started (R270), and a pending spurious wake. -/
  lwaitSince : Option Nat
  /-- The tick at which it times out, none for no limit (R270). -/
  lwaitUntil : Option Nat
  lwaitSpurious : Bool
  /-- The LWAIT timeout has expired (R270). -/
  lwaitExpired : Bool
  tlbinv : Option TlbinvWait
  /-- A WFI waits (R302): the `seq` at which it does. -/
  wfi : Option Nat
  withdrawnSfu : List SfuEntry
  tagCount : Vector Nat 64
  fifo : List Card
  /-- MSTATE fields, R209. -/
  disc : Bool
  lease : LeaseState
  sat : Bool
  accDirty : Bool
  accValid : Bool
  mDirty : BitVec 8
  mValid : BitVec 8
  leaseCount : Nat
  /-- The lease ends as soon as the hart's running command has retired (R193). -/
  leaseEnding : Bool
  nextIssue : Nat
  /-- The cycle in which a dispatch first met an empty line at its handler-table entry (R136, R233). -/
  handlerSince : Option Nat
  parked : Option ParkState
  /-- In debug halt since this tick (R351). -/
  halted : Option Nat
  shedHold : Bool
  checker : Checker
  /-- Timebase deadline of the timer interrupt (R292). -/
  timer : Option Nat
  /-- Tick at which interrupt 0x83 is next due (R314). -/
  ckptDue : Nat
  /-- Issue is denied until the quota renews (R335). -/
  barred : Bool
  /-- Energy windows that have renewed for the hart (R335). -/
  window : Nat
  /-- Its instruction waits: the `seq` and PC at which it does (R355). -/
  waits : Option (Nat × Word) := none
  /-- A supervisor hart that has ended its task waits in dispatch, where no message can reach it (R234, R243;
  notes/assumptions/61.md). -/
  ended : Bool := false
  /-- Resumed from a debug halt to execute one instruction (R352). -/
  stepping : Bool := false
  deriving DecidableEq, Repr

/-! ### Tiles -/

/-- A translation held by a TLB (R107, R108, R111): tenant, first page address, page bytes, the leaf entry. -/
structure TlbEntry where
  tenant : BitVec 6
  va : Nat
  size : Nat
  entry : Word
  deriving DecidableEq, Repr, Inhabited

/-- A pointer entry held by a die's walk cache (R111): tenant, the table that holds it, and its level. -/
structure WalkEntry where
  tenant : BitVec 6
  root : Word
  va : Nat
  level : Nat
  entry : Word
  deriving DecidableEq, Repr, Inhabited

/-- A load waiting in the line-wait list of its home (R135). -/
structure LineWaiter where
  line : Nat
  hart : Nat
  access : Nat
  part : Nat
  deriving DecidableEq, Repr, Inhabited

/-- A reply-tag binding (R95). -/
structure ReplyTag where
  cls : BitVec 8
  hart : BitVec 2
  deriving DecidableEq, Repr, Inhabited

/-- An MREQ on its way (R94): issuing hart, reply-tag binding at issue, descriptor, source address and places of its
lines, the lines not yet landed, and the lowest failing line. -/
structure Mreq where
  id : Nat
  hart : Nat
  cls : BitVec 8
  dest : Nat
  desc : Word
  src : Word
  places : List Place
  pending : List Nat
  firstBad : Option Nat
  tenant : BitVec 6
  launch : BitVec 16
  since : Nat
  /-- The counter has acknowledged the completion's task (R249). -/
  acked : Bool
  /-- Lines read and not yet landed. -/
  fetched : Map (List Byte) := []
  deriving DecidableEq, Repr, Inhabited

/-- A card in the window (R119-R121): its edges, what of it is still to do, and its first failure. -/
structure WindowCard where
  card : Card
  edges : List Nat
  started : Bool
  /-- Destination lines that SE has still to mark empty. -/
  marks : List Nat
  /-- Pieces still to access, by their number within the card. -/
  pending : List Nat
  /-- Pieces whose writes, and 2^32 + line for marks, have not been performed at their homes. -/
  outgoing : List Nat
  /-- RINGFEED entries written so far. -/
  entries : Nat
  fail : Option (Cause × Word)
  admitted : Nat
  /-- Read and write footprints as they stood at admission (R120). -/
  foot : (Nat × Nat) × (Nat × Nat) := ((0, 0), (0, 0))
  /-- Source lines of pieces that are read and not yet written: each piece's bytes with what has come of them. -/
  fetched : Map (List (Option Byte)) := []
  /-- Entries of a RINGFEED that the ring's TAIL held at the checkpoint which a rollback restored (R131). -/
  fed : Nat := 0
  /-- Pieces, and 2^32 + line for marks, that had been written into the own slice at that checkpoint; the model's own
  (notes/assumptions/33.md). -/
  landed : List Nat := []
  /-- Source addresses at or above it are read no more: the card has failed to read there (R127). -/
  bound : Option Nat := none
  deriving DecidableEq, Repr, Inhabited

/-- Matrix forms (R194). -/
inductive MmaForm where
  | bf | hf | e44 | e45 | e55 | i8 | nb | ne
  deriving DecidableEq, Repr, Inhabited

/-- Commands of the array (R189). -/
inductive ArrayOp where
  | mma (form : MmaForm) (ra rb : Nat) (z : Bool) (s0 s1 : Word)
  | mzero
  | mdrain (drain : Nat)
  | maccget (m : BitVec 3) (block : BitVec 4)
  | maccput (rows : List VReg) (block : BitVec 4)
  | rpop (ring : Nat)
  | rstat (ring : Nat) (d : BitVec 5)
  deriving DecidableEq, Repr

/-- A queued array command (R189). `seq` is its place among the issuing hart's instructions. -/
structure ArrayCmd where
  id : Nat
  hart : Nat
  op : ArrayOp
  seq : Nat
  issued : Nat
  /-- It issued in U mode, so its hart is charged (R335). -/
  user : Bool
  snap : Option Snapshot
  deriving DecidableEq, Repr

/-- The command that occupies the cells: when it may retire, and for an MMA its operand entries read at start. -/
structure RunningCmd where
  cmd : ArrayCmd
  retireAt : Nat
  a : List Byte
  b : List Byte
  deriving DecidableEq, Repr

/-- One accumulator bank with its screen (R188): element (m, n) is entry 64 m + n. -/
structure Bank where
  acc : Vector Word32 4096
  chk : Vector Word32 64
  integer : Bool
  /-- A KIND 1 injection waits for the next MMA (R324): element and bit. -/
  inject : Option (Nat × Nat)
  deriving DecidableEq, Repr

/-- A verdict to come (R201): the MMA, its bank's hart, the cycle it retired, its result and the first row that failed. -/
structure Verdict where
  id : Nat
  hart : Nat
  retired : Nat
  pass : Bool
  row : Nat := 0
  deriving DecidableEq, Repr, Inhabited

/-- An MDRAIN from issue to its wake (R203). -/
structure Drain where
  id : Nat
  hart : Nat
  word : Word
  header : Word
  entry : Nat
  /-- The bank as copied into the hold. -/
  copy : Option (List Word32)
  /-- Verdicts of the bank's earlier MMAs. -/
  needs : List Nat
  released : Bool
  /-- Numbers in the stream to its destination that its half-rows still take, in the order of their writes (R318). -/
  seqs : List Nat
  /-- Half-rows not yet performed. -/
  rows : List Nat
  deriving DecidableEq, Repr

/-- Classes of accumulates (R217): f32 (bf16 addends arrive widened), s32, s64. -/
inductive AccClass where
  | f32
  | s32
  | s64
  deriving DecidableEq, Repr, Inhabited

/-- The key of an addend (R218): target, class, launch; and the page's RDW bit (R229). -/
structure AccKey where
  place : Place
  cls : AccClass
  launch : BitVec 16
  rdw : Bool
  deriving DecidableEq, Repr, Inhabited

/-- An addend on its way to its unit (R218-R222): sixteen words or eight dwords, as 512 bits. -/
structure Addend where
  id : Nat
  key : AccKey
  va : Word
  value : VReg
  flush : Bool
  srcVt : Nat
  /-- The hart whose ACC or FLUSHRES it is; none where the tail forced it out itself (R222). -/
  hart : Option Nat
  since : Nat
  deriving DecidableEq, Repr, Inhabited

/-- A tail entry (R221). -/
structure TailEntry where
  key : AccKey
  va : Word
  value : VReg
  hart : Nat
  deriving DecidableEq, Repr, Inhabited

/-- A flush delivery on its way, with the FLUSHRES hart or launch that waits for it (R222, R225, R227). -/
structure FlushWait where
  id : Nat
  launch : BitVec 16
  deriving DecidableEq, Repr, Inhabited

/-- A FLUSHRES in progress (R225): the addends of E without an outcome, then the flushes of F. -/
structure Flushing where
  hart : Nat
  /-- The instruction's place among the hart's (R291). -/
  seq : Nat
  e : List Nat
  f : Option (List Nat)
  deriving DecidableEq, Repr, Inhabited

/-- A watch (R269). -/
structure Watch where
  hart : Nat
  place : Place
  trig : Bool
  registered : Bool
  deriving DecidableEq, Repr, Inhabited

/-- A barrier entry at its home (R264). -/
structure Barrier where
  members : BitVec 16
  arr : BitVec 16
  pend : BitVec 16
  ph : BitVec 16
  deriving DecidableEq, Repr, Inhabited

/-- Barrier operations at the home (R266). -/
inductive BarrierOp where
  | init (members : BitVec 16)
  | join
  | arrive
  | drop (arrives : Bool)
  deriving DecidableEq, Repr, Inhabited

/-- What a packet carries (R246, R249, R264, R319, R384). -/
inductive PacketBody where
  /-- A message for a hart's channel; `entry` is the sender's send-queue entry, `spawn` the spawning hart. -/
  | message (dest : Word) (msg : Msg) (hart : Option Nat) (entry : Option Nat) (spawn : Bool)
  /-- A refusal on its way back (R241). -/
  | bounce (hart : Nat) (entry : Nat)
  /-- An acceptance on its way back (R240). -/
  | acceptance (hart : Nat) (entry : Nat)
  | spawnAnswer (hart entry : Nat) (accepted : Bool)
  /-- An update of a counter (R249, R272): its id, the signed change, the launch that issued it, who waits. -/
  | counterUpdate (counter : Nat) (delta : Int) (launch : BitVec 16) (hart : Option Nat) (entry : Option Nat)
      (mreq : Option Nat)
  /-- CANCEL of a counter's level (R272, R384). -/
  | cancel (counter : Nat) (launch : BitVec 16)
  | counterAck (hart : Option Nat) (entry : Option Nat) (mreq : Option Nat) (vt : Nat)
  | addend (a : Addend)
  | accBounce (a : Addend)
  /-- Outcome of a delivery: accepted or failed (R218, R224). -/
  | accOutcome (a : Addend) (failed : Bool)
  | switchAddend (a : Addend) (port : Nat)
  /-- The data answer of a slice to another tile's access, for one of its parts (R318, R319). -/
  | data (hart access part : Nat) (bytes : List Byte)
  | barrier (word : BitVec 17) (op : BarrierOp) (hart : Nat)
  /-- An item returned out of turn, waiting to be sent again (R318). -/
  | returned (body : Nat)
  /-- A void marker for a number never to be sent (R318). -/
  | void
  deriving DecidableEq, Repr

/-- Streams of a pair (R318); `none` for items that carry no number of their own. -/
inductive Stream where
  | refusable
  | assured
  deriving DecidableEq, Repr, Inhabited

/-- An item in transit (R246, R318). -/
structure Packet where
  id : Nat
  src : Node
  dst : Node
  body : PacketBody
  stream : Option Stream
  seq : Option Nat
  /-- Returned to its source out of turn; the body is sent again (R318). -/
  outOfTurn : Bool
  deriving DecidableEq, Repr

/-- What an item of the egress hold does when it is released (R319). -/
inductive HeldItem where
  | packet (p : Packet)
  /-- A posted write of a hart, or an AMO part. -/
  | post (hart id : Nat)
  | amo (hart access part : Nat)
  /-- The data answer of this tile's slice to another tile's access. -/
  | answer (hart access part : Nat)
  /-- A card's line write or full/empty change. -/
  | cardWrite (card line : Nat) (place : Place) (data : List (Option Byte)) (fe : Option Bool)
  | drain (id : Nat)
  deriving DecidableEq, Repr

/-- An item of the egress hold with the checks and verdicts it waits for (R319). -/
structure Held where
  item : HeldItem
  needs : List Nat
  bytes : Nat
  deriving DecidableEq, Repr

/-- A card line write that has left the gate and is not yet performed (R123). -/
structure CardWrite where
  card : Nat
  line : Nat
  place : Place
  data : List (Option Byte)
  fe : Option Bool
  seq : Option Nat
  via : Option Node := none
  /-- It came out of turn and has been returned (R318). -/
  returned : Bool := false
  deriving DecidableEq, Repr, Inhabited

/-- An entry of the inbound log (R315). -/
inductive LogBody where
  | placed (hart chan : Nat) (msg : Msg)
  | answer (body : PacketBody)
  | sliceWrite (off : Nat) (data : List (Option Byte)) (fe : Option Bool)
  | data (hart access part : Nat) (bytes : List Byte)
  | result (hart : Nat) (value : Word)
  | dispatch (hart chan : Nat)
  /-- A half-row that the tile's own array drained into its slice (R315). -/
  | drainRow (off : Nat) (data : List (Option Byte))
  /-- A barrier operation applied at this home (notes/assumptions/45.md). -/
  | barrierOp (word : BitVec 17) (op : BarrierOp)
  /-- The write of another tile's AMO or LDTAKE, by the part of its access (R315). -/
  | taken (hart access part off : Nat) (data : List (Option Byte)) (fe : Option Bool)
  /-- A card's own write into its tile's slice: the card, and the piece or 2^32 + line of a mark (R315). -/
  | landing (card piece off : Nat) (data : List (Option Byte)) (fe : Option Bool)
  /-- A line of an MREQ (R315). -/
  | mreqLine (mreq line off : Nat) (data : List Byte) (fe : Option Bool)
  /-- The completion message of an MREQ of the tile (R249, R315). -/
  | completion (mreq hart chan : Nat) (msg : Msg)
  deriving DecidableEq, Repr

structure LogEntry where
  body : LogBody
  src : Nat
  /-- The low bits of each hart's INSTRET (R315). -/
  instret : List Nat
  /-- Its sequence number in the log (R315). -/
  seq : Nat := 0
  deriving DecidableEq, Repr

/-- An item that arrived at a paused VT (R308): a packet or a posted write by its identifier, a card's line write, or a
drain's half-row. -/
inductive Captured where
  | item (id : Nat)
  | line (card line : Nat)
  | row (drain row : Nat)
  deriving DecidableEq, Repr

/-- Conditions of a VT (R307, R308, R322, R346). -/
inductive VtCondition where
  | running
  /-- Rotation drain or pause. -/
  | drain
  | pause
  /-- Stopped for a rollback until its spare is built (R322). -/
  | rebuilding (spare : Nat)
  | replay
  | hold
  | lost
  deriving DecidableEq, Repr, Inhabited

/-- The latency histograms of a tile and its trigger (R356): 16 buckets each of engine, accumulate unit, MREQ, array. -/
structure Histograms where
  engine : Vector Nat 16
  acc : Vector Nat 16
  mreq : Vector Nat 16
  array : Vector Nat 16
  /-- Histogram, bucket, P, action. -/
  trigger : Option (Nat × Nat × Nat × Nat)
  deriving DecidableEq, Repr

/-- A checkpoint that has begun to stop its tile (R301, R316, R317): the hart whose CKPT it is, none for a forced one;
whether it counts every line as written; whether its commit dword is written; and the cycle in which the merge it waits for
ends (R313). -/
structure CkptPhase where
  by_ : Option Nat
  whole : Bool
  committed : Bool
  merge : Option Nat := none
  deriving DecidableEq, Repr, Inhabited

/-- The number that an item of a tile took in a stream since the last checkpoint: what the item is, the stream's key, the
number, and whether it has been sent in this run; a replay that sends the item again gives it the number again (R318, R322;
notes/assumptions/84.md). -/
structure Numbered where
  key : List Nat
  stream : Nat
  n : Nat
  used : Bool
  deriving DecidableEq, Repr, Inhabited

/-- One virtual tile. -/
structure Tile where
  /-- Empty lines, ascending (R134). -/
  empty : List Nat
  /-- FEWAIT of the blob: cycles that a load waits for an empty line (R136, R392). -/
  feWait : Nat
  lineWait : List LineWaiter
  hringData : Vector (Vector Word32 16) 4
  hringNext : Vector (BitVec 4) 4
  hringValid : Vector (BitVec 5) 4
  ringcfg : Vector Word 8
  ringptr : Vector Word 8
  ringown : BitVec 16
  slottab : Word
  slottabNext : Option Word
  leasen : BitVec 8
  lastGrant : Nat
  /-- The last slot whose boundary has passed, counted from cycle 0, and the harts that have issued a lease command
  since (R190, R191). -/
  slotAt : Nat
  leaseUsed : List Nat
  banks : Vector Bank 4
  queue : List ArrayCmd
  running : Option RunningCmd
  /-- The cycle in which the last occupying command retired (R189). -/
  lastRetire : Nat
  verdicts : List Verdict
  drains : List Drain
  window : List WindowCard
  lastAdmit : Nat
  cardWrites : List CardWrite
  tmaps : Map (List Word)
  replyTags : Map ReplyTag
  mreqs : List Mreq
  watches : List Watch
  barriers : Map Barrier
  tail : List TailEntry
  flushing : List Flushing
  flushes : List FlushWait
  unitQueue : List Packet
  flushQueue : List Packet
  unitTurn : Bool
  accepted : Map Nat
  /-- The cycle at which these counts were last brought up to date. -/
  quotaAt : Nat
  accok : Word
  accref : Word
  accflu : Word
  quota : BitVec 16
  qwin : BitVec 32
  htbase : Word
  llint : BitVec 32
  /-- The cycle of the last load-levelling exchange (R251). -/
  levelled : Option Nat
  egress : List Held
  /-- Checks and verdicts not yet passed (R319). -/
  unverified : List Nat
  seqOut : Map Nat
  seqIn : Map Nat
  numbered : List Numbered
  /-- Instruction cache: line key and the line's bytes (R303). -/
  icache : Map (List Byte)
  tlb : List TlbEntry
  /-- For each lane group, the cycle from which it is free (R165, R167). -/
  laneFree : Vector Nat 4
  /-- Harts whose vector instruction waits for a group, with its occupancy; and harts given a group for it (R166). -/
  laneWant : List (Nat × Nat)
  laneGrants : List Nat
  /-- Share counts in units of 1/720,720 cycle, which every duty divides (R166). -/
  shares : Vector Nat 4
  /-- The cycle in which each hart last asked for a group or was given one (R166). -/
  laneSeen : Vector Nat 4
  lastLane : Nat
  sfu : List SfuEntry
  /-- Entries started and the cycle of their start. -/
  sfuRunning : List (SfuEntry × Nat)
  /-- Ticks by which CYCLE lies behind the timebase (R393). -/
  lag : Nat
  /-- Ticks since the clock-loss hold began, and the oscillator's cycles in them (R345). -/
  oscTicks : Nat
  oscCycles : Nat
  /-- Stretched cycles still to come after a droop trip, and whether one is half over (R333). -/
  stretch : Option Nat
  half : Bool
  /-- The cycle that ends the halve period (R333). -/
  halve : Option Nat
  cond : VtCondition
  /-- A failure has been detected whose rollback is still to come (R322): nothing issues and nothing leaves. -/
  failed : Bool
  log : List LogEntry
  /-- Entries that the log has had (R315). -/
  logged : Nat
  replayLog : List LogEntry
  /-- Lines written since the last checkpoint (R313). -/
  dirty : List Nat
  hasCkpt : Bool
  ckpting : Option CkptPhase
  lastCkpt : Nat
  /-- Lines that the increments hold in the moon region, and the generation last committed (R313). -/
  increments : Nat
  generation : Nat
  /-- Launches whose tasks were placed since the last checkpoint (R327; notes/assumptions/65.md). -/
  recent : List (BitVec 16)
  hist : Histograms
  abandoned : Nat
  /-- Bits that disagree with their parity: byte offset of the 64-bit word, bit (R142, R324). -/
  flips : List (Nat × Nat)
  /-- Items that arrived during a rotation's pause and go on to the new tile (R308). -/
  captured : List Captured := []
  deriving DecidableEq, Repr

/-- A committed checkpoint image of a VT (R305, R312). -/
structure Image where
  tile : Tile
  harts : List Hart
  sram : List Host.Cell
  deriving DecidableEq, Repr

/-! ### Physical tiles, dies, the panel -/

/-- States of a physical tile (R15). -/
inductive PtState where
  | inService
  | eclipse
  | readySpare
  | retired
  deriving DecidableEq, Repr, Inhabited

/-- What feeds a die's clock hub (R341): the I/O link to a root, or the lane of the link to another die. -/
inductive ClockLane where
  | io
  | die (d : Nat)
  deriving DecidableEq, Repr, Inhabited

/-- One physical tile (R12, R15, R325, R332, R342). -/
structure Pt where
  state : PtState
  /-- The tick at which its last self-test ended (R306), and that at which an eclipse or a wake began (R309, R331). -/
  sinceTest : Nat
  since : Nat
  stress : BitVec 48
  errors : BitVec 32
  agelim : Word
  marked : Bool
  /-- Parent in the forwarding tree (none for the die's hub), and whether its forwarder is dead (R341, R347). -/
  parent : Option Nat
  forwarderDead : Bool
  droopth : Word
  trips : BitVec 32
  halveLen : BitVec 16
  stretchLen : BitVec 8
  clockLost : Bool
  waking : Bool
  /-- A wake that waits for one of the die's eight to end (R331). -/
  wakeWaits : Bool
  dark : Bool
  deriving DecidableEq, Repr

/-- A counter of a die (R249, R274, R278). -/
structure Counter where
  value : BitVec 32
  tenant : Option (BitVec 6)
  mark : Bool
  parent : Option Nat
  pclass : BitVec 3
  listeners : List Nat
  /-- The panel supervisor listens too (R278). -/
  panelListens : Bool
  /-- Held by an accepted launch not yet injected (R278). -/
  held : Bool
  deriving DecidableEq, Repr, Inhabited

/-- Sources of a channel controller's requests (R97). Those of a port are other panels', outside the model
(notes/assumptions/68.md). -/
inductive HbmSource where
  | tile (vt : Nat)
  | ioDie (n : Nat)
  | port (n : Nat)
  | patrol
  | walker
  deriving DecidableEq, Repr, Inhabited

/-- A request in a channel controller's queue (R97): source, bank, row, whether the open batch marks it. -/
structure HbmRequest where
  access : Nat
  part : Nat
  source : HbmSource
  bank : Nat
  row : Nat
  line : Nat
  marked : Bool
  deriving DecidableEq, Repr, Inhabited

/-- One HBM channel controller (R97-R99): its queue, the source and bank of every request of the open batch, the
activation counts, the open rows, and the lines that the patrol has read. -/
structure Channel where
  queue : List HbmRequest
  batch : List (HbmSource × Nat)
  activations : Map Nat
  openRow : Map Nat
  patrolled : Nat
  deriving DecidableEq, Repr, Inhabited

/-- What a tenant registered with a die supervisor (R294). -/
structure FaultReg where
  hart : Option Nat
  dump : Nat
  deriving DecidableEq, Repr, Inhabited

/-- A dump in progress or waiting (R304). -/
structure Dump where
  hart : Nat
  launch : BitVec 16
  tenant : BitVec 6
  record : Msg
  /-- The area that the tenant had registered (R294). -/
  area : Nat
  records : List (List Word)
  incomplete : Bool
  started : Bool
  deriving DecidableEq, Repr, Inhabited

/-- Phases of a rotation (R307). -/
inductive RotationPhase where
  | preCopy
  | drain
  deriving DecidableEq, Repr, Inhabited

structure Rotation where
  vt : Nat
  from_ : Nat
  to_ : Nat
  phase : RotationPhase
  since : Nat
  deriving DecidableEq, Repr, Inhabited

/-- One compute die (R9). -/
structure Die where
  vmap : Map Nat
  vidx : BitVec 6
  ptq : BitVec 7
  rotateNext : Option Nat
  lost : BitVec 8
  tlb : List TlbEntry
  walks : List WalkEntry
  hbmloc : Word
  hbmrem : Word
  hbmsrv : Word
  channels : Map Channel
  counters : Map Counter
  mailbox : List (Node × Nat × Msg)
  lostRecords : Nat
  /-- Corrected errors of the stack (R93). -/
  corrected : Nat
  faultLog : List Msg
  faultRegs : Map FaultReg
  dumps : List Dump
  routes : Map (List (BitVec 3))
  sampctl : Word
  lastPulse : Nat
  lastSample : Map (Word × Nat × BitVec 16)
  rotation : Option Rotation
  nextRotation : Nat
  skipped : Nat
  phasesFailed : Map Nat
  standbyHub : Bool
  hubLost : Bool
  rerooting : Bool
  /-- The lane that feeds the hub once re-rooting has changed it, and whether that lane has died (R341, R347). -/
  lane : Option ClockLane
  laneDown : Bool
  /-- Lanes to the hub that have died (R347). -/
  deadLanes : List ClockLane
  /-- The class limit in force on the die, and the frames that lowered it to what it is: limit and tick of each (R337,
  R338). -/
  limit : Nat
  sheds : List (Nat × Nat)
  deriving DecidableEq, Repr

/-- A tenant's area (R280, R281): whole dies or not, and the corners in global coordinates. -/
structure Tenant where
  oneDie : Bool
  x0 : Nat
  y0 : Nat
  x1 : Nat
  y1 : Nat
  deriving DecidableEq, Repr, Inhabited

/-- An accepted launch (R275-R278): the record, then what is still to place on each die. -/
structure Launch where
  number : BitVec 16
  record : List Word
  injecting : Bool
  /-- Placements to come, by die: (VT, hart) in order. -/
  toPlace : Map (List (Nat × Nat))
  deriving DecidableEq, Repr, Inhabited

/-- The grid block (R336-R340). -/
structure Grid where
  vpoint : Vector Word 8
  fpoint : Vector Word 8
  ctl : Word
  limit : Nat
  stat : Word
  lastSeq : Option Nat
  /-- Frames accepted out of sequence (R336). -/
  gaps : Nat
  lastFrame : Nat
  fallback : Bool
  /-- Ticks and allowed classes of the frames applied since the limit was last lowered, and the tick of that
  (R338, R339). -/
  recent : List (Nat × Nat)
  lowered : Nat
  deriving DecidableEq, Repr

/-- The host's registers and memory-mapped blocks in BAR0 (R359, R368). -/
structure HostBlock where
  window : Map (List Byte)
  /-- What has been posted while bring-up steps 6 and 7 run (R387). -/
  doorbells : List Msg
  compBase : Word
  compTail : Nat
  base : Word
  completions : List (Word × Word)
  faultLog : List (List Word)
  flogHead : Nat
  sampBase : Word
  sampSize : Word
  sampHead : Word
  samples : List (List Word)
  meas : List Byte
  nonce : List Byte
  quote : List Byte
  msix : List Nat
  /-- The size of BAR2 as a power of two (R358). -/
  bar2 : Nat
  /-- What the last read of BAR2 or BAR0 answered; none is an error (R93, R358, R359). -/
  answer : Option (List Byte)
  deriving DecidableEq, Repr

/-- An extent-list entry (R362): base, length, state. -/
structure Extent where
  base : Nat
  length : Nat
  state : Nat
  deriving DecidableEq, Repr, Inhabited

/-- A reduction window (R365). -/
structure RdwWindow where
  base : Nat
  limit : Nat
  port : Nat
  deriving DecidableEq, Repr, Inhabited

/-- A switch buffer (R230): key, merged value, what has merged, whether the home refused it. -/
structure SwitchBuffer where
  id : Nat
  key : AccKey
  value : VReg
  va : Word
  addends : List Addend
  since : Nat
  refused : Bool
  sent : Bool
  port : Nat
  deriving DecidableEq, Repr, Inhabited

/-- One move of the panel: how many timebase ticks pass before it, whether the units it meets answer at once, and
either a hart that reaches its next instruction boundary or one step of another agent. -/
structure Move where
  dt : Nat
  prompt : Bool
  what : Actor
  deriving DecidableEq, Repr

/-- Parameters of the HBM controllers that the blob loads (R97, R389). -/
structure HbmParams where
  batchCap : Nat
  actTh : Nat
  /-- Hours for one patrol pass. -/
  patrolPass : Nat
  deriving DecidableEq, Repr

/-- What the external flash holds for bring-up beside the retired set and the ageing counts (R389): the fields of the blob's
header, the minimum version, and the items of its body. An item per tile that is not listed has the value of R392. -/
structure Blob where
  magic : Nat
  version : Nat
  length : Nat
  reserved : List Byte
  signature : List Byte
  minVersion : Nat
  panel : Nat
  /-- The logic set point in millivolts (R330). -/
  setPoint : Nat
  /-- The clock tree: parents of tiles, by PT, and the lanes of hubs (R341). -/
  parents : Map (Option Nat)
  lanes : Map ClockLane
  agelim : Map Word
  iset : Word
  quota : BitVec 16
  qwin : BitVec 32
  equota : BitVec 32
  ckptctl : BitVec 32
  droopth : Word
  hbm : HbmParams
  feWait : Nat
  vpoint : Vector Word 8
  fpoint : Vector Word 8
  gridctl : Word
  /-- The image keys, by slot (R367). -/
  imageKeys : Map (List Byte)
  deriving DecidableEq, Repr

/-- Why bring-up keeps the panel in reset (R387, R389): a signature of the firmware or of the blob, the blob's header, or a
version below the minimum. -/
inductive ResetCause where
  | signature
  | header
  | version
  deriving DecidableEq, Repr, Inhabited

/-- The panel. -/
structure State where
  mem : List Host.Cell
  /-- Lines whose data cannot be corrected (R93), by their key divided by 128, ascending. -/
  badLines : List Nat
  harts : Map Hart
  tiles : Map Tile
  pts : Map Pt
  dies : Map Die
  tick : Nat
  panel : Nat
  hbm : HbmParams
  tenants : Map Tenant
  launches : List Launch
  supMailbox : List (Node × Nat × Msg)
  execPages : List Nat
  host : HostBlock
  grid : Grid
  extents : Map Extent
  routeTable : Map (BitVec 33)
  windows : Map RdwWindow
  portsDown : List Nat
  linkFails : Map Nat
  switch : List SwitchBuffer
  ioUnits : List Packet
  net : List Packet
  ckpt : Map Image
  panelHalt : Option Nat
  altRoot : Bool
  flash : List (Nat × PtState × Nat × Nat)
  blob : Blob
  /-- The panel is kept in reset, with the cause that IEEE 1149.1 shows (R387). -/
  inReset : Option ResetCause
  /-- The tick at which bring-up step 7 ended (R387). -/
  readyAt : Nat
  /-- The model's own bookkeeping (notes/assumptions/1.md): who moves next, the hart that moves, its instruction
  word, whether units answer at once, and counters for fresh identifiers and free values. -/
  agenda : List Move
  moves : Nat
  cur : Nat
  word : Word32
  prompt : Bool
  nextId : Nat
  free : Nat
  deriving DecidableEq, Repr

/-! ### How a step can stop -/

/-- Reasons the machine stops with a fault. -/
inductive Fault where
  /-- Raised by no instruction: an access outside the panel's storage takes the page fault the spec names (R105, R388).
  It stands for a cell list that is not in canonical form; safe. -/
  | brokenMemory
  deriving DecidableEq, Repr, Inhabited

/-- Reasons a step has no meaning. -/
inductive Refusal where
  /-- An instruction whose meaning is not written yet, by its mnemonic; safe. -/
  | notModelled (mnemonic : String)
  /-- A supervisor hart executes an instruction that acts on a unit only a tile has (R9, R17): the spec gives that hart
  no such unit and says nothing of what happens; safe. -/
  | noTileUnit
  deriving DecidableEq, Repr

/-! ### Reset (R387, R392) -/

/-- All g, f, v and k registers zero: the spec gives them no reset value (DESIGN CHOICE, notes/assumptions/3.md). -/
def Regs.reset : Regs :=
  { g := Vector.replicate 32 0, f := Vector.replicate 32 0, v := Vector.replicate 32 0, k := Vector.replicate 8 0 }

def BarrierRecord.reset : BarrierRecord :=
  { word := 0, joined := false, arrived := false, inUse := false, phase := 0 }

/-- The reset column of R37, with R289 and the cfg values of R392. -/
def Csrs.reset : Csrs :=
  { fflags := 0, frm := 0, vtype := 0, tags := 0, tagerr := 0, mshape := 0, instret := 0, tenant := 0, launchid := 0
    hrsel := 0, chprio := 0xD2, inld := 0, replyres := 0, retrymax := 64, retrygap := 256
    utvec := 0, uepc := 0, uh := false, ucode := 0, utval := 0, uscratch := 0
    stallchk := true, pm := 0, sp := false, pie := false, ie := false
    ktvec := 0, kepc := 0, kcause := 0, ktval := 0, kscratch := 0, kie := 0, kip := 0, udeleg := 0, kdeleg := 0
    ptbase := 0, iset := 0xFFFFFFFFFFFF, sigbase := 0, savemap := 0, pclass := 0, equotaUsed := 0, equotaLimit := 0
    msave := 0, tenpermInline := false, fetchduty := 16, ckptctl := 1050000, tracectl := 0, dbgctl := 0
    bp := Vector.replicate 4 0, wp := Vector.replicate 2 0
    fTarget := 0, fPie := false, fIe := false, ftvec := 0, fepc := 0, fcause := 0, ftval := 0 }

/-- A hart after reset: harts below 12,288 are tile harts in U mode waiting for dispatch, the others supervisor harts
in F mode (R234, R286, R387); pc and mode DESIGN CHOICE, notes/assumptions/3.md. -/
def Hart.reset (h : Nat) : Hart :=
  { regs := Regs.reset, m := Vector.replicate 8 (Vector.replicate 16 0), pc := 0
    mode := if h < 12288 then .user else .firmware
    csr := Csrs.reset, irq := { throttle := 0, preemptAt := 0, shed := 0, cancel := 0 }
    task := none, lastChan := 3, chans := Vector.replicate 4 [], sendq := []
    spawn := { armed := false, answered := false, accepted := false, retryAt := 0 }, spawnOuter := []
    barriers := Vector.replicate 4 BarrierRecord.reset
    fixed := [], board := [], seq := 0, flights := [], posted := [], pendTraps := [], accs := []
    lwaitSince := none, lwaitUntil := none, lwaitSpurious := false, lwaitExpired := false, tlbinv := none, wfi := none, withdrawnSfu := []
    tagCount := Vector.replicate 64 0, fifo := []
    disc := false, lease := .none, sat := false, accDirty := false, accValid := false, mDirty := 0, mValid := 0
    leaseCount := 0, leaseEnding := false, nextIssue := 0, handlerSince := none, parked := none, halted := none, shedHold := false
    checker := { resync := true, block := none, pending := [], corrupt := false }
    timer := none, ckptDue := 1050000, barred := false, window := 0 }

/-- A bank at reset: zeros in the float class (notes/assumptions/3.md). -/
def Bank.reset : Bank :=
  { acc := Vector.replicate 4096 0, chk := Vector.replicate 64 0, integer := false, inject := none }

def Histograms.reset : Histograms :=
  { engine := Vector.replicate 16 0, acc := Vector.replicate 16 0, mreq := Vector.replicate 16 0
    array := Vector.replicate 16 0, trigger := none }

/-- A virtual tile after reset (R37, R134, R190, R392): every line full, every table empty, a committed checkpoint. -/
def Tile.reset : Tile :=
  { empty := [], feWait := 1048576, lineWait := [], hringData := Vector.replicate 4 (Vector.replicate 16 0)
    hringNext := Vector.replicate 4 0, hringValid := Vector.replicate 4 0
    ringcfg := Vector.replicate 8 0, ringptr := Vector.replicate 8 0, ringown := 0
    slottab := 0, slottabNext := none, leasen := 16, lastGrant := 3, slotAt := 0, leaseUsed := [], banks := Vector.replicate 4 Bank.reset
    queue := [], running := none, lastRetire := 0, verdicts := [], drains := []
    window := [], lastAdmit := 3, cardWrites := [], tmaps := [], replyTags := [], mreqs := [], watches := []
    barriers := [], tail := [], flushing := [], flushes := [], unitQueue := [], flushQueue := []
    unitTurn := false, accepted := [], quotaAt := 0, accok := 0, accref := 0, accflu := 0, quota := 0x1810
    qwin := 4096, htbase := 0, llint := 4096, levelled := none, egress := [], unverified := [], seqOut := [], seqIn := [], numbered := [], icache := []
    tlb := [], laneFree := Vector.replicate 4 0, laneWant := [], laneGrants := [], shares := Vector.replicate 4 0, laneSeen := Vector.replicate 4 0, lastLane := 3
    sfu := [], sfuRunning := [], lag := 0, oscTicks := 0, oscCycles := 0, stretch := none, half := false, halve := none, cond := .running, failed := false, log := [], logged := 0, replayLog := [], dirty := []
    hasCkpt := true, ckpting := none, lastCkpt := 0, increments := 0, generation := 1, recent := [], hist := Histograms.reset, abandoned := 0
    flips := [] }

/-- The parent of a physical tile in the blob's clock tree: the next tile towards the centre, first along X; the centre
tiles' is the hub (R341; DESIGN CHOICE, notes/assumptions/8.md). -/
def clockParent (pt : Nat) : Option Nat :=
  let px := pt % 9
  let py := pt / 9
  if px < 4 then some (pt + 1) else if 4 < px then some (pt - 1)
  else if py < 3 then some (pt + 9) else if 4 < py then some (pt - 9) else none

/-- A physical tile after bring-up with no failing tile (R387, R392): PT 0-63 hold VT 0-63, the others are spares. -/
def Pt.reset (pt : Nat) : Pt :=
  { state := if pt < 64 then .inService else .readySpare, sinceTest := 0, since := 0, stress := 0, errors := 0
    agelim := 0x9000000000000010, marked := false, parent := clockParent pt, forwarderDead := false, droopth := 8, trips := 0, halveLen := 64
    stretchLen := 6, clockLost := false, waking := false, wakeWaits := false, dark := false }

def Die.reset : Die :=
  { vmap := [], vidx := 0, ptq := 0, rotateNext := none, lost := 0, tlb := [], walks := [], hbmloc := 0, hbmrem := 0
    hbmsrv := 0, channels := [], counters := [], mailbox := [], lostRecords := 0, corrected := 0, faultLog := [], faultRegs := []
    dumps := [], routes := [], sampctl := 0, lastPulse := 0, lastSample := [], rotation := none
    nextRotation := 21000000, skipped := 0, phasesFailed := [], standbyHub := true, hubLost := false
    rerooting := false, lane := none, laneDown := false, deadLanes := [], limit := 6, sheds := [] }

def Counter.reset : Counter :=
  { value := 0, tenant := none, mark := false, parent := none, pclass := 0, listeners := [], panelListens := false
    held := false }

/-- The grid block of R392: every point with MV or MHZ 0 and CLASS 6, hold-off 50 ms, fallback class 6. -/
def Grid.reset : Grid :=
  { vpoint := Vector.replicate 8 6, fpoint := Vector.replicate 8 6, ctl := 0x320600, limit := 6, stat := 6
    lastSeq := none, gaps := 0, lastFrame := 0, fallback := false, recent := [], lowered := 0 }

def HostBlock.reset : HostBlock :=
  { window := [], doorbells := [], compBase := 0, compTail := 0, base := 0, completions := [], faultLog := []
    flogHead := 0, sampBase := 0, sampSize := 0, sampHead := 0, samples := [], meas := List.replicate 64 0, nonce := []
    quote := [], msix := [], bar2 := 30, answer := none }

/-- The blob where the installation orders no other value (R392); what the module's test and the installation settle, and the
header's version and signature, are DESIGN CHOICE (notes/assumptions/47.md). -/
def Blob.default : Blob :=
  { magic := 0x42464C42, version := 0, length := 0, reserved := List.replicate 104 0, signature := [], minVersion := 0
    panel := 0, setPoint := 400, parents := [], lanes := [], agelim := [], iset := 0xFFFFFFFFFFFF, quota := 0x1810
    qwin := 4096, equota := 0, ckptctl := 1050000, droopth := 8
    hbm := { batchCap := 8, actTh := 1024, patrolPass := 24 }, feWait := 1048576
    vpoint := Vector.replicate 8 6, fpoint := Vector.replicate 8 6, gridctl := 0x320600, imageKeys := [] }

/-- The panel right after bring-up (R387): tile harts wait for dispatch, nothing is in transit, memory lists nothing. -/
def State.reset : State :=
  { mem := [], badLines := [], harts := [], tiles := [], pts := [], dies := [], tick := 0, panel := 0
    hbm := { batchCap := 8, actTh := 1024, patrolPass := 24 }, tenants := []
    launches := [], supMailbox := [], execPages := [], host := HostBlock.reset, grid := Grid.reset, extents := []
    routeTable := [], windows := [], portsDown := [], linkFails := [], switch := [], ioUnits := [], net := []
    ckpt := [], panelHalt := none, altRoot := false, flash := []
    blob := Blob.default, inReset := none, readyAt := 0, agenda := [], moves := 0, cur := 0, word := 0
    prompt := false, nextId := 1, free := 0 }

end Sys2Proof.Machine
end

