-- ==== Sys2Proof/Machine/Map.lean ====
section
/-! DEFINITION. Sparse maps, memory as a canonical list of cells, and bytes in memory order (R3). -/

namespace Sys2Proof.Machine

/-- The value at a key, if the map lists it. -/
def Map.find {α : Type} : Map α → Nat → Option α
  | [], _ => none
  | (k, x) :: m, i => if i = k then some x else Map.find m i

/-- The map with a value at a key; keys stay in ascending order. -/
def Map.put {α : Type} : Map α → Nat → α → Map α
  | [], i, y => [(i, y)]
  | (k, x) :: m, i, y =>
    if i < k then (i, y) :: (k, x) :: m
    else if i = k then (i, y) :: m
    else (k, x) :: Map.put m i y

/-- The map without a key. -/
def Map.erase {α : Type} : Map α → Nat → Map α
  | [], _ => []
  | (k, x) :: m, i => if i = k then m else (k, x) :: Map.erase m i

/-- The value at a key, or what an unlisted key stands for. -/
def Map.get {α : Type} (m : Map α) (i : Nat) (d : α) : α := (m.find i).getD d

/-- A strictly ascending list with a number put in. -/
def insertNat : List Nat → Nat → List Nat
  | [], i => [i]
  | k :: m, i => if i < k then i :: k :: m else if i = k then k :: m else k :: insertNat m i

/-- A vector with one entry changed; an index outside it changes nothing. -/
def onAt {α : Type} {n : Nat} (v : Vector α n) (i : Nat) (f : α → α) : Vector α n :=
  if h : i < n then v.set i (f v[i]) h else v

/-- An entry of a vector, or what an index outside it stands for. -/
def entryAt {α : Type} {n : Nat} (v : Vector α n) (i : Nat) (d : α) : α := if h : i < n then v[i] else d

/-! ### Memory (R3): an unlisted byte reads 0 (notes/assumptions/4.md) -/

/-- The byte at a key of the memory list. -/
def memByte : List Host.Cell → Nat → Byte
  | [], _ => 0
  | (k, b) :: m, a => if a = k then b else memByte m a

/-- Memory with one byte written; a zero byte is not listed, so equal memories are equal lists. -/
def memPut : List Host.Cell → Nat → Byte → List Host.Cell
  | [], a, b => if b = 0 then [] else [(a, b)]
  | (k, x) :: m, a, b =>
    if a < k then (if b = 0 then (k, x) :: m else (a, b) :: (k, x) :: m)
    else if a = k then (if b = 0 then m else (a, b) :: m)
    else (k, x) :: memPut m a b

/-- The canonical form: keys strictly rising from `lo`, no zero byte listed. -/
def memWfFrom : Nat → List Host.Cell → Bool
  | _, [] => true
  | lo, (k, b) :: m => decide (lo ≤ k) && decide (b ≠ 0) && memWfFrom (k + 1) m

/-- Memory is in canonical form. -/
def Memory.wf (m : List Host.Cell) : Bool := memWfFrom 0 m

/-- The `n` bytes from a key on. -/
def memBytes (m : List Host.Cell) (a : Nat) : Nat → List Byte
  | 0 => []
  | n + 1 => memByte m a :: memBytes m (a + 1) n

/-- Memory with bytes written from a key on; a hole leaves its byte alone. -/
def memWrite (m : List Host.Cell) (a : Nat) : List (Option Byte) → List Host.Cell
  | [] => m
  | none :: bs => memWrite m (a + 1) bs
  | some b :: bs => memWrite (memPut m a b) (a + 1) bs

/-! ### Bytes of a value, least significant first (R3) -/

/-- The value of bytes in memory order. -/
def bytesNat : List Byte → Nat
  | [] => 0
  | b :: bs => b.toNat + 256 * bytesNat bs

/-- The first `n` bytes of a value in memory order. -/
def natBytes : Nat → Nat → List Byte
  | 0, _ => []
  | n + 1, x => BitVec.ofNat 8 x :: natBytes n (x / 256)

/-- The 64-bit value of eight bytes at a position of a byte list. -/
def dwordAt (bs : List Byte) (i : Nat) : Word := BitVec.ofNat 64 (bytesNat ((bs.drop (8 * i)).take 8))

/-- Bytes with no holes. -/
def solid (bs : List Byte) : List (Option Byte) := bs.map some

/-! ### Bit fields -/

/-- Bits `lo` to `lo + n - 1` of a word, as a number. -/
def bits (w : Word) (lo n : Nat) : Nat := w.toNat / 2 ^ lo % 2 ^ n

/-- One bit of a word. -/
def bit (w : Word) (i : Nat) : Bool := w.getLsbD i

/-- A word with `n` bits from `lo` on replaced. -/
def setBits (w : Word) (lo n : Nat) (x : Nat) : Word :=
  (w &&& ~~~(BitVec.ofNat 64 ((2 ^ n - 1) * 2 ^ lo))) ||| BitVec.ofNat 64 (x % 2 ^ n * 2 ^ lo)

/-- A word with one bit set or cleared. -/
def setBit (w : Word) (i : Nat) (b : Bool) : Word := setBits w i 1 b.toNat

/-- R4's sign extension of the low `n` bits. -/
def sext (w : Word) (n : Nat) : Word := ((BitVec.ofNat n w.toNat).signExtend 64)

/-- R4's zero extension of the low `n` bits. -/
def zext (w : Word) (n : Nat) : Word := ((BitVec.ofNat n w.toNat).zeroExtend 64)

/-- A truth value as 0 or 1. -/
def flag (b : Bool) : Word := if b then 1 else 0

end Sys2Proof.Machine
end

