-- ==== Sys2Proof/Machine/Hart.lean ====
section
/-! DEFINITION. Access to the panel's agents, and a hart's registers and results in flight (R25-R28, R30-R33). -/

namespace Sys2Proof.Machine

/-! ### Numbers of agents (R9, R13, R14) -/

/-- Harts from 12,288 on are supervisor harts, two to a die. -/
def isSup (h : Nat) : Bool := decide (12288 ≤ h)

/-- What `State.cur` holds while no hart issues: a number that no hart has. -/
def noHart : Nat := 2 ^ 20
def hartVt (h : Nat) : Nat := h / 4
def hartSlot (h : Nat) : Nat := h % 4
def hartDie (h : Nat) : Nat := if isSup h then (h - 12288) / 2 else h / 256
def vtDie (v : Nat) : Nat := v / 64

/-! ### Access -/

def State.hart (s : State) (h : Nat) : Hart := s.harts.get h (Hart.reset h)
def State.setHart (s : State) (h : Nat) (x : Hart) : State := { s with harts := s.harts.put h x }
def State.onHart (s : State) (h : Nat) (f : Hart → Hart) : State := s.setHart h (f (s.hart h))
def State.tile (s : State) (v : Nat) : Tile := s.tiles.get v Tile.reset
def State.setTile (s : State) (v : Nat) (x : Tile) : State := { s with tiles := s.tiles.put v x }
def State.onTile (s : State) (v : Nat) (f : Tile → Tile) : State := s.setTile v (f (s.tile v))
def State.die (s : State) (d : Nat) : Die := s.dies.get d Die.reset
def State.setDie (s : State) (d : Nat) (x : Die) : State := { s with dies := s.dies.put d x }
def State.onDie (s : State) (d : Nat) (f : Die → Die) : State := s.setDie d (f (s.die d))
/-- Physical tiles are listed under die × 72 + PT (R12). -/
def State.pt (s : State) (d p : Nat) : Pt := s.pts.get (d * 72 + p) (Pt.reset p)
def State.setPt (s : State) (d p : Nat) (x : Pt) : State := { s with pts := s.pts.put (d * 72 + p) x }
def State.onPt (s : State) (d p : Nat) (f : Pt → Pt) : State := s.setPt d p (f (s.pt d p))
def Die.counter (x : Die) (c : Nat) : Counter := x.counters.get c Counter.reset
/-- The counter of id die × 4,096 + counter (R271, R274). -/
def State.counter (s : State) (id : Nat) : Counter := (s.die (id / 4096)).counter (id % 4096)
def State.setCounter (s : State) (id : Nat) (c : Counter) : State :=
  s.onDie (id / 4096) fun x => { x with counters := x.counters.put (id % 4096) c }

/-- The physical tile that holds a VT (R13, R310); after bring-up VT i of a die is on PT i (R387). -/
def State.ptOf (s : State) (v : Nat) : Nat := (s.die (vtDie v)).vmap.get (v % 64) (v % 64)

/-- The VT that a physical tile holds, if it is in service (R15). -/
def State.vtOf (s : State) (d p : Nat) : Option Nat :=
  if (s.pt d p).state = .inService then
    ((List.range 64).find? fun i => s.ptOf (d * 64 + i) == p).map (d * 64 + ·)
  else none

/-- CYCLE of a VT: the timebase less what stretches and holds have cost it (R393). -/
def State.cycle (s : State) (v : Nat) : Nat := s.tick - (s.tile v).lag

/-- A fresh identifier. -/
def State.fresh (s : State) : Nat × State := (s.nextId, { s with nextId := s.nextId + 1 })

/-- A value the spec leaves open (notes/assumptions/5.md). -/
def State.freeWord (s : State) : Word × State := (Config.freeWord s.free, { s with free := s.free + 1 })

/-- A choice the spec leaves open among `n` things (notes/assumptions/5.md). -/
def State.freeBelow (s : State) (n : Nat) : Nat × State :=
  (Config.freeNat s.free % n, { s with free := s.free + 1 })

/-! ### Values of the blob (R389, R392) -/

/-- A hart, a tile and a physical tile as the blob's values make them at reset (R389, R392). -/
def Blob.hart (b : Blob) (h : Nat) : Hart :=
  let x := Hart.reset h
  { x with csr := { x.csr with iset := b.iset, equotaLimit := b.equota, ckptctl := b.ckptctl }, ckptDue := b.ckptctl.toNat }

def Blob.tile (b : Blob) : Tile := { Tile.reset with feWait := b.feWait, quota := b.quota, qwin := b.qwin }

def Blob.pt (b : Blob) (d p : Nat) : Pt :=
  let x := Pt.reset p
  { x with agelim := Map.get b.agelim (d * 72 + p) x.agelim, droopth := b.droopth, parent := Map.get b.parents (d * 72 + p) x.parent }

/-! ### Registers -/

/-- What a register holds, zero-extended; g0 reads 0 (R30), m registers are not read this way. -/
def Regs.read (r : Regs) : Reg → VReg
  | .g d => if d = 0 then 0 else (r.g[d.toNat]'d.isLt).zeroExtend 512
  | .f d => (r.f[d.toNat]'d.isLt).zeroExtend 512
  | .v d => r.v[d.toNat]'d.isLt
  | .k d => (r.k[d.toNat]'d.isLt).zeroExtend 512
  | .m _ => 0

/-- A register written with the low bits of a value; a write to g0 is discarded (R30). -/
def Regs.write (r : Regs) (d : Reg) (x : VReg) : Regs :=
  match d with
  | .g d => if d = 0 then r else { r with g := r.g.set d.toNat (x.truncate 64) d.isLt }
  | .f d => { r with f := r.f.set d.toNat (x.truncate 64) d.isLt }
  | .v d => { r with v := r.v.set d.toNat x d.isLt }
  | .k d => { r with k := r.k.set d.toNat (x.truncate 64) d.isLt }
  | .m _ => r

/-- The fixed-latency result in flight for a register that a consumer may not read yet. -/
def Hart.inFlight (x : Hart) (r : Reg) : Option FixedResult :=
  x.fixed.reverse.find? fun p => p.dst == r && decide (0 < p.left)

/-- What an instruction reads from a register: under a short distance the value from before the producer (R27). -/
def Hart.read (x : Hart) (r : Reg) : VReg :=
  match x.inFlight r with
  | some p => if p.written then p.old.zeroExtend 512 else x.regs.read r
  | none => x.regs.read r

def Hart.g (x : Hart) (d : BitVec 5) : Word := (x.read (.g d)).truncate 64
def Hart.f (x : Hart) (d : BitVec 5) : Word := (x.read (.f d)).truncate 64
def Hart.v (x : Hart) (d : BitVec 5) : VReg := x.read (.v d)
def Hart.k (x : Hart) (d : BitVec 3) : Word := (x.read (.k d)).truncate 64

/-- A register written; a result still in flight for it is superseded (R25: the later writer's value stays). -/
def Hart.write (x : Hart) (d : Reg) (v : VReg) : Hart :=
  { x with regs := x.regs.write d v, fixed := x.fixed.filter fun p => p.dst != d }

def Hart.setG (x : Hart) (d : BitVec 5) (v : Word) : Hart := x.write (.g d) (v.zeroExtend 512)
def Hart.setF (x : Hart) (d : BitVec 5) (v : Word) : Hart := x.write (.f d) (v.zeroExtend 512)
def Hart.setV (x : Hart) (d : BitVec 5) (v : VReg) : Hart := x.write (.v d) v
def Hart.setK (x : Hart) (d : BitVec 3) (v : Word) : Hart := x.write (.k d) (v.zeroExtend 512)

/-! ### Fixed-latency results (R25-R27) -/

/-- Results delivered in this order; the one whose distance is met last leaves its value, whenever its unit delivered it
(R27). -/
def deliver (r : Regs) : List FixedResult → Regs
  | [] => r
  | p :: ps => deliver (r.write p.dst (p.val.zeroExtend 512)) ps

/-- One unit of encoded distance passes: results whose distance is met are written, the older of two last (R27). -/
def Hart.ageOnce (x : Hart) : Hart :=
  let aged := x.fixed.map fun p => { p with left := p.left - 1 }
  { x with
    regs := deliver x.regs (aged.filter fun p => p.left == 0).reverse
    fixed := aged.filter fun p => p.left != 0 }

/-- `n` units of encoded distance pass. -/
def Hart.age (x : Hart) : Nat → Hart
  | 0 => x
  | n + 1 => if x.fixed.isEmpty then x else x.ageOnce.age n

/-- Every fixed-latency result in flight is written in its turn (R26): as many units pass as the longest still needs. -/
def Hart.drain (x : Hart) : Hart :=
  { x.age (x.fixed.foldl (fun n p => max n p.left) 1) with fixed := [] }

/-- A register other than g0. -/
def Reg.real : Reg → Bool
  | .g d => d != 0
  | _ => true

/-- A fixed-latency result enters flight (R25); one for g0 is discarded (R30). -/
def Hart.start (x : Hart) (d : Reg) (v : Word) (latency : Nat) : Hart :=
  if d.real then
    { x with fixed := x.fixed ++
        [{ dst := d, val := v, old := (x.regs.read d).truncate 64, left := latency, written := false }] }
  else x

/-- The consumer issues too soon after a producer of a register it reads, or, when it writes with latency `latC`, of a
register it writes (R25). A scoreboarded consumer orders its own result behind the producer's (notes/assumptions/6.md). -/
def Hart.tooSoon (x : Hart) (reads writes : List Reg) (latC : Nat) : Bool :=
  x.fixed.any fun p =>
    decide (0 < p.left) && (reads.contains p.dst ||
      (writes.contains p.dst && decide (latC ≠ 0) && decide (latC ≤ p.left)))

/-! ### Scoreboarded results (R28) -/

/-- The registers a load or atomic in flight will write. -/
def LoadDst.reg : LoadDst → Option Reg
  | .g d _ _ => some (.g d)
  | .f d _ => some (.f d)
  | .v d _ _ => some (.v d)
  | .bcast d _ _ => some (.v d)
  | .m i _ => some (.m i)
  | .tmap _ _ => none
  | .payload (some d) _ _ => some (.g d)
  | .payload none _ _ => none
  | .fence _ => none

/-- Registers whose scoreboarded result has not come: results in flight, outstanding accesses, SFU entries queued,
running or withdrawn, and queued array commands that write a register (R28, R167, R182, R202, R205). -/
def State.pendingRegs (s : State) (h : Nat) : List Reg :=
  let x := s.hart h
  let t := s.tile (hartVt h)
  let sfus := t.sfu ++ x.withdrawnSfu ++ t.sfuRunning.map (·.1)
  let cmds := t.queue ++ (match t.running with | some c => [c.cmd] | none => [])
  x.board.map (·.dst) ++ x.flights.filterMap (·.dst.reg)
    ++ (sfus.filter fun e => e.hart == h && !e.discard).map (.v ·.vd)
    ++ cmds.filterMap fun c => if c.hart == h then
        match c.op with
        | .maccget m _ => some (.m m)
        | .rstat _ d => some (.g d)
        | _ => none
      else none

/-- An operand or destination of the consumer is still to come. -/
def State.mustWait (s : State) (h : Nat) (regs : List Reg) : Bool :=
  let pending := s.pendingRegs h
  regs.any fun r => r.real && pending.contains r

end Sys2Proof.Machine
end

