-- ==== Sys2Proof/Machine/Translate.lean ====
section
/-! DEFINITION. Addresses: regions, homes, page tables, TLBs (R86-R91, R105-R114, R388). -/

namespace Sys2Proof.Machine

/-! ### Keys of the memory list: one for every byte of storage, whichever home holds it -/

def hbmKey (die off : Nat) : Nat := die * 2 ^ 36 + off
def sliceKey (vt off : Nat) : Nat := 2 ^ 44 + vt * 2 ^ 22 + off
def cxlKey (port off : Nat) : Nat := 2 ^ 48 + port * 2 ^ 43 + off
def panelKey (panel die off : Nat) : Nat := 2 ^ 56 + (panel * 64 + die) * 2 ^ 43 + off

def slicePlace (vt off : Nat) : Place := { home := .slice vt, off := off, key := sliceKey vt off }
def hbmPlace (die off : Nat) : Place := { home := .hbm die, off := off, key := hbmKey die off }
def cxlPlace (port off : Nat) : Place := { home := .cxl port, off := off, key := cxlKey port off }
/-- The SRAM of a physical tile that holds no VT (R388), under a number above every VT's. -/
def sparePlace (die pt off : Nat) : Place := slicePlace (4096 + die * 72 + pt) off
def panelPlace (panel die off : Nat) : Place := { home := .panel panel, off := off, key := panelKey panel die off }

/-- Size of a stack (R86). -/
def stackBytes : Nat := 0xC00000000

/-- First byte that no slice address reaches (R132). -/
def sliceBytes : Nat := 0x300000

/-- The line that holds a place, over all storage. -/
def Place.line (p : Place) : Nat := p.key / 128

/-- A CXL byte lies in an extent that the panel has accepted (R102, R362). -/
def State.extentCovers (s : State) (port off : Nat) : Bool :=
  s.extents.any fun (k, e) =>
    k / 256 == port && (e.state == 2 || e.state == 3) && decide (e.base ≤ off) && decide (off < e.base + e.length)

/-- The live ports that reach another panel (R364). -/
def State.livePorts (s : State) (n : Nat) : List Nat :=
  match s.routeTable.find n with
  | none => []
  | some e => (List.range 32).filter fun p => e.getLsbD 32 && e.getLsbD p && !s.portsDown.contains p

/-- The port that carries a line of another panel (R364). -/
def State.vilorePort (s : State) (n off : Nat) : Option Nat :=
  let ports := s.livePorts n
  ports[off / 128 % 64 % ports.length]?

/-- A write to a part of the line a place lies in cannot be performed: an uncorrectable line, a missing extent, an
unreachable panel (R93, R102, R364). -/
def State.unwritable (s : State) (p : Place) : Bool :=
  match p.home with
  | .slice _ => false
  | .hbm _ => s.badLines.contains p.line
  | .cxl port => s.badLines.contains p.line || !s.extentCovers port p.off
  | .panel n => s.badLines.contains p.line || (s.livePorts n).isEmpty

/-- The line a place lies in cannot be read: it cannot be written either, or a CXL device returns it poisoned (R93,
R102). -/
def State.unreadable (s : State) (p : Place) : Bool :=
  s.unwritable p || (match p.home with
    | .cxl _ => Config.cxlPoison p.line s.tick
    | _ => false)

/-! ### Tenants' areas (R273, R280) -/

def vtGx (v : Nat) : Nat := v / 64 % 6 * 8 + v % 8
def vtGy (v : Nat) : Nat := v / 64 / 6 * 8 + v / 8 % 8

/-- A VT lies in an area. -/
def Tenant.hasVt (t : Tenant) (v : Nat) : Bool :=
  decide (t.x0 ≤ vtGx v ∧ vtGx v ≤ t.x1 ∧ t.y0 ≤ vtGy v ∧ vtGy v ≤ t.y1)

/-- A VT belongs to a tenant: inside its area and not lost (R327). -/
def State.inTenant (s : State) (t : BitVec 6) (v : Nat) : Bool :=
  match s.tenants.find t.toNat with
  | none => false
  | some a => decide (v < 3072) && a.hasVt v && (s.tile v).cond != .lost

/-- The area covers a die (R91). -/
def Tenant.hasDie (t : Tenant) (d : Nat) : Bool :=
  decide (t.x0 / 8 ≤ d % 6 ∧ d % 6 ≤ t.x1 / 8 ∧ t.y0 / 8 ≤ d / 6 ∧ d / 6 ≤ t.y1 / 8)

/-- The check of R91. -/
def State.dieAllowed (s : State) (t : BitVec 6) (d : Nat) : Bool :=
  match s.tenants.find t.toNat with
  | none => false
  | some a => a.hasDie d

/-! ### Homes (R88-R90) -/

/-- The member dies of an interleave set, ascending (R89). -/
def isetDies (iset : Word) : List Nat := (List.range 48).filter fun d => bit iset d

/-- fold12 of R89: the exclusive-or of 12-bit fields of PA from `lo` on. -/
def fold12 (pa lo : Nat) : Nat := pa / 2 ^ lo % 4096 ^^^ pa / 2 ^ (lo + 12) % 4096 ^^^ pa / 2 ^ (lo + 24) % 4096

/-- PLC and HOME of an entry. -/
def entryPlc (e : Word) : Nat := bits e 8 2
def entryHome (e : Word) : Nat := bits e 10 6
def entryPpn (e : Word) : Nat := bits e 16 40

/-- The home die of an HBM location (R89), with the PA within 52 bits. -/
def homeDie (iset : Word) (plc home pa : Nat) : Nat :=
  let dies := isetDies iset
  match plc with
  | 0 => home
  | 1 => dies.getD (fold12 pa 12 % dies.length) 0
  | _ => dies.getD (fold12 (pa / 512) 12 % dies.length) 0

/-- The place a physical address names through an entry's PLC and HOME (R88, R104). -/
def State.paPlace (s : State) (iset : Word) (plc home pa : Nat) : Place :=
  let panel := pa / 2 ^ 43
  let off := pa % 2 ^ 43
  if panel = s.panel then
    if plc = 3 then cxlPlace (home % 4) off else hbmPlace (homeDie iset plc home pa) (off % 2 ^ 36)
  else panelPlace panel (if plc = 3 then 48 + home % 4 else homeDie iset plc home pa) off

/-! ### Page entries (R107, R108, R312, R367) -/

def entryLeaf (e : Word) : Bool := bit e 1 || bit e 2 || bit e 3

/-- Bytes a leaf of a level maps (R107). -/
def pageBytes (level : Nat) : Nat := 2 ^ (12 + 9 * (level - 1))

/-- A table lies on the panel's own stacks (R88, R89, R109). -/
def State.tableReached (s : State) (e : Word) : Bool :=
  let pa := entryPpn e * 4096
  entryPlc e != 3 && pa / 2 ^ 43 == s.panel && decide (pa % 2 ^ 43 < stackBytes) && (entryPlc e != 0 || decide (entryHome e < 48))

/-- An entry found at a level is valid (R108), for the panel of the state. -/
def State.entryValid (s : State) (e : Word) (level : Nat) : Bool :=
  let ppn := entryPpn e
  let pa := ppn * 4096
  let panel := pa / 2 ^ 43
  let low := pa % 2 ^ 43
  let plc := entryPlc e
  let home := entryHome e
  bit e 0 && bits e 62 2 == 0 && bits e 56 5 == 0 && !(bit e 2 && !bit e 1) && decide (panel < 384) &&
  (if entryLeaf e then
      let size := pageBytes level
      let pages := s.execPages.filter fun p => decide (ppn ≤ p ∧ p < ppn + size / 4096)
      decide (level ≠ 4) && ppn % (size / 4096) == 0 && !(bit e 61 && plc == 3) &&
      (if bit e 3 then pages.length == size / 4096 else true) && !(bit e 2 && !pages.isEmpty) &&
      (if plc = 3 then decide (home < 4) else
        panel != s.panel || (decide (low < stackBytes) && decide (low + size ≤ 0xBF0000000 ∨ 0xC00000000 ≤ low))) &&
      (plc != 0 || decide (home < 48))
    else
      decide (level ≠ 1) && !bit e 4 && !bit e 5 && !bit e 6 && !bit e 7 && !bit e 61 && s.tableReached e)

/-! ### Walks (R107, R110, R111) -/

/-- Who translates: tenant, mode, root, interleave set, and the tile and die whose TLBs serve it. -/
structure Ctx where
  tenant : BitVec 6
  mode : Mode
  ptbase : Word
  iset : Word
  vt : Nat
  die : Nat
  deriving DecidableEq, Repr

def State.ctx (s : State) (h : Nat) : Ctx :=
  let x := s.hart h
  { tenant := x.csr.tenant, mode := x.mode, ptbase := x.csr.ptbase, iset := x.csr.iset, vt := hartVt h
    die := hartDie h }

/-- How a walk ends: a leaf with its level and its own place, an invalid entry, or an uncorrectable table line; or a table
read of it waits for its channel's batch (R97). -/
inductive WalkEnd where
  | leaf (e : Word) (level : Nat) (place : Place)
  | invalid
  | memError
  | waits
  deriving DecidableEq, Repr

/-- The index of a VA at a level (R107). -/
def vaIndex (va level : Nat) : Nat := va / 2 ^ (12 + 9 * (level - 1)) % 512

/-- The walk from a table on, with the pointers it meets (R107, R109, R111). -/
def State.walkFrom (s : State) (c : Ctx) (va : Nat) (tableEntry : Word) : Nat → List (Nat × Word) × WalkEnd
  | 0 => ([], .invalid)
  | level + 1 =>
    let pa := entryPpn tableEntry * 4096 + 8 * vaIndex va (level + 1)
    let p := s.paPlace c.iset (entryPlc tableEntry) (entryHome tableEntry) pa
    if !s.tableReached tableEntry then ([], .invalid)
    else if s.unreadable p then ([], .memError)
    else
      let e := BitVec.ofNat 64 (bytesNat (memBytes s.mem p.key 8))
      if !s.entryValid e (level + 1) then ([], .invalid)
      else if entryLeaf e then ([], .leaf e (level + 1) p)
      else
        let (ps, r) := s.walkFrom c va e level
        ((level + 1, e) :: ps, r)

/-- The places that a walk reads (R110, R111). -/
def State.walkReads (s : State) (c : Ctx) (va : Nat) (tableEntry : Word) : Nat → List Place
  | 0 => []
  | level + 1 =>
    let pa := entryPpn tableEntry * 4096 + 8 * vaIndex va (level + 1)
    let p := s.paPlace c.iset (entryPlc tableEntry) (entryHome tableEntry) pa
    if !s.tableReached tableEntry then []
    else if s.unreadable p then [p]
    else
      let e := BitVec.ofNat 64 (bytesNat (memBytes s.mem p.key 8))
      if !s.entryValid e (level + 1) || entryLeaf e then [p] else p :: s.walkReads c va e level

/-- Where a walk may start: the deepest pointer the die's walk cache holds for the page, else the root (R111). -/
def State.walkStart (s : State) (c : Ctx) (va : Nat) : Word × Nat :=
  let hits := (s.die c.die).walks.filter fun w =>
    w.tenant == c.tenant && va / pageBytes w.level == w.va / pageBytes w.level
  match [2, 3, 4].findSome? (fun l => hits.find? fun w => w.level == l) with
  | some w => (w.entry, w.level - 1)
  | none => (c.ptbase, 4)

/-! ### HBM rows (R97, R98) -/

/-- Channel, bank and row of a stack offset: the spec gives no layout (notes/assumptions/9.md). -/
def hbmChannel (off : Nat) : Nat := off / 128 % 32
def hbmBank (off : Nat) : Nat := off / 4096 % 64
def hbmRow (off : Nat) : Nat := off / 262144

/-- The open row of a bank is this one. -/
def Channel.hits (c : Channel) (bank row : Nat) : Bool := c.openRow.find bank == some row

/-- A bank with a saturated row takes no further activate until that is mitigated (R98). -/
def Channel.blocked (c : Channel) (bank row : Nat) : Bool :=
  !c.hits bank row && c.activations.any fun (k, n) => k / 2 ^ 20 == bank && n == 8191

/-- Refresh management of the saturated rows of a bank is complete (R98). -/
def Channel.mitigate (c : Channel) (bank : Nat) : Channel :=
  { c with activations := c.activations.filter fun (k, n) => !(k / 2 ^ 20 == bank && n == 8191) }

/-- A row is opened: its activation count after one more, saturating at 8,191 (R98). -/
def activate (c : Channel) (bank row : Nat) : Channel :=
  if c.hits bank row then c
  else
    let k := bank * 2 ^ 20 + row
    { c with openRow := c.openRow.put bank row, activations := c.activations.put k (min 8191 (c.activations.get k 0 + 1)) }

/-- A request that a stack serves opens its row; one that the model serves where it arises does so after the mitigation it
may have to wait for (R98). -/
def State.openRow (s : State) (p : Place) : State :=
  match p.home with
  | .hbm d => s.onDie d fun x =>
      let k := hbmChannel p.off
      let c := x.channels.get k default
      let c := if c.blocked (hbmBank p.off) (hbmRow p.off) then c.mitigate (hbmBank p.off) else c
      { x with channels := x.channels.put k (activate c (hbmBank p.off) (hbmRow p.off)) }
  | _ => s

/-- The channel that serves a stack's line. -/
def State.channelOf (s : State) (d : Nat) (p : Place) : Channel := (s.die d).channels.get (hbmChannel p.off) default

/-- A request of a tile's engine or unit, of an I/O die or of the walker may be served now (R97, R98): its bank takes activates, no request of the open
batch hits an open row where it does not, and its source's share of the batch is not used up. When such a request
arrived is open, so it needs no place in the queue (notes/assumptions/68.md). -/
def State.hbmAdmits (s : State) (source : HbmSource) (p : Place) : Bool :=
  match p.home with
  | .hbm d =>
    let c := s.channelOf d p
    let bank := hbmBank p.off
    let row := hbmRow p.off
    !c.blocked bank row && (c.hits bank row || !(c.queue.any fun r => r.marked && c.hits r.bank r.row))
      && (!c.queue.any (·.marked) || decide ((c.batch.filter (· == (source, bank))).length < s.hbm.batchCap))
  | _ => true

/-- The open batch counts such a request. -/
def State.joinBatch (s : State) (source : HbmSource) (p : Place) : State :=
  match p.home with
  | .hbm d => s.onDie d fun x =>
      let k := hbmChannel p.off
      let c := x.channels.get k default
      if c.queue.any (·.marked) then
        { x with channels := x.channels.put k { c with batch := c.batch ++ [(source, hbmBank p.off)] } }
      else x
  | _ => s

/-- A line that a stack reads is corrected or not (R93): a corrected error is counted, and no instruction sees it. -/
def State.countCorrected (s : State) (p : Place) : State :=
  match p.home with
  | .hbm d => if Config.correctedAt p.line s.tick then s.onDie d fun x => { x with corrected := x.corrected + 1 } else s
  | _ => s

/-- A read of the page walker is served (R97, R98); it counts in no counter of line requests (R100). -/
def State.serveWalk (s : State) (p : Place) : State := ((s.joinBatch .walker p).openRow p).countCorrected p

/-! ### Leaves (R110, R111) -/

/-- Room made in a full structure by a choice the spec leaves open (R111). -/
def dropOne {α : Type} (l : List α) (i : Nat) : List α := l.eraseIdx (if l.length = 0 then 0 else i % l.length)

/-- The entry sets A, and D when the access writes, by an atomic update at its home (R110); with `touch` false nothing
is written (R226). A write into the table line is one more write there. -/
def setAccessed (e : Word) (write : Bool) : Word := setBit (if write then setBit e 7 true else e) 6 true

/-- An entry enters a structure of `n` entries; a full one drops an entry the spec leaves open (R111). -/
def State.keepIn {α : Type} (s : State) (l : List α) (n : Nat) (x : α) : List α × State :=
  if l.length < n then (l ++ [x], s)
  else
    let (i, s) := s.freeBelow n
    (dropOne l i ++ [x], s)

/-- A translation enters the tile's TLB (R111). -/
def State.intoTile (s : State) (v : Nat) (t : TlbEntry) : State :=
  let (l, s) := s.keepIn ((s.tile v).tlb.filter fun o => !(o.tenant == t.tenant && t.va / o.size == o.va / o.size)) 64 t
  s.onTile v fun x => { x with tlb := l }

/-- A translation enters the die's TLB (R111). -/
def State.intoDie (s : State) (d : Nat) (t : TlbEntry) : State :=
  let (l, s) := s.keepIn ((s.die d).tlb.filter fun o => !(o.tenant == t.tenant && t.va / o.size == o.va / o.size)) 8192 t
  s.onDie d fun x => { x with tlb := l }

/-- A pointer enters the die's walk cache (R111). -/
def State.intoWalks (s : State) (d : Nat) (w : WalkEntry) : State :=
  let (l, s) := s.keepIn (s.die d).walks 256 w
  s.onDie d fun x => { x with walks := l }

/-- The entry for a page that a TLB holds and that the access may use, and whether it is the tile's own (R110, R111). -/
def State.tlbLeaf (s : State) (c : Ctx) (va : Nat) (write touch : Bool) : Option (TlbEntry × Bool) :=
  let hit (l : List TlbEntry) := (l.find? fun t => t.tenant == c.tenant && va / t.size == t.va / t.size).filter fun t =>
    !touch || (bit t.entry 6 && (!write || bit t.entry 7))
  ((hit (s.tile c.vt).tlb).map (·, true)).orElse fun _ => (hit (s.die c.die).tlb).map (·, false)

/-- The table reads that an access needs (R110, R111). -/
def State.tableReads (s : State) (c : Ctx) (va : Nat) (write touch : Bool) : List Place :=
  if (s.tlbLeaf c va write touch).isSome then []
  else
    let (start, level) := s.walkStart c va
    s.walkReads c va start level

/-- A walk that an access needs waits: not every table read of it may be served now (R97; notes/assumptions/68.md). -/
def State.walkWaits (s : State) (c : Ctx) (va : Nat) (write touch : Bool) : Bool :=
  (s.tableReads c va write touch).any fun p => !s.hbmAdmits .walker p

/-- The table reads that an access needs are served, whatever then becomes of it (R98). -/
def State.walked (s : State) (c : Ctx) (va : Nat) (write touch : Bool) : State :=
  (s.tableReads c va write touch).foldl State.serveWalk s

/-- The leaf for a page with A and D as the access needs them, TLBs filled (R110, R111). With `touch` false nothing is
marked or filled, and the walk does not wait. -/
def State.leafFor (s : State) (c : Ctx) (va : Nat) (write touch : Bool) : State × WalkEnd :=
  match s.tlbLeaf c va write touch with
  | some (t, own) =>
    (if touch && !own then s.intoTile c.vt { t with va := va } else s,
      .leaf t.entry (if t.size = 4096 then 1 else if t.size = 2097152 then 2 else 3) (hbmPlace 0 0))
  | none =>
    if touch && s.walkWaits c va write touch then (s, .waits)
    else
      let (start, level) := s.walkStart c va
      let (ptrs, r) := s.walkFrom c va start level
      let s := s.walked c va write touch
      match r with
      | .leaf e level place =>
        if !touch then (s, r)
        else
          let e' := setAccessed e write
          let s := if e' = e then s else { s with mem := memWrite s.mem place.key (solid (natBytes 8 e'.toNat)) }
          let t : TlbEntry := { tenant := c.tenant, va := va, size := pageBytes level, entry := e' }
          let s := ptrs.foldl (fun s (l, e) => s.intoWalks c.die
            { tenant := c.tenant, root := c.ptbase, va := va, level := l, entry := e }) ((s.intoTile c.vt t).intoDie c.die t)
          (s, .leaf e' level place)
      | _ => (s, r)

/-! ### Locating an access (R91, R105, R112, R388) -/

/-- Where an access goes, and whether its page is marked RDW (R108). -/
structure Located where
  place : Place
  rdw : Bool
  deriving DecidableEq, Repr

def pfCause : AccessKind → Cause
  | .fetch => .fetchPf
  | .load => .loadPf
  | .store => .storePf
  | .amo => .storePf

/-- The page permits the access (R112). -/
def permitted (e : Word) (mode : Mode) : AccessKind → Bool
  | .fetch => bit e 3 && (if mode = .user then bit e 4 else !bit e 4)
  | .load => bit e 1 && (mode != .user || bit e 4)
  | .store => bit e 2 && (mode != .user || bit e 4)
  | .amo => bit e 1 && bit e 2 && (mode != .user || bit e 4)

/-- A paged access of one page (R112): its place, or the fault it raises, or none of them while its walk waits (R97). An
access that faults marks no leaf and fills no TLB; its walk's reads have been made (R98; notes/assumptions/39.md). -/
def State.locatePaged (s : State) (c : Ctx) (va : Word) (kind : AccessKind) (touch : Bool) :
    State × Except (Option Cause) Located :=
  let write := kind = .store || kind = .amo
  if !bit c.ptbase 0 then (s, .error (some (pfCause kind)))
  else
    match s.leafFor c va.toNat write touch with
    | (_, .waits) => (s, .error none)
    | (t, .invalid) => (t, .error (some (pfCause kind)))
    | (t, .memError) => (t, .error (some .memError))
    | (t, .leaf e level _) =>
      if !permitted e c.mode kind then (s.walked c va.toNat write touch, .error (some (pfCause kind)))
      else
        let pa := entryPpn e * 4096 + va.toNat % pageBytes level
        let p := s.paPlace c.iset (entryPlc e) (entryHome e) pa
        match p.home with
        | .hbm d => if s.dieAllowed c.tenant d then (t, .ok { place := p, rdw := bit e 61 })
          else (s.walked c va.toNat write touch, .error (some .tenantViol))
        | _ => (t, .ok { place := p, rdw := bit e 61 })

/-- A window or alias access (R105), or a supervisor hart's physical access (R388), or a paged one; `n` bytes that
lie in one page. -/
def State.locate (s : State) (c : Ctx) (va : Word) (kind : AccessKind) (touch : Bool) :
    State × Except (Option Cause) Located :=
  let fault (e : Cause) : State × Except (Option Cause) Located := (s, .error (some e))
  if c.mode = .firmware then
    let pa := va.toNat
    let sel := pa / 2 ^ 36 % 128
    if pa / 2 ^ 43 ≠ s.panel then fault (pfCause kind)
    else if sel < 48 then
      if pa % 2 ^ 36 < stackBytes then (s, .ok { place := hbmPlace sel (pa % 2 ^ 36), rdw := false })
      else fault (pfCause kind)
    else if sel = 0x40 then
      match s.vtOf c.die (pa / 2 ^ 22 % 128) with
      | some v => (s, .ok { place := slicePlace v (pa % 2 ^ 22), rdw := false })
      | none =>
        if pa / 2 ^ 22 % 128 < 72 then
          (s, .ok { place := sparePlace c.die (pa / 2 ^ 22 % 128) (pa % 2 ^ 22), rdw := false })
        else fault (pfCause kind)
    else fault (pfCause kind)
  else if va.toNat < 2 ^ 48 then s.locatePaged c va kind touch
  else
    let window := decide (va.toNat / 2 ^ 34 = 0xFFFE000000000000 / 2 ^ 34)
    let own := decide (va.toNat / 2 ^ 22 = 0xFFFF000000000000 / 2 ^ 22)
    if window || own then
      let v := if own then c.vt else va.toNat / 2 ^ 22 % 4096
      if !s.inTenant c.tenant v then fault .tenantViol
      else if va.toNat % 2 ^ 22 ≥ sliceBytes then fault (pfCause kind)
      else if kind = .fetch then fault .fetchPf
      else (s, .ok { place := slicePlace v (va.toNat % 2 ^ 22), rdw := false })
    else fault (pfCause kind)

end Sys2Proof.Machine
end

