-- ==== Sys2Proof/Machine/Tree.lean ====
section
/-! DEFINITION. The forwarding tree of the clock: hubs, lanes, parents, depths, and new parents for tiles that have lost
theirs (R341, R342, R347). -/

namespace Sys2Proof.Machine

/-- The lane that feeds a die's hub in the tree of the blob (R341; notes/assumptions/8.md). -/
def blobLane (d : Nat) : ClockLane := if d % 6 ≠ 0 then .die (d - 1) else if d ≠ 0 then .die (d - 6) else .io

def State.laneOf (s : State) (d : Nat) : ClockLane := (s.die d).lane.getD (blobLane d)

/-- Depth of a hub; 33 or more where no root is reached. -/
def State.hubDepthFrom (s : State) : Nat → Nat → Nat
  | 0, _ => 33
  | n + 1, d => match s.laneOf d with
    | .io => 1
    | .die e => s.hubDepthFrom n e + 1

def State.hubDepthOf (s : State) (d : Nat) : Nat := s.hubDepthFrom 48 d

/-- The hub has a clock: it works, its lane does, and so does what feeds the lane. -/
def State.hubClockedFrom (s : State) : Nat → Nat → Bool
  | 0, _ => false
  | n + 1, d => !(s.die d).hubLost && !(s.die d).laneDown && (match s.laneOf d with
    | .io => true
    | .die e => s.hubClockedFrom n e)

def State.hubClocked (s : State) (d : Nat) : Bool := s.hubClockedFrom 48 d

/-- The clock of die d passes through the hub of die e. -/
def State.feeds (s : State) (e : Nat) : Nat → Nat → Bool
  | 0, _ => false
  | n + 1, d => d == e || (match s.laneOf d with
    | .io => false
    | .die f => s.feeds e n f)

/-- The dies fed through a hub, its own first among them. -/
def State.diesUnder (s : State) (e : Nat) : List Nat := (List.range 48).filter (s.feeds e 48)

/-- Depth of a physical tile (R341). -/
def State.depthFrom (s : State) (d : Nat) : Nat → Nat → Nat
  | 0, _ => 33
  | n + 1, p => match (s.pt d p).parent with
    | none => s.hubDepthOf d + 1
    | some q => s.depthFrom d n q + 1

def State.depthOf (s : State) (d p : Nat) : Nat := s.depthFrom d 72 p

/-- Skew class of a depth (R342). -/
def skewClass (depth : Nat) : Nat := (depth - 1) / 8

/-- SKEWCLS (R342). -/
def State.skewcls (s : State) (d p : Nat) : Word :=
  BitVec.ofNat 64 (s.depthOf d p * 256 + skewClass (s.depthOf d p))

/-- The clock of tile p of a die passes through tile q. -/
def State.passes (s : State) (d q : Nat) : Nat → Nat → Bool
  | 0, _ => false
  | n + 1, p => p == q || (match (s.pt d p).parent with
    | none => false
    | some r => s.passes d q n r)

/-- The tiles of a die whose clock passes through one, itself among them. -/
def State.tilesUnder (s : State) (d q : Nat) : List Nat := (List.range 72).filter (s.passes d q 72)

/-! ### New parents (R347) -/

/-- The first of a list whose count is least. -/
def leastOf (f : Nat → Nat) : List Nat → Option Nat
  | [] => none
  | a :: as => match leastOf f as with
    | none => some a
    | some b => if f a ≤ f b then some a else some b

/-- Physical neighbours on the mesh of 9 by 8, lowest PT first. -/
def ptNeighbours (p : Nat) : List Nat :=
  [if 9 ≤ p then some (p - 9) else none, if p % 9 = 0 then none else some (p - 1), if p % 9 = 8 then none else some (p + 1),
    if p < 63 then some (p + 9) else none].filterMap id

/-- The PT forwards a clock: it has one, its forwarder works, and it is powered (R331). -/
def State.forwards (s : State) (d p : Nat) : Bool :=
  let x := s.pt d p
  !x.clockLost && !x.forwarderDead && x.state != .retired && !x.dark

/-- The two tiles that the hub may drive. -/
def besideHub (p : Nat) : Bool := p == 31 || p == 40

/-- The best parent of an orphan: its least deep live neighbour, or the hub; with the depth that gives. -/
def State.bestParent (s : State) (d : Nat) (p : Nat) : Option (Nat × Option Nat) :=
  let near := leastOf (s.depthOf d) ((ptNeighbours p).filter (s.forwards d))
  let tile := near.map fun q => (s.depthOf d q + 1, some q)
  if besideHub p && s.hubClocked d then
    let hub := s.hubDepthOf d + 1
    match tile with
    | some (n, q) => if hub ≤ n then some (hub, none) else some (n, q)
    | none => some (hub, none)
  else tile

/-- Tiles of a die without a clock that the tree should hold (R341). -/
def State.orphans (s : State) (d : Nat) : List Nat :=
  (List.range 72).filter fun p => (s.pt d p).clockLost && (s.pt d p).state != .retired

/-- The orphan of a die that can be given the least depth, at most 32, with its parent; ties to the lowest PT. -/
def State.nextOrphan (s : State) (d : Nat) : Option (Nat × Option Nat) :=
  let found := (s.orphans d).filterMap fun p => (s.bestParent d p).map fun b => (p, b.1, b.2)
  ((found.filter fun x => decide (x.2.1 ≤ 32)).foldl (fun b x => match b with
    | none => some x
    | some (y : Nat × Nat × Option Nat) => if x.2.1 < y.2.1 then some x else some y) none).map fun x => (x.1, x.2.2)

/-- Orphans are given parents one after another, the least deep first. -/
def State.adopt (s : State) (d : Nat) : Nat → State
  | 0 => s
  | n + 1 =>
    match s.nextOrphan d with
    | none => s
    | some (p, q) => (s.onPt d p fun x => { x with clockLost := false, parent := q }).adopt d n

/-- Tiles lose their clock. -/
def State.unclock (s : State) (d : Nat) (ps : List Nat) : State :=
  ps.foldl (fun s p => s.onPt d p fun x => { x with clockLost := true }) s

/-- The tree of a die at bring-up: that of the blob, but for the tiles whose path there meets a retired one (R341,
R387). -/
def State.bootTree (s : State) (d : Nat) : State :=
  let out := (List.range 72).filter fun p => (s.pt d p).state == .retired
  if out.isEmpty then s else (s.unclock d (out.flatMap (s.tilesUnder d))).adopt d 72

end Sys2Proof.Machine
end

