-- ==== Sys2Proof/Machine/CsrOps.lean ====
section
/-! DEFINITION. Control and status registers: what each reads as and what a write to it does (R4, R5, R34-R37, R90,
R109, R139, R140, R164, R190, R206, R209, R210, R221, R223, R232, R289, R310, R314, R320, R324, R332-R335, R349, R354,
R355). -/

namespace Sys2Proof.Machine

/-! ### Interrupt requests (R292) -/

/-- The hart holds an armed watch (R269). -/
def State.hasWatch (s : State) (h : Nat) : Bool := (s.tile (hartVt h)).watches.any fun w => w.hart == h

/-- Interrupt 0x80 + n is requested for a hart, with the TVAL it carries (R287, R292); while watches are armed a request
whose KIE bit is set is a spurious event of LWAIT (R270). -/
def State.requestInterrupt (s : State) (h n : Nat) (value : Word) : State :=
  let armed := s.hasWatch h
  let now := s.cycle (hartVt h)
  s.onHart h fun x =>
    { x with
      csr := { x.csr with kip := x.csr.kip ||| BitVec.ofNat 7 (2 ^ n) }
      irq :=
        { throttle := if n = 2 then value else x.irq.throttle
          preemptAt := if n = 1 && !x.csr.kip.getLsbD 1 then now else x.irq.preemptAt
          shed := if n = 4 then value else x.irq.shed
          cancel := if n = 5 then value else x.irq.cancel }
      lwaitSpurious := x.lwaitSpurious || (armed && (n == 6 || bit x.csr.kie n)) }

/-! ### Register words -/

def Csrs.kstatus (c : Csrs) : Word :=
  BitVec.ofNat 64 (c.stallchk.toNat * 256 + c.pm.toNat * 16 + c.sp.toNat * 8 + c.pie.toNat * 2 + c.ie.toNat)

def Csrs.ucause (c : Csrs) : Word := BitVec.ofNat 64 (c.uh.toNat * 2 ^ 63 + c.ucode.toNat)

def Csrs.fstatus (c : Csrs) : Word :=
  BitVec.ofNat 64 (c.fTarget.toNat * 2 ^ 14 + c.fPie.toNat * 2 + c.fIe.toNat)

def Csrs.equota (c : Csrs) : Word := BitVec.ofNat 64 (c.equotaUsed.toNat * 2 ^ 32 + c.equotaLimit.toNat)

def LeaseState.code : LeaseState → Nat
  | .none => 0
  | .req => 1
  | .held => 2
  | .spent => 3

/-- MSTATE (R209). -/
def Hart.mstate (x : Hart) : Word :=
  BitVec.ofNat 64 (x.disc.toNat * 2 ^ 21 + x.lease.code * 2 ^ 19 + x.sat.toNat * 2 ^ 18 + x.accDirty.toNat * 2 ^ 17
    + x.accValid.toNat * 2 ^ 16 + x.mDirty.toNat * 2 ^ 8 + x.mValid.toNat)

/-- SENDQ (R232). -/
def Hart.sendqWord (x : Hart) : Word := BitVec.ofNat 64 (x.csr.inld.toNat * 256 + x.sendq.length)

/-- DBGCTL (R349): HALTED and SFUP report the debug module's state. -/
def Hart.dbgctl (x : Hart) : Word :=
  setBit (setBit x.csr.dbgctl 7 x.halted.isSome) 1 (!x.withdrawnSfu.isEmpty)

def Tile.hring (t : Tile) (n : Fin 4) : Word :=
  BitVec.ofNat 64 ((t.hringNext[n.val]).toNat * 256 + (t.hringValid[n.val]).toNat)

/-- PTST (R310). -/
def PtState.code : PtState → Nat
  | .inService => 0
  | .eclipse => 1
  | .readySpare => 2
  | .retired => 3

/-- Ready spares of a die, lowest PT first (R15). -/
def State.readySpares (s : State) (d : Nat) : List Nat :=
  (List.range 72).filter fun p => (s.pt d p).state == .readySpare

/-- VMAP (R310). -/
def State.vmapWord (s : State) (d : Nat) : Word :=
  let x := s.die d
  BitVec.ofNat 64 (x.lost.toNat * 2 ^ 40 + (s.readySpares d).length * 2 ^ 32
    + (s.pt d x.ptq.toNat).state.code * 2 ^ 28 + x.ptq.toNat * 2 ^ 20
    + s.ptOf (d * 64 + x.vidx.toNat) * 2 ^ 8 + x.vidx.toNat)

def Pt.droopctl (p : Pt) : Word :=
  BitVec.ofNat 64 (p.trips.toNat * 2 ^ 32 + p.halveLen.toNat * 2 ^ 16 + p.stretchLen.toNat)

/-! ### The map (R37) -/

/-- The U- and K-range CSRs of a hart, and the F-range CSRs of a hart and of its physical tile; none where R37 lists no
register. `die` and `pt` place the physical tile. R14 numbers the tile harts only: HARTID reads a supervisor hart's number in
the model there (notes/assumptions/80.md). -/
def State.csrValue (s : State) (h die pt : Nat) (n : Nat) : Option Word :=
  let x := s.hart h
  let c := x.csr
  let t := s.tile (hartVt h)
  let p := s.pt die pt
  match n with
  | 0x004 => some (c.fflags.zeroExtend 64)
  | 0x005 => some (c.frm.zeroExtend 64)
  | 0x008 => some (c.vtype.zeroExtend 64)
  | 0x010 => some c.tags
  | 0x011 => some c.tagerr
  | 0x018 => some c.mshape
  | 0x019 => some x.mstate
  | 0x020 => some (BitVec.ofNat 64 (s.cycle (hartVt h)))
  | 0x021 => some (BitVec.ofNat 64 c.instret)
  | 0x028 => some (BitVec.ofNat 64 h)
  | 0x029 => some (c.tenant.zeroExtend 64)
  | 0x02A => some (c.launchid.zeroExtend 64)
  | 0x030 => some (t.hring 0)
  | 0x031 => some (t.hring 1)
  | 0x032 => some (t.hring 2)
  | 0x033 => some (t.hring 3)
  | 0x038 => some (c.hrsel.zeroExtend 64)
  | 0x039 => some (((t.hringData[bits (c.hrsel.zeroExtend 64) 4 2 % 4]'(Nat.mod_lt _ (by decide)))[
      c.hrsel.toNat % 16]'(Nat.mod_lt _ (by decide))).zeroExtend 64)
  | 0x050 => some (c.chprio.zeroExtend 64)
  | 0x051 => some x.sendqWord
  | 0x052 => some (BitVec.ofNat 64 c.replyres)
  | 0x053 => some (c.retrymax.zeroExtend 64)
  | 0x054 => some (c.retrygap.zeroExtend 64)
  | 0x060 => some c.utvec
  | 0x061 => some c.uepc
  | 0x062 => some c.ucause
  | 0x063 => some c.utval
  | 0x064 => some c.uscratch
  | 0x400 => some c.kstatus
  | 0x401 => some c.ktvec
  | 0x402 => some c.kepc
  | 0x403 => some (c.kcause.zeroExtend 64)
  | 0x404 => some c.ktval
  | 0x405 => some c.kscratch
  | 0x406 => some c.kie
  | 0x407 => some (c.kip.zeroExtend 64)
  | 0x408 => some c.udeleg
  | 0x409 => some c.kdeleg
  | 0x410 => some c.ptbase
  | 0x411 => some c.iset
  | 0x418 => some c.sigbase
  | 0x419 => some c.savemap
  | 0x420 => some (t.slottabNext.getD t.slottab)
  | 0x421 => some (t.leasen.zeroExtend 64)
  | 0x422 => some (t.ringown.zeroExtend 64)
  | 0x428 => some (t.quota.zeroExtend 64)
  | 0x429 => some (t.qwin.zeroExtend 64)
  | 0x430 => some (c.pclass.zeroExtend 64)
  | 0x431 => some c.equota
  | 0x438 => some c.msave
  | 0x440 => some t.htbase
  | 0x441 => some (flag c.tenpermInline)
  | 0x448 => some (t.llint.zeroExtend 64)
  | 0x480 => some (s.die die).hbmloc
  | 0x481 => some (s.die die).hbmrem
  | 0x482 => some (s.die die).hbmsrv
  | 0x488 => some t.accok
  | 0x489 => some t.accref
  | 0x48A => some t.accflu
  | 0xC10 => some (c.fetchduty.zeroExtend 64)
  | 0xC11 => some p.droopth
  | 0xC12 => some p.droopctl
  | 0xC18 => some (p.stress.zeroExtend 64)
  | 0xC19 => some (p.errors.zeroExtend 64)
  | 0xC1A => some p.agelim
  | 0xC20 => some (s.vmapWord die)
  | 0xC28 => some (c.ckptctl.zeroExtend 64)
  | 0xC30 => some 0
  | 0xC38 => some (s.skewcls die pt)
  | 0xC40 => some c.tracectl
  | 0xC41 => some x.dbgctl
  | 0xC48 => some (s.die die).sampctl
  | _ =>
    if h1 : 0x040 ≤ n ∧ n < 0x048 then some (t.ringcfg[n - 0x040]'(by omega))
    else if h2 : 0x048 ≤ n ∧ n < 0x050 then some (t.ringptr[n - 0x048]'(by omega))
    else none

/-- F-range CSRs of a supervisor hart itself (R37, R289). -/
def Hart.supCsr (x : Hart) (n : Nat) : Option Word :=
  match n with
  | 0xC00 => some x.csr.fstatus
  | 0xC01 => some x.csr.ftvec
  | 0xC02 => some x.csr.fepc
  | 0xC03 => some (x.csr.fcause.zeroExtend 64)
  | 0xC04 => some x.csr.ftval
  | _ => none

/-! ### Writes with effects of their own -/

/-- A write of MSHAPE (R34): reserved shapes store 0, a changed byte clears its register and marks it dirty. -/
def Hart.writeMshape (x : Hart) (v : Word) : Hart :=
  let byte (i : Nat) : Nat :=
    let b := bits v (8 * i) 8
    if b / 32 ≥ 4 ∨ b % 32 ≥ 17 then 0 else b
  let new := BitVec.ofNat 64 ((List.range 8).foldl (fun a i => a + byte i * 2 ^ (8 * i)) 0)
  let changed (i : Nat) : Bool := bits new (8 * i) 8 != bits x.csr.mshape (8 * i) 8
  { x with
    csr := { x.csr with mshape := new }
    m := Vector.ofFn fun i => if changed i.val then Vector.replicate 16 0 else x.m[i.val]
    mDirty := x.mDirty ||| BitVec.ofNat 8 ((List.range 8).foldl (fun a i => a + (changed i).toNat * 2 ^ i) 0) }

/-- A write of MSAVE (R210): CLAIM before INVAL. -/
def Hart.writeMsave (x : Hart) (v : Word) : Hart :=
  let x := { x with csr := { x.csr with msave := v &&& ~~~(63#64) } }
  if bit v 1 then
    { x with mValid := 0xFF, accValid := true, mDirty := 0, accDirty := false, disc := false, sat := bit v 2 }
  else if bit v 0 then { x with mValid := 0, accValid := false }
  else x

/-- Matrix commands that a cleared ring enable discards (R206): queued MMAs that name the ring. -/
def ArrayCmd.namesRing (c : ArrayCmd) (n : Nat) : Bool :=
  match c.op with
  | .mma _ ra rb _ _ _ => ra == n || rb == n
  | _ => false

/-- Every source counts from 0 again once a multiple of QWIN has passed (R221). -/
def Tile.freshQuota (t : Tile) (cycle : Nat) : Tile :=
  let w := max 256 t.qwin.toNat
  { t with accepted := if cycle / w = t.quotaAt / w then t.accepted else [], quotaAt := cycle }

/-- A card in the window that feeds a ring (R141): it waits or writes, and is not complete. -/
def WindowCard.feeds (w : WindowCard) (n : Nat) : Bool :=
  let dw0 := w.card.dw.getD 0 0
  bits dw0 0 8 == 5 && bits dw0 21 3 == n

/-- A write of RINGCFGn by a hart (R140), with the discards of R206 and the card faults of R141. -/
def State.writeRingcfg (s : State) (h n : Nat) (v : Word) : State :=
  if hn : n < 8 then
    let t := s.tile (hartVt h)
    let old := t.ringcfg[n]
    let new := v &&& 0x000000FFFF3FF000
    let en := bit new 39
    let entries := bits new 32 7
    let esize := bits new 24 8
    let base := bits new 12 10 * 4096
    if t.ringown.toNat / 4 ^ n % 4 ≠ hartSlot h then s
    else if bit old 39 ∧ en ∧ new ≠ old then s
    else if en ∧ (entries < 2 ∨ 64 < entries ∨ esize = 0 ∨ base + entries * esize * 64 > sliceBytes) then s
    else
      let t := { t with ringcfg := t.ringcfg.set n new }
      if en && !bit old 39 then s.setTile (hartVt h) { t with ringptr := t.ringptr.set n 0 }
      else if !en && bit old 39 then
        let gone := t.queue.filter (·.namesRing n)
        let t := { t with
          queue := t.queue.filter fun c => !c.namesRing n
          window := t.window.map fun w =>
            if w.feeds n && w.fail.isNone then { w with fail := some (.ringFault, 0) } else w }
        gone.foldl (fun s c => s.onHart c.hart fun x => { x with disc := true }) (s.setTile (hartVt h) t)
      else s.setTile (hartVt h) t
  else s

/-- A write of RINGPTRn (R140). -/
def State.writeRingptr (s : State) (h n : Nat) (v : Word) : State :=
  if hn : n < 8 then
    let t := s.tile (hartVt h)
    if t.ringown.toNat / 4 ^ n % 4 ≠ hartSlot h ∨ bit t.ringcfg[n] 39 then s
    else s.setTile (hartVt h) { t with ringptr := t.ringptr.set n (v &&& 0xFFFF) }
  else s

/-- A write of LEASEN (R190, R191). -/
def State.writeLeasen (s : State) (v : Nat) (w : Word) : State :=
  let n := bits w 0 8
  if n = 0 then s
  else
    let s := s.onTile v fun t => { t with leasen := BitVec.ofNat 8 n }
    (List.range 4).foldl (fun s i =>
      let x := s.hart (v * 4 + i)
      if x.lease == .held && decide (n ≤ x.leaseCount) then s.setHart (v * 4 + i) { x with lease := .spent } else s) s

/-- A write of HRINGn or through HRDATA by a hart; one to another hart's ring is ignored (R35). -/
def State.writeHring (s : State) (h n : Nat) (v : Word) : State :=
  if n = hartSlot h then
    s.onTile (hartVt h) fun t => { t with
      hringNext := t.hringNext.setIfInBounds n (BitVec.ofNat 4 (bits v 8 4))
      hringValid := t.hringValid.setIfInBounds n (BitVec.ofNat 5 (min 16 (bits v 0 5))) }
  else s

def State.writeHrdata (s : State) (h : Nat) (v : Word) : State :=
  let sel := (s.hart h).csr.hrsel.toNat
  if sel / 16 % 4 = hartSlot h then
    s.onTile (hartVt h) fun t => { t with
      hringData := onAt t.hringData (sel / 16 % 4) fun r => r.setIfInBounds (sel % 16) (v.truncate 32) }
  else s

/-- A write of FETCHDUTY (R334): above 16 stores 16; a lower value requests the throttle notice. -/
def State.writeFetchduty (s : State) (h : Nat) (v : Word) : State :=
  let d := min 16 (bits v 0 5)
  let old := (s.hart h).csr.fetchduty.toNat
  let s := s.onHart h fun x => { x with csr := { x.csr with fetchduty := BitVec.ofNat 5 d } }
  if d < old then s.requestInterrupt h 2 (BitVec.ofNat 64 d) else s

/-- A write of TRACECTL (R354). -/
def Hart.writeTracectl (x : Hart) (v : Word) : Hart :=
  let old := x.csr.tracectl
  let kept := if bit v 0 && !bit old 0 then 0 else old &&& 0x3FF0010
  { x with csr := { x.csr with tracectl := (v &&& 0x2F) ||| kept } }

/-- A hart leaves debug halt, for one instruction under STEP (R351, R352); its withdrawn SFU entries re-enter when it may
issue (R183). -/
def Hart.debugResume (x : Hart) : Hart :=
  if x.halted.isSome then { x with halted := none, stepping := bit x.csr.dbgctl 6 } else x

/-- A write of DBGCTL (R349). -/
def State.writeDbgctl (s : State) (h : Nat) (v : Word) : State :=
  let s := s.onHart h fun x =>
    let x := { x with csr := { x.csr with dbgctl := v &&& 0x70 } }
    if bit v 3 then x.debugResume else x
  if bit v 2 then s.requestInterrupt h 6 0 else s

/-- DIAGINJ KIND 1: a flip armed on a bank (R324). -/
def State.injectAcc (s : State) (v bank row col b : Nat) : State :=
  if b < 32 then
    s.onTile v fun t => { t with
      banks := onAt t.banks bank fun k => { k with inject := some (row % 64 * 64 + col % 64, b) } }
  else s

/-- DIAGINJ KIND 2: a bit of the SRAM flips at once, its parity unchanged (R324). -/
def State.injectSram (s : State) (v off b : Nat) : State :=
  let off := off % 2 ^ 22 / 8 * 8
  let key := sliceKey v (off + b % 64 / 8)
  let s := { s with mem := memPut s.mem key (memByte s.mem key ^^^ BitVec.ofNat 8 (2 ^ (b % 8))) }
  s.onTile v fun t =>
    { t with flips := if t.flips.contains (off, b % 64) then t.flips.filter (· != (off, b % 64))
        else t.flips ++ [(off, b % 64)] }

/-- DIAGINJ KIND 3: the hart's next block check is corrupted (R324). -/
def State.injectSignature (s : State) (h : Nat) : State :=
  s.onHart h fun x => { x with checker := { x.checker with corrupt := true } }

/-- A write of DIAGINJ to a physical tile (R324). -/
def State.writeDiaginj (s : State) (die pt : Nat) (w : Word) : State :=
  match s.vtOf die pt with
  | none => s
  | some v =>
    match bits w 60 4 with
    | 1 => s.injectAcc v (bits w 58 2) (bits w 38 6) (bits w 32 6) (bits w 0 6)
    | 2 => if bits w 32 22 % 8 = 0 then s.injectSram v (bits w 32 22) (bits w 0 6) else s
    | 3 => s.injectSignature (v * 4 + bits w 58 2)
    | _ => s

/-- The header of a FAULT message: class 0x0F, VNET 2, with its LEN (R238). -/
def faultHeader (len : Nat) (tenant : BitVec 6) (launch : BitVec 16) (vt slot : Nat) : Word :=
  BitVec.ofNat 64 (len * 2 ^ 48 + launch.toNat * 2 ^ 32 + 2 * 2 ^ 28 + tenant.toNat * 2 ^ 22 + slot * 2 ^ 20
    + vt % 4096 * 2 ^ 8 + 0x0F)

/-- Kinds of the entries that a die's log has about its tiles (R309, R385); the form is the model's
(notes/assumptions/73.md). -/
inductive DieNote where
  /-- A test of the array failed: the PT, the bank and the row. -/
  | screenFail (pt bank row : Nat)
  /-- A VT was replayed to a PT. -/
  | replay (vt pt : Nat)
  /-- A checkpoint of a VT was forced. -/
  | forcedCkpt (vt : Nat)
  /-- A PT was retired. -/
  | retirement (pt : Nat)
  /-- A self-test of a PT failed in a part, at a time. -/
  | testFail (pt : Nat) (part : Word) (tick : Nat)
  deriving DecidableEq, Repr

def DieNote.words : DieNote → List Word
  | .screenFail pt bank row => [1, BitVec.ofNat 64 pt, BitVec.ofNat 64 bank, BitVec.ofNat 64 row]
  | .replay vt pt => [2, BitVec.ofNat 64 vt, BitVec.ofNat 64 pt]
  | .forcedCkpt vt => [3, BitVec.ofNat 64 vt]
  | .retirement pt => [4, BitVec.ofNat 64 pt]
  | .testFail pt part tick => [5, BitVec.ofNat 64 pt, part, BitVec.ofNat 64 tick]

/-- An entry of a die's log about its tiles. -/
def State.logNote (s : State) (d : Nat) (n : DieNote) : State :=
  s.onDie d fun x => { x with
    faultLog := x.faultLog ++ [{ header := faultHeader n.words.length 0 0 0xFFF 0, payload := n.words }] }

/-- A PT is retired: it is off for good (R15, R331), so no wake of it goes on and what it forwarded the clock to has none until
the die re-roots (R341, R345, R347). -/
def State.retirePt (s : State) (d p : Nat) : State :=
  let below := (s.tilesUnder d p).filter fun q => q != p && !(s.pt d q).clockLost
  let s := s.onPt d p fun x => { x with state := .retired, waking := false, wakeWaits := false }
  let s := if below.isEmpty then s else (s.unclock d below).onDie d fun x => { x with rerooting := true }
  s.logNote d (.retirement p)

/-- A PT is marked for retirement (R325); a ready spare so marked is retired at once. -/
def State.markRetire (s : State) (die pt : Nat) : State :=
  let s := s.onPt die pt fun p => { p with marked := true }
  if (s.pt die pt).state == .readySpare then s.retirePt die pt else s

/-- A count that has reached its nonzero limit marks its PT (R325). -/
def State.checkAge (s : State) (die pt : Nat) : State :=
  let p := s.pt die pt
  let errLim := bits p.agelim 0 16
  let stressLim := bits p.agelim 16 48
  if (errLim ≠ 0 ∧ errLim ≤ p.errors.toNat) ∨ (stressLim ≠ 0 ∧ stressLim ≤ p.stress.toNat) then s.markRetire die pt else s

/-- AGEERR counts one more error on the physical tile of a VT (R325). -/
def State.countError (s : State) (v : Nat) : State :=
  (s.onPt (vtDie v) (s.ptOf v) fun p => { p with errors := p.errors + 1 }).checkAge (vtDie v) (s.ptOf v)

/-- A write of VMAP (R310): CMD 1 rotates VIDX at the next rotation, 2 marks PTQ. -/
def State.writeVmap (s : State) (die : Nat) (w : Word) : State :=
  let s := s.onDie die fun x => { x with
    vidx := BitVec.ofNat 6 (bits w 0 6)
    ptq := if bits w 20 7 ≤ 71 then BitVec.ofNat 7 (bits w 20 7) else x.ptq }
  match bits w 18 2 with
  | 1 => s.onDie die fun x => { x with rotateNext := some (die * 64 + x.vidx.toNat) }
  | 2 => s.markRetire die (s.die die).ptq.toNat
  | _ => s

/-- A write to a CSR of R37 with the effects its rule gives it; read-only registers ignore writes (R4, R36). -/
def State.writeCsr (s : State) (h die pt : Nat) (n : Nat) (v : Word) : State :=
  let onCsr (f : Csrs → Csrs) : State := s.onHart h fun x => { x with csr := f x.csr }
  let onTile (f : Tile → Tile) : State := s.onTile (hartVt h) f
  match n with
  | 0x004 => onCsr fun c => { c with fflags := v.truncate 5 }
  | 0x005 => onCsr fun c => { c with frm := if bits v 0 3 ≤ 4 then v.truncate 3 else c.frm }
  | 0x008 => onCsr fun c => { c with vtype := if bits v 0 4 = 15 then c.vtype else v.truncate 4 }
  | 0x018 => s.onHart h fun x => x.writeMshape v
  | 0x030 => s.writeHring h 0 v
  | 0x031 => s.writeHring h 1 v
  | 0x032 => s.writeHring h 2 v
  | 0x033 => s.writeHring h 3 v
  | 0x038 => onCsr fun c => { c with hrsel := v.truncate 6 }
  | 0x039 => s.writeHrdata h v
  | 0x050 => onCsr fun c => { c with chprio := v.truncate 8 }
  | 0x053 => onCsr fun c => { c with retrymax := v.truncate 16 }
  | 0x054 => onCsr fun c => { c with retrygap := BitVec.ofNat 32 (max 16 (bits v 0 32)) }
  | 0x060 => onCsr fun c => { c with utvec := v &&& ~~~(3#64) }
  | 0x061 => onCsr fun c => { c with uepc := v }
  | 0x062 => onCsr fun c => { c with uh := bit v 63, ucode := v.truncate 8 }
  | 0x063 => onCsr fun c => { c with utval := v }
  | 0x064 => onCsr fun c => { c with uscratch := v }
  | 0x400 => onCsr fun c =>
      { c with stallchk := bit v 8, pm := if bits v 4 2 ≤ 1 then BitVec.ofNat 2 (bits v 4 2) else c.pm
               sp := bit v 3, pie := bit v 1, ie := bit v 0 }
  | 0x401 => onCsr fun c => { c with ktvec := v &&& ~~~(3#64) }
  | 0x402 => onCsr fun c => { c with kepc := v }
  | 0x403 => onCsr fun c => { c with kcause := v.truncate 8 }
  | 0x404 => onCsr fun c => { c with ktval := v }
  | 0x405 => onCsr fun c => { c with kscratch := v }
  | 0x406 =>
      let armed := s.hasWatch h
      s.onHart h fun x => { x with
        csr := { x.csr with kie := v }
        lwaitSpurious := x.lwaitSpurious || (armed && (x.csr.kip.zeroExtend 64 &&& v) != 0) }
  | 0x408 => onCsr fun c => { c with udeleg := v }
  | 0x409 => onCsr fun c => { c with kdeleg := v }
  | 0x410 => onCsr fun c => { c with ptbase := if bits v 8 2 = 3 then c.ptbase else v &&& 0x00FFFFFFFFFFFF01 }
  | 0x411 => onCsr fun c =>
      { c with iset := if [1, 2, 4, 8, 16, 32, 48].contains (isetDies v).length then v &&& 0xFFFFFFFFFFFF else c.iset }
  | 0x418 => onCsr fun c => { c with sigbase := v &&& ~~~(6#64) }
  | 0x419 => onCsr fun c => { c with savemap := v &&& ~~~(7#64) }
  | 0x420 => onTile fun t => { t with slottabNext := some (v &&& 0xBBBBBBBBBBBBBBBB) }
  | 0x421 => s.writeLeasen (hartVt h) v
  | 0x422 => onTile fun t => { t with ringown := v.truncate 16 }
  | 0x428 => onTile fun t => { t with quota := v.truncate 16 }
  | 0x429 => onTile fun t =>
      { t.freshQuota (s.cycle (hartVt h)) with
        qwin := BitVec.ofNat 32 (max 256 (bits v 0 32)), quotaAt := s.cycle (hartVt h) - 1 }
  | 0x430 => onCsr fun c => { c with pclass := v.truncate 3 }
  | 0x431 => s.onHart h fun x =>
      let limit : BitVec 32 := v.truncate 32
      { x with csr := { x.csr with equotaLimit := limit }
               barred := limit != 0 && (x.barred || decide (limit ≤ x.csr.equotaUsed)) }
  | 0x438 => s.onHart h fun x => x.writeMsave v
  | 0x440 => onTile fun t => { t with htbase := v &&& ~~~(0x7FF#64) }
  | 0x441 => onCsr fun c => { c with tenpermInline := bit v 0 }
  | 0x448 => onTile fun t =>
      { t with llint := if bits v 0 32 = 0 then 0 else BitVec.ofNat 32 (max 256 (bits v 0 32)) }
  | 0x480 => s.onDie die fun x => { x with hbmloc := v }
  | 0x481 => s.onDie die fun x => { x with hbmrem := v }
  | 0x482 => s.onDie die fun x => { x with hbmsrv := v }
  | 0x488 => onTile fun t => { t with accok := v }
  | 0x489 => onTile fun t => { t with accref := v }
  | 0x48A => onTile fun t => { t with accflu := v }
  | 0xC10 => s.writeFetchduty h v
  | 0xC11 => s.onPt die pt fun p => { p with droopth := v &&& 31 }
  | 0xC12 => s.onPt die pt fun p =>
      { p with trips := BitVec.ofNat 32 (bits v 32 32), halveLen := BitVec.ofNat 16 (bits v 16 16)
               stretchLen := v.truncate 8 }
  | 0xC1A => s.onPt die pt fun p => { p with agelim := v }
  | 0xC20 => s.writeVmap die v
  | 0xC28 =>
      let i := bits v 0 32
      let i := if i = 0 then 0 else max 10500 i
      let last := (s.tile (hartVt h)).lastCkpt
      s.onHart h fun x => { x with csr := { x.csr with ckptctl := BitVec.ofNat 32 i }, ckptDue := last + i }
  | 0xC30 => s.writeDiaginj die pt v
  | 0xC40 => s.onHart h fun x => x.writeTracectl v
  | 0xC41 => s.writeDbgctl h v
  | 0xC48 => s.onDie die fun x => { x with sampctl := v &&& 0xFFFFFF01 }
  | _ =>
    if 0x040 ≤ n ∧ n < 0x048 then s.writeRingcfg h (n - 0x040) v
    else if 0x048 ≤ n ∧ n < 0x050 then s.writeRingptr h (n - 0x048) v
    else s

/-- A write to a supervisor hart's own F-range CSR (R289). -/
def Hart.writeSupCsr (x : Hart) (n : Nat) (v : Word) : Hart :=
  match n with
  | 0xC00 => { x with csr := { x.csr with
      fTarget := if bits v 14 9 ≤ 287 then BitVec.ofNat 9 (bits v 14 9) else x.csr.fTarget
      fPie := bit v 1, fIe := bit v 0 } }
  | 0xC01 => { x with csr := { x.csr with ftvec := v &&& ~~~(3#64) } }
  | 0xC02 => { x with csr := { x.csr with fepc := v } }
  | 0xC03 => { x with csr := { x.csr with fcause := v.truncate 8 } }
  | 0xC04 => { x with csr := { x.csr with ftval := v } }
  | _ => x

end Sys2Proof.Machine
end

