-- ==== Sys2Proof/Machine/Home.lean ====
section
/-! DEFINITION. What happens at the home of a location and on the way to it: the egress gate, sequence numbers, writes,
full/empty bits, waiting loads, watches, atomics, the inbound log, the HBM controllers (R87, R92, R93, R97-R100,
R133-R137, R142, R143, R215, R216, R269, R315, R318, R319). -/

namespace Sys2Proof.Machine

/-! ### The inbound log (R315) -/

/-- A message that left its channel for another tile's, as the inbound log names it. -/
def movedAway : Nat := 8

/-- Bytes that an entry of the inbound log takes (R315); what the model adds to the log takes none (notes/assumptions/45.md). -/
def LogBody.bytes : LogBody → Nat
  | .placed _ _ _ => 96
  | .answer (.accBounce _) => 96
  | .answer _ => 32
  | .sliceWrite _ bs _ => 32 + (if bs.length = 64 then 64 else 128)
  | .drainRow _ _ => 160
  | LogBody.data _ _ _ _ => 160
  | .result _ _ => 40
  | .dispatch _ c => if c = movedAway then 0 else 32
  | .barrierOp _ _ => 0
  | .taken _ _ _ _ _ _ => 160
  | .landing _ _ _ _ _ => 160
  | .mreqLine _ _ _ _ _ => 160
  | .completion _ _ _ _ => 96

def Tile.logBytes (t : Tile) : Nat := (t.log.map fun e => e.body.bytes).sum

/-- The next entry would not fit in the 128 KiB of the log (R132, R316). -/
def Tile.logFull (t : Tile) : Bool := decide (131072 < t.logBytes + 160)

/-- How a tile meets items from outside. -/
inductive Gate where
  /-- Everything is taken as usual. -/
  | takes
  /-- Refusable items are refused, the others wait (R308, R316, R346). -/
  | refuses
  /-- Everything waits (R322). -/
  | waits
  deriving DecidableEq, Repr

def Tile.gate (t : Tile) : Gate :=
  match t.cond with
  | .running => if t.logFull then .refuses else .takes
  | .drain => if t.logFull then .refuses else .takes
  | .hold => .refuses
  | .pause => .refuses
  | .rebuilding _ => .refuses
  | .replay => .waits
  | .lost => .waits

/-- An event that takes effect at a tile is appended to its inbound log; the entry that takes it to 96 KiB requests
interrupt 0x83 for every hart of the tile (R315, R316). -/
def State.logAt (s : State) (v : Nat) (src : Nat) (body : LogBody) : State :=
  if 3072 ≤ v then s
  else
    let slots := (List.range 4).map fun i => v * 4 + i
    let counts := slots.map fun h => (s.hart h).csr.instret
    let n := (s.tile v).logBytes
    let s := s.onTile v fun t => { t with
      log := t.log ++ [{ body := body, src := src, instret := counts, seq := t.logged }], logged := (t.logged + 1) % 2 ^ 32
      recent := match body with
        | .placed _ _ m => BitVec.ofNat 16 (bits m.header 32 16) :: t.recent
        | _ => t.recent }
    if n < 98304 ∧ 98304 ≤ n + body.bytes then slots.foldl (fun s h => s.requestInterrupt h 3 0) s else s

/-- An item meets a VT: in a rotation's pause it is captured at the old tile, later it has been forwarded (R308). -/
def State.capture (s : State) (v : Nat) (c : Captured) : State :=
  let t := s.tile v
  if t.cond == .pause then
    if t.captured.contains c then s else s.onTile v fun t => { t with captured := t.captured ++ [c] }
  else if t.captured.contains c then s.onTile v fun t => { t with captured := t.captured.filter (· != c) }
  else s

/-- A captured item has still to reach its VT. -/
def State.underWay (s : State) (c : Captured) : Bool :=
  match c with
  | .item id => s.net.any (fun p => p.id == id) || s.harts.any fun (_, x) => x.posted.any fun w => w.id == id
  | .line card line => s.tiles.any fun (_, t) => t.cardWrites.any fun w => w.card == card && w.line == line
  | .row drain row => s.tiles.any fun (_, t) => t.drains.any fun d => d.id == drain && d.rows.contains row

/-- Captured traffic is forwarded before the VT resumes (R308). -/
def State.forwarding (s : State) (v : Nat) : Bool := (s.tile v).captured.any s.underWay

/-- The first logged result of a hart, and the log without it. -/
def takeResult (h : Nat) : List LogEntry → Option (Word × List LogEntry)
  | [] => none
  | e :: es =>
    match e.body with
    | .result h' w => if h' = h then some (w, es) else (takeResult h es).map fun (w, l) => (w, e :: l)
    | _ => (takeResult h es).map fun (w, l) => (w, e :: l)

/-- The result that a replaying hart is to repeat (R322). -/
def State.replayed (s : State) (h : Nat) : Option Word :=
  if isSup h then none else (takeResult h (s.tile (hartVt h)).replayLog).map (·.1)

/-- A result that replay must repeat: during replay the hart's next logged one, otherwise the value itself, logged
(R315, R322). -/
def State.loggedResult (s : State) (h : Nat) (value : Word) : State × Word :=
  let v := hartVt h
  if isSup h then (s, value)
  else
    match takeResult h (s.tile v).replayLog with
    | some (w, rest) => (s.onTile v fun t => { t with replayLog := rest }, w)
    | none => (s.logAt v h (.result h value), value)

/-! ### Sequence numbers (R318) -/

/-- The number under which a node keeps its sequence tables. -/
def Node.number : Node → Nat
  | .tile v => v
  | .dieSup d => 3840 + d
  | .panelSup => 4095
  | .ioDie n => 4000 + n
  | .switch => 4010
  | .port n => 8192 + n
  | .host => 4011

def streamKey (n : Nat) : Stream → Nat
  | .refusable => 2 * n
  | .assured => 2 * n + 1

/-- The next number of a tile's stream to a node, assigned at release (R318). -/
def State.takeSeq (s : State) (v : Nat) (dst : Node) (st : Stream) : State × Nat :=
  let k := streamKey dst.number st
  let n := (s.tile v).seqOut.get k 0 + 1
  (s.onTile v fun t => { t with seqOut := t.seqOut.put k n }, n)

/-- The number that an item took before the rollback of this run, if it has not been sent again yet. -/
def Tile.numberOf (t : Tile) (dst : Node) (st : Stream) (key : List Nat) : Option Nat :=
  (t.numbered.find? fun e => e.key == key && e.stream == streamKey dst.number st && !e.used).map (·.n)

/-- The first number of an item that is not used is used. -/
def useNumber (key : List Nat) (k : Nat) : List Numbered → List Numbered
  | [] => []
  | e :: es => if e.key == key && e.stream == k && !e.used then { e with used := true } :: es else e :: useNumber key k es

/-- The number of an item of a tile: the one it had before a rollback, which its receiver then finds accepted, or the next
(R318, R322; notes/assumptions/84.md). Supervisors never roll back. -/
def State.takeSeqFor (s : State) (v : Nat) (dst : Node) (st : Stream) (key : List Nat) : State × Nat :=
  let k := streamKey dst.number st
  if 3072 ≤ v then s.takeSeq v dst st
  else
    match (s.tile v).numberOf dst st key with
    | some n => (s.onTile v fun t => { t with numbered := useNumber key k t.numbered }, n)
    | none =>
      let (s, n) := s.takeSeq v dst st
      (s.onTile v fun t => { t with numbered := t.numbered ++ [{ key := key, stream := k, n := n, used := true }] }, n)

/-- The addend a packet carries. -/
def PacketBody.addend? : PacketBody → Option Addend
  | .addend a => some a
  | .accBounce a => some a
  | .accOutcome a _ => some a
  | .switchAddend a _ => some a
  | _ => none

/-- What a packet is, whenever a tile sends it: its sender and the place of its instruction, or what it says. -/
def PacketBody.key : PacketBody → List Nat
  | .message _ _ (some h) (some e) _ => [0, h, e]
  | .message d m _ _ _ => [1, d.toNat, m.header.toNat] ++ m.payload.map (·.toNat)
  | .counterUpdate c n l _ _ _ => [2, c, 2 * n.natAbs + (decide (n < 0)).toNat, l.toNat]
  | .cancel c l => [3, c, l.toNat]
  | .addend a => if a.flush then [4, a.key.place.key, a.key.launch.toNat] else [5, a.id]
  | .switchAddend a _ => if a.flush then [4, a.key.place.key, a.key.launch.toNat] else [5, a.id]
  | .barrier w _ h => [6, w.toNat, h]
  | .data h a p _ => [7, h, a, p]
  | _ => []

/-- How an arriving number stands to the highest accepted one (R318). -/
inductive SeqVerdict where
  | duplicate
  | inTurn
  | outOfTurn
  deriving DecidableEq, Repr

def seqVerdict (highest n : Nat) : SeqVerdict :=
  if n ≤ highest then .duplicate else if n = highest + 1 then .inTurn else .outOfTurn

/-- The inbound tables: a tile's own; those of the other nodes are kept under their numbers beside the tiles'. -/
def State.seqHigh (s : State) (dst : Node) (src : Nat) (st : Stream) : Nat :=
  (s.tile dst.number).seqIn.get (streamKey src st) 0

def State.setSeqHigh (s : State) (dst : Node) (src : Nat) (st : Stream) (n : Nat) : State :=
  s.onTile dst.number fun t => { t with seqIn := t.seqIn.put (streamKey src st) n }

/-- The node whose inbound table numbers an access to a place (R219, R318): of another panel's, the I/O die of the port that
carries the line, eight ports to a die in their order (R10, R364, notes/assumptions/91.md). -/
def State.placeNode (s : State) (p : Place) : Node :=
  match p.home with
  | .slice v => .tile v
  | .hbm d => .tile (d * 64 + p.off / 128 % 64)
  | .cxl port => .ioDie port
  | .panel n => .ioDie ((s.vilorePort n p.off).getD 0 / 8)

/-! ### The egress gate (R319) -/

/-- Bytes of the hold taken by items other than drain copies. -/
def Tile.heldBytes (t : Tile) : Nat :=
  (t.egress.filter fun i => match i.item with | .drain _ => false | _ => true).foldl (fun a i => a + i.bytes) 0

/-- Bytes of the hold taken by drain copies. -/
def Tile.drainBytes (t : Tile) : Nat :=
  (t.egress.filter fun i => match i.item with | .drain _ => true | _ => false).foldl (fun a i => a + i.bytes) 0

/-- An item of so many bytes finds space in the hold: the 48 KiB share, and what drain copies have left free. -/
def Tile.hasRoom (t : Tile) (n : Nat) : Bool :=
  decide (t.heldBytes + n ≤ 49152) && decide (t.heldBytes + t.drainBytes + n ≤ 65536)

/-- The check of a block in which a hart has issued nothing yet: its first instruction still waits. The hart that moves is
issuing. -/
def State.idleCheck (s : State) (h : Nat) : Option Nat :=
  match (s.hart h).checker.block with
  | some b => if h ≠ s.cur ∧ b.folded = 0 then some b.checkId else none
  | none => none

/-- The checks and verdicts of what the tile's harts have issued so far (R319). -/
def State.exitNeeds (s : State) (v : Nat) : List Nat :=
  let idle := (List.range 4).filterMap fun i => s.idleCheck (v * 4 + i)
  (s.tile v).unverified.filter (!idle.contains ·)

/-- An item enters the hold, with the checks and verdicts that must pass first. Supervisor harts and the panel's own
agents have no hold (R388). -/
def State.hold (s : State) (v : Nat) (item : HeldItem) (n : Nat) : State :=
  s.onTile v fun t => { t with egress := t.egress ++ [{ item := item, needs := s.exitNeeds v, bytes := n }] }

/-- A packet put on its network with a fresh name. -/
def State.inject (s : State) (p : Packet) : State :=
  { s with net := s.net ++ [{ p with id := s.nextId }], nextId := s.nextId + 1 }

/-- A packet leaves under the next number of its stream, which the send-queue entry of a message keeps (R318). -/
def State.number (s : State) (p : Packet) (st : Stream) : State :=
  let (s, n) := s.takeSeqFor p.src.number p.dst st p.body.key
  let s := match p.body with
    | .message _ _ (some h) (some e) _ => s.onHart h fun x => { x with
        sendq := x.sendq.map fun (q : SendEntry) => if q.id == e then { q with seq := some n } else q }
    | _ => s
  s.inject { p with stream := some st, seq := some n }

/-- A packet that a tile sends: through its hold (R319). -/
def State.sendFrom (s : State) (v : Nat) (dst : Node) (body : PacketBody) (st : Option Stream) : State :=
  s.hold v (.packet { id := 0, src := .tile v, dst := dst, body := body, stream := st, seq := none, outOfTurn := false }) 64

/-- A packet that needs no gate: a bounce, an answer without data, or an item of a supervisor (R319). -/
def State.sendFree (s : State) (src dst : Node) (body : PacketBody) : State :=
  s.inject { id := 0, src := src, dst := dst, body := body, stream := none, seq := none, outOfTurn := false }

/-! ### Fault records (R128, R293) -/

/-- Cause codes (R287). -/
def Cause.code : Cause → Nat
  | .fetchFault => 0x01
  | .illegal => 0x02
  | .priv => 0x03
  | .brk => 0x04
  | .ecallU => 0x05
  | .ecallK => 0x06
  | .misalign => 0x07
  | .loadPf => 0x08
  | .storePf => 0x09
  | .fetchPf => 0x0A
  | .memError => 0x0B
  | .stallViol => 0x0C
  | .sendqFull => 0x0D
  | .undeliverable => 0x0E
  | .tenantViol => 0x0F
  | .matrixUnavail => 0x10
  | .mregUnconfig => 0x11
  | .ringFault => 0x12
  | .leaseFault => 0x13
  | .tmapFault => 0x14
  | .lwatchFull => 0x15
  | .barrierFull => 0x16
  | .feTimeout => 0x17
  | .inlineFault => 0x18
  | .sigMismatch => 0x19
  | .screenFail => 0x1A
  | .watch => 0x1B

/-- The message word addressed to a die supervisor's mailbox (R361). -/
def supWord (d : Nat) : Word := BitVec.ofNat 64 (0xF00 + d)

/-- A tile posts a FAULT record of six dwords to its die supervisor: an item of the hold as any message is. -/
def State.postFault (s : State) (v slot : Nat) (tenant : BitVec 6) (launch : BitVec 16) (payload : List Word) : State :=
  s.sendFrom v (.dieSup (vtDie v))
    (.message (supWord (vtDie v)) { header := faultHeader 6 tenant launch v slot, payload := payload } none none false)
    (some .assured)

/-- A die supervisor posts a kind-3 record to itself (R293): a0-a4 as its rule gives, a5 names kind and cause. -/
def State.postPanelEvent (s : State) (d : Nat) (tenant : BitVec 6) (launch : BitVec 16) (a : List Word) (a5 : Word) :
    State :=
  s.sendFree (.dieSup d) (.dieSup d)
    (.message (supWord d) { header := faultHeader 6 tenant launch 0xFFF 0, payload := a ++ [a5] } none none false)

/-- a5 of a kind-3 record: issuing VT and hart, or 0xFFF for the panel, kind 3, cause (R249, R293). -/
def kind3 (vt slot cause : Nat) : Word := BitVec.ofNat 64 (vt * 2 ^ 20 + slot * 2 ^ 18 + 3 * 2 ^ 16 + cause)

/-! ### HBM controllers (R97, R98, R100) -/

/-- A stack serves one line request: the row opens if need be, HBMSRV counts it, and a corrected error is counted (R93,
R98, R100). -/
def State.serveHbm (s : State) (p : Place) : State :=
  match p.home with
  | .hbm d => ((s.openRow p).onDie d fun x => { x with hbmsrv := x.hbmsrv + 1 }).countCorrected p
  | _ => s

/-- A line request leaves an issuing die: HBMLOC or HBMREM counts it (R100, R104; notes/assumptions/74.md). -/
def State.countIssue (s : State) (d : Nat) (p : Place) : State :=
  match p.home with
  | .hbm d' => s.onDie d fun x =>
      if d' = d then { x with hbmloc := x.hbmloc + 1 } else { x with hbmrem := x.hbmrem + 1 }
  | .panel _ => s.onDie d fun x => { x with hbmrem := x.hbmrem + 1 }
  | _ => s

/-- The line requests of an agent of a die for `n` bytes from a place on, each counted and served (R98, R100). -/
def State.serveLines (s : State) (d : Nat) (p : Place) (n : Nat) : State :=
  (List.range ((p.key % 128 + n + 127) / 128)).foldl (fun s i =>
    let q := { p with off := p.off + 128 * i, key := p.key + 128 * i }
    (s.countIssue d q).serveHbm q) s

/-- The request stands in its channel's queue (R97); places other than stacks have none. -/
def State.hbmQueued (s : State) (access part : Nat) (p : Place) : Bool :=
  match p.home with
  | .hbm d => (s.channelOf d p).queue.any fun r => r.access == access && r.part == part
  | _ => true

/-- A hart's request to a stack joins its channel's queue (R97). -/
def State.enqueueHbm (s : State) (source access part : Nat) (p : Place) : State :=
  match p.home with
  | .hbm d => s.onDie d fun x =>
      let k := hbmChannel p.off
      let c := x.channels.get k default
      let r : HbmRequest := { access := access, part := part, source := .tile source, bank := hbmBank p.off
                              row := hbmRow p.off, line := p.off / 128, marked := false }
      { x with channels := x.channels.put k { c with queue := c.queue ++ [r] } }
  | _ => s

/-- A request that the open batch serves: a marked one, or an older one to the line of a marked one, which may not be
overtaken (R97). -/
def HbmRequest.due : List HbmRequest → List HbmRequest
  | [] => []
  | r :: rs =>
    if r.marked || rs.any (fun q => q.marked && q.line == r.line) then r :: HbmRequest.due rs else HbmRequest.due rs

/-- The request of the open batch that is served next (R97, R98): the oldest that hits an open row, or else the oldest
whose bank takes activates. -/
def Channel.next (c : Channel) : Option HbmRequest :=
  let due := HbmRequest.due c.queue
  (due.find? fun r => c.hits r.bank r.row).orElse fun _ => due.find? fun r => !c.blocked r.bank r.row

/-- The request is its channel's turn; places other than stacks have no queue. -/
def State.hbmReady (s : State) (access part : Nat) (p : Place) : Bool :=
  match p.home with
  | .hbm d => (s.channelOf d p).next.any fun r => r.access == access && r.part == part
  | _ => true

/-- The request leaves its queue. -/
def State.dequeueHbm (s : State) (access part : Nat) (p : Place) : State :=
  match p.home with
  | .hbm d => s.onDie d fun x =>
      let k := hbmChannel p.off
      let c := x.channels.get k default
      let rest := c.queue.filter fun r => !(r.access == access && r.part == part)
      { x with channels := x.channels.put k { c with queue := rest } }
  | _ => s

/-- A request of a tile's engine or unit is served. -/
def State.serveEngine (s : State) (v : Nat) (p : Place) : State := (s.joinBatch (.tile v) p).serveHbm p

/-- Each source's oldest requests to each bank are marked, at most `cap` of them (R97). -/
def markBatch (cap : Nat) : List HbmRequest → List HbmRequest → List HbmRequest
  | done, [] => done
  | done, r :: rs =>
    let taken := (done.filter fun q => q.source == r.source && q.bank == r.bank && q.marked).length
    markBatch cap (done ++ [{ r with marked := decide (taken < cap) }]) rs

/-- A row waits for the refresh management that its batch has scheduled (R98). -/
def State.mitigating (s : State) (c : Channel) : Bool := c.activations.any fun e => decide (s.hbm.actTh ≤ e.2)

/-- A batch forms when none is open (R97): no request is marked any more, and its refresh management is done (R98). -/
def State.formBatch (s : State) (d k : Nat) : State :=
  let c := (s.die d).channels.get k default
  if c.queue.any (·.marked) || s.mitigating c then s
  else
    let q := markBatch s.hbm.batchCap [] c.queue
    s.onDie d fun x => { x with channels := x.channels.put k { c with
      queue := q, batch := (q.filter (·.marked)).map fun r => (r.source, r.bank) } }

/-- The log of a die receives a stack offset: of a line found uncorrectable by patrol, or of a write that was dropped, with
its source (R93, R99; notes/assumptions/73.md). -/
def Die.logLine (x : Die) (vt slot off : Nat) : Die :=
  { x with faultLog := x.faultLog ++ [{ header := faultHeader 0 0 0 vt slot, payload := [BitVec.ofNat 64 off] }] }

/-- A write of part of a line that cannot be corrected is dropped and logged, at the home's die or at the source's where
the home is not on a die (R93, R102). -/
def State.dropWrite (s : State) (vt slot : Nat) (p : Place) : State :=
  let d := match p.home with
    | .hbm d => d
    | _ => if vt < 3072 then vtDie vt else 0
  s.onDie d fun x => x.logLine vt slot p.off

/-! ### SRAM protection (R142, R143, R324) -/

/-- Words of an SRAM in which a parity bit is odd: those with an odd number of flips among the bits j with the same j mod 8.
An even number in every such group is not detected (R142, R143). -/
def Tile.badWords (t : Tile) : List Nat :=
  (t.flips.map (·.1)).eraseDups.filter fun o => (List.range 8).any fun i =>
    (t.flips.filter fun f => f.1 == o && f.2 % 8 == i).length % 2 == 1

/-- Two words lie in the same group of 32 rows; a row is taken as 128 bytes in address order (notes/assumptions/9.md). -/
def sameGroup (o q : Nat) : Bool := o / 4096 == q / 4096

/-- A word is rebuilt from the other rows of its group and their parity row, with whatever flips those hold undetected in the
same column (R142, R143). -/
def Tile.rebuilt (t : Tile) (o : Nat) : List (Nat × Nat) :=
  ((List.range 64).filter fun b => (t.flips.filter fun f =>
    f.1 != o && sameGroup f.1 o && f.1 % 128 == o % 128 && f.2 == b).length % 2 == 1).map fun b => (o, b)

/-- One bit of a tile's SRAM inverted. -/
def State.flipBit (s : State) (v : Nat) (f : Nat × Nat) : State :=
  let key := sliceKey v (f.1 + f.2 / 8)
  { s with mem := memPut s.mem key (memByte s.mem key ^^^ BitVec.ofNat 8 (2 ^ (f.2 % 8))) }

/-- The row of a detected word is rebuilt (R143). -/
def State.rebuildWord (s : State) (v o : Nat) : State :=
  let t := s.tile v
  let old := t.flips.filter fun f => f.1 == o
  let new := t.rebuilt o
  ((old.filter (!new.contains ·) ++ new.filter (!old.contains ·)).foldl (fun s f => s.flipBit v f) s).onTile v fun t =>
    { t with flips := t.flips.filter (fun f => f.1 != o) ++ new }

/-- Words that an access or scrub of bytes detects, and with them those of their rows. -/
def Tile.foundWords (t : Tile) (off len : Nat) : List Nat :=
  let bad := t.badWords
  let rows := (bad.filter fun o => decide (o < off + len ∧ off < o + 8)).map (· / 128)
  bad.filter fun o => rows.contains (o / 128)

/-- An access or scrub that meets detected words of one row rebuilds the row, and AGEERR counts it (R143). -/
def State.sramFix (s : State) (v off len : Nat) : State :=
  match (s.tile v).foundWords off len with
  | [] => s
  | ws => (ws.foldl (fun s o => s.rebuildWord v o) s).countError v

/-- Detected words of an access lie in a group with detected words in two or more rows: the VT must roll back (R143). -/
def Tile.sramLost (t : Tile) (off len : Nat) : Bool :=
  (t.foundWords off len).any fun o => t.badWords.any fun q => sameGroup o q && o / 128 != q / 128

/-- The VT of the slice rolls back (R143, R322): AGEERR counts the failure (R325). -/
def State.sramFail (s : State) (v : Nat) : State :=
  if (s.tile v).failed then s
  else (s.onTile v fun t => { t with failed := true }).countError v

/-- A unit of the tile touches its SRAM: what can be rebuilt is, and otherwise the VT rolls back (R143). -/
def State.sramTouch (s : State) (v off len : Nat) : State :=
  if (s.tile v).sramLost off len then s.sramFail v else s.sramFix v off len

/-- An access to a slice meets an error that its SRAM cannot rebuild, so no instruction sees its data (R143). -/
def State.sramStops (s : State) (p : Place) (n : Nat) : Bool :=
  match p.home with
  | .slice v => (s.tile v).sramLost p.off n
  | _ => false

/-- What such an access does instead. -/
def State.sramStop (s : State) (p : Place) : State :=
  match p.home with
  | .slice v => s.sramFail v
  | _ => s

/-! ### Writes (R92, R133, R134, R269, R315) -/

/-- Every watch on a line that is registered at its home triggers (R269); watches on CXL and other panels never do. -/
def State.trigger (s : State) (p : Place) : State :=
  match p.home with
  | .slice _ | .hbm _ =>
    { s with tiles := s.tiles.map fun (k, t) =>
        (k, { t with watches := t.watches.map fun w =>
          if w.registered && w.place.line == p.line then { w with trig := true } else w }) }
  | _ => s

/-- A slice or moon-region line counts as written since the last checkpoint (R133, R313). -/
def State.markDirty (s : State) (v off : Nat) : State :=
  s.onTile v fun t => { t with dirty := insertNat t.dirty (off / 128) }

/-- Line number of a slice offset, and whether it is empty (R134). -/
def Tile.isEmpty (t : Tile) (off : Nat) : Bool := t.empty.contains (off / 128)

/-- A full/empty bit set (R134). -/
def State.setFull (s : State) (v off : Nat) (full : Bool) : State :=
  s.onTile v fun t => { t with empty :=
    if full then t.empty.filter (· != off / 128) else insertNat t.empty (off / 128) }

/-- The new value of an AMO; none where AMOCAS writes nothing (R215). -/
def amoNew (op : BitVec 3) (dword : Bool) (operand compare : Word) (old : Nat) : Option Nat :=
  let n := if dword then 64 else 32
  let b := operand.toNat % 2 ^ n
  let sgn (x : Nat) : Int := (BitVec.ofNat n x).toInt
  match op.toNat with
  | 0 => some ((old + b) % 2 ^ n)
  | 1 => some (if sgn old ≤ sgn b then old else b)
  | 2 => some (if sgn old ≥ sgn b then old else b)
  | 3 => some (old &&& b)
  | 4 => some (old ||| b)
  | 5 => some (old ^^^ b)
  | 6 => some b
  | _ => if old = compare.toNat % 2 ^ n then some b else none

/-! ### Inbound slots in SRAM (R132, R231, R388) -/

/-- The hart, the channel, the slot and the byte of it that an SRAM offset names: channels stand in their order, a hart's
after another's (DEDUCED, notes/assumptions/32.md). -/
def slotAddress (off : Nat) : Option (Nat × Nat × Nat × Nat) :=
  if 0x3C0000 ≤ off ∧ off < 0x3C2800 then
    let k := (off - 0x3C0000) % 2560 / 64
    let c := min 3 (k / 8)
    some ((off - 0x3C0000) / 2560, c, k - 8 * c, off % 64)
  else none

/-- Byte j of a message as a slot holds it (R231); what lies beyond its payload is not stated. -/
def Msg.byteAt (m : Msg) (j : Nat) : Option Byte :=
  (if j < 8 then some m.header else m.payload[j / 8 - 1]?).map fun w => w.extractLsb' (8 * (j % 8)) 8

/-- The message with one byte of its slot written. -/
def Msg.poke (m : Msg) (j : Nat) (b : Byte) : Msg :=
  let put (w : Word) : Word := setBits w (8 * (j % 8)) 8 b.toNat
  if j < 8 then { m with header := put m.header } else { m with payload := m.payload.modify (j / 8 - 1) put }

/-- The byte of an inbound slot at an SRAM offset; the i-th oldest message of a channel stands in its slot i
(notes/assumptions/32.md). -/
def State.slotByte (s : State) (v off : Nat) : Option Byte :=
  match slotAddress off with
  | some (i, c, k, j) => ((entryAt (s.hart (v * 4 + i)).chans c [])[k]?).bind fun o => o.msg.byteAt j
  | none => none

/-- A byte written into an inbound slot. -/
def State.pokeSlot (s : State) (v off : Nat) (b : Byte) : State :=
  match slotAddress off with
  | some (i, c, k, j) => s.onHart (v * 4 + i) fun x => { x with
      chans := onAt x.chans c fun l => l.modify k fun o => { o with msg := o.msg.poke j b } }
  | none => s

/-- Bytes written into the inbound slots of a VT, from an offset on. -/
def State.pokeSlots (s : State) (v off : Nat) (data : List (Option Byte)) : State :=
  if v < 3072 ∧ 0x3C0000 ≤ off ∧ off < 0x3C2800 then
    data.zipIdx.foldl (fun s (b, i) => match b with
      | some b => s.pokeSlot v (off + i) b
      | none => s) s
  else s

/-- A write performed at its home: bytes, and for a slice its full/empty bit, parity, dirty mark and the entry of the inbound
log, if it has one; watches on the line trigger. -/
def State.writeLogged (s : State) (entry : Option (Nat × LogBody)) (p : Place) (data : List (Option Byte)) (fe : Option Bool) :
    State :=
  match p.home with
  | .slice v =>
    let s := s.sramFix v p.off data.length
    let s := { s with mem := memWrite s.mem p.key data }.pokeSlots v p.off data
    let s := match fe with
      | some b => s.setFull v p.off b
      | none => s
    let s := if p.off < 0x3C0000 then s.markDirty v p.off else s
    let s := match entry with
      | some e => s.logAt v e.1 e.2
      | none => s
    s.trigger p
  | _ =>
    let s := { s with mem := memWrite s.mem p.key data }
    s.trigger p

/-- The entry of the inbound log for a write by an agent: none for the tile's own (R315). -/
def writeEntry (src : Option Nat) (p : Place) (body : LogBody) : Option (Nat × LogBody) :=
  match p.home, src with
  | .slice v, some w => if w = v then none else some (w, body)
  | _, _ => none

def State.write (s : State) (src : Option Nat) (p : Place) (data : List (Option Byte)) (fe : Option Bool) : State :=
  s.writeLogged (writeEntry src p (.sliceWrite p.off data fe)) p data fe

/-! ### Parts of accesses -/

def Hart.access (x : Hart) (id : Nat) : Option Access := x.flights.find? fun a => a.id == id

def Hart.onAccess (x : Hart) (id : Nat) (f : Access → Access) : Hart :=
  { x with flights := x.flights.map fun a => if a.id == id then f a else a }

def Access.onPart (a : Access) (i : Nat) (f : Part → Part) : Access :=
  { a with parts := a.parts.modify i f }

def State.setPart (s : State) (h id i : Nat) (st : PartStatus) : State :=
  s.onHart h fun x => x.onAccess id fun a => a.onPart i fun p => { p with status := st }

/-- Own places need no gate: the hart's own slice, and everything for a supervisor hart (R319, R388). -/
def ownPlace (h : Nat) (p : Place) : Bool :=
  isSup h || (match p.home with | .slice v => v == hartVt h | _ => false)

/-- The data answer of a part leaves its home: an answer from another tile's slice passes that tile's gate (R319). -/
def State.answer (s : State) (h id i : Nat) (p : Place) (data : List Byte) : State :=
  match p.home with
  | .slice v =>
    if ownPlace h p then s.setPart h id i (.done data)
    else (s.setPart h id i (.held data)).hold v (.answer h id i) 128
  | _ => s.setPart h id i (.done data)

/-- A data answer from the place to the hart finds room in the hold it passes (R319). -/
def State.answerRoom (s : State) (h : Nat) (p : Place) : Bool :=
  match p.home with
  | .slice v => ownPlace h p || (s.tile v).hasRoom 128
  | _ => true

/-- A place whose bytes are not those of memory: the moon region and the system area of a VT's SRAM below the trace buffer
(R132, R313, R315), and in the checkpoint areas of a stack what a base image holds beyond the slice (R312). Supervisors and
the host reach them, nothing else does. -/
def Place.unstated (p : Place) : Bool :=
  match p.home with
  | .slice v => decide (v < 3072) && decide (0x300000 ≤ p.off ∧ p.off < 0x3E0000)
  | .hbm _ => decide (0xBF0000000 ≤ p.off) && decide (sliceBytes ≤ (p.off - 0xBF0000000) % 2 ^ 22)
  | _ => false

/-- Bytes read at a place behind the SRAM's protection; none where the slice cannot rebuild them (R143). -/
def State.readBytes (s : State) (p : Place) (n : Nat) : State × Option (List Byte) :=
  match p.home with
  | .slice v =>
    let t := s.sramTouch v p.off n
    (t, if (s.tile v).sramLost p.off n then none else some (memBytes t.mem p.key n))
  | _ => (s, some (memBytes s.mem p.key n))

/-- A byte at an offset of a place's SRAM that an inbound slot holds (R231). -/
def State.slotByteAt (s : State) (p : Place) (i : Nat) : Option Byte :=
  match p.home with
  | .slice v => s.slotByte v (p.off + i)
  | _ => none

/-- The bytes that a read finds at a place: those of memory; or those of inbound slots, and free ones where the rules state
none (notes/assumptions/32.md). -/
def State.placeBytes (s : State) (p : Place) (n : Nat) : State × List Byte :=
  if p.unstated then
    ({ s with free := s.free + n }, (List.range n).map fun i =>
      (s.slotByteAt p i).getD ((Config.freeWord (s.free + i)).truncate 8))
  else (s, memBytes s.mem p.key n)

/-- The write of an AMO or LDTAKE (R315). -/
def State.writeTaken (s : State) (h id i : Nat) (p : Place) (data : List (Option Byte)) (fe : Option Bool) : State :=
  s.writeLogged (writeEntry (some (hartVt h)) p (.taken h id i p.off data fe)) p data fe

/-- One part performed with the bytes it found: the read, and the write of LDTAKE or an AMO (R92, R138, R215). -/
def State.performWith (s : State) (h : Nat) (a : Access) (i : Nat) (p : Part) (data : List Byte) : State :=
  match a.op with
  | .load => s.answer h a.id i p.place data
  | .festat =>
    let full := match p.place.home with | .slice v => !(s.tile v).isEmpty p.place.off | _ => true
    s.answer h a.id i p.place (natBytes 8 full.toNat)
  | .take => (s.writeTaken h a.id i p.place (List.replicate p.len none) (some false)).answer h a.id i p.place data
  | .amo op dword operand compare =>
    let s := match amoNew op dword operand compare (bytesNat data) with
      | some new => s.writeTaken h a.id i p.place (solid (natBytes p.len new)) none
      | none => s
    s.answer h a.id i p.place data

/-- One part performed at a line that can be read and is not in its way. -/
def State.performPart (s : State) (h : Nat) (a : Access) (i : Nat) (p : Part) : State :=
  let found := s.placeBytes p.place p.len
  found.1.performWith h a i p found.2

/-- The access waits for a full line (R135, R138): loads and LDTAKE do, FESTAT, AMOs and supervisor accesses do not. -/
def HomeOp.waits : HomeOp → Bool
  | .load => true
  | .take => true
  | .festat => false
  | .amo _ _ _ _ => false

/-- A part's request reaches its home (R92, R93, R135): performed, refused its data by a bad line, put in the line-wait
list, or told to retry. -/
def State.arrivePart (s : State) (h id i : Nat) : State :=
  match (s.hart h).access id with
  | none => s
  | some a =>
    match a.parts[i]? with
    | none => s
    | some p =>
      let s := s.serveHbm p.place
      if s.unreadable p.place then s.setPart h id i .bad
      else
        match p.place.home with
        | .slice v =>
          let s := s.sramFix v p.place.off p.len
          let t := s.tile v
          if a.op.waits && t.isEmpty p.place.off && !isSup h then
            let s := s.onHart h fun x => x.onAccess id fun a =>
              { a with since := a.since.orElse fun _ => some (s.cycle (hartVt h)) }
            if t.lineWait.length < 64 then
              (s.setPart h id i .waiting).onTile v fun t =>
                { t with lineWait := t.lineWait ++ [{ line := p.place.off / 128, hart := h, access := id, part := i }] }
            else s.setPart h id i (.retry (s.cycle (hartVt h) + 64))
          else s.performPart h a i p
        | _ => s.performPart h a i p

/-- The waiters on a line that has become full are answered in arrival order until a taker empties it (R135), or until an
answer finds no room in the hold (R319). -/
def State.wake (s : State) (v line : Nat) : Nat → State
  | 0 => s
  | n + 1 =>
    let t := s.tile v
    if t.empty.contains line then s
    else
      match t.lineWait.find? fun w => w.line == line with
      | none => s
      | some w =>
        if !s.answerRoom w.hart (slicePlace v (line * 128)) then s
        else
        match (s.hart w.hart).access w.access with
        | none => (s.setTile v { t with lineWait := t.lineWait.filter fun o => o != w }).wake v line n
        | some a =>
          match a.parts[w.part]? with
          | none => (s.setTile v { t with lineWait := t.lineWait.filter fun o => o != w }).wake v line n
          | some p =>
            if t.sramLost p.place.off p.len then s.sramFail v
            else
              let s := (s.setTile v { t with lineWait := t.lineWait.filter fun o => o != w }).sramFix v p.place.off p.len
              (s.performPart w.hart a w.part p).wake v line n

/-- A write that may fill its line, with the waiters it wakes. -/
def State.writeWakes (s : State) (entry : Option (Nat × LogBody)) (p : Place) (data : List (Option Byte)) (fe : Option Bool) :
    State :=
  let s := s.writeLogged entry p data fe
  match p.home, fe with
  | .slice v, some true => s.wake v (p.off / 128) ((s.tile v).lineWait.length)
  | _, _ => s

def State.writeAndWake (s : State) (src : Option Nat) (p : Place) (data : List (Option Byte)) (fe : Option Bool) : State :=
  s.writeWakes (writeEntry src p (.sliceWrite p.off data fe)) p data fe

/-- A posted write performed at its home (R92, R93, R138): a store to a line that cannot be corrected is dropped and
logged. -/
def State.performPosted (s : State) (h : Nat) (w : Posted) : State :=
  let s := s.serveHbm w.place
  let src := some (hartVt h)
  if s.unwritable w.place then s.dropWrite (hartVt h) (hartSlot h) w.place
  else
    match w.op with
    | .store data => s.writeAndWake src w.place data none
    | .setFull => s.writeAndWake src { w.place with off := w.place.off / 128 * 128, key := w.place.line * 128 } [] (some true)
    | .setEmpty => s.writeAndWake src { w.place with off := w.place.off / 128 * 128, key := w.place.line * 128 } [] (some false)
    | .fill data => s.writeAndWake src w.place (solid data) (some true)

end Sys2Proof.Machine
end

