-- ==== Sys2Proof/Machine/Flags.lean ====
section
/-! DEFINITION. Floating-point formats, exact values, rounding and the flags it raises (R58-R73). A finite value is held
exactly as sign, magnitude and power of two; each operation forms its exact result and rounds once. -/

namespace Sys2Proof.Machine

/-! ### Formats (R60-R62) -/

/-- A floating-point format: exponent and fraction bits, and whether it is one of the two 8-bit formats; `top` is the
encoding of the largest finite magnitude. -/
structure Fmt where
  ebits : Nat
  fbits : Nat
  top : Nat
  small : Bool
  deriving DecidableEq, Repr

def f64 : Fmt := { ebits := 11, fbits := 52, top := 0x7FEFFFFFFFFFFFFF, small := false }
def f32 : Fmt := { ebits := 8, fbits := 23, top := 0x7F7FFFFF, small := false }
def f16 : Fmt := { ebits := 5, fbits := 10, top := 0x7BFF, small := false }
def bf16 : Fmt := { ebits := 8, fbits := 7, top := 0x7F7F, small := false }
def e4m3 : Fmt := { ebits := 4, fbits := 3, top := 0x7E, small := true }
def e5m2 : Fmt := { ebits := 5, fbits := 2, top := 0x7B, small := true }

def Fmt.bias (f : Fmt) : Nat := 2 ^ (f.ebits - 1) - 1
/-- Width of an encoding. -/
def Fmt.bits (f : Fmt) : Nat := 1 + f.ebits + f.fbits
/-- The sign bit's weight. -/
def Fmt.sign (f : Fmt) : Nat := 2 ^ (f.ebits + f.fbits)
/-- The encoding of infinity; E4M3 has none (R61). -/
def Fmt.infinity (f : Fmt) : Nat := (2 ^ f.ebits - 1) * 2 ^ f.fbits
/-- The canonical NaN (R60, R63). -/
def Fmt.nan (f : Fmt) : Nat :=
  if f = e4m3 then 0x7F else (2 ^ f.ebits - 1) * 2 ^ f.fbits + 2 ^ (f.fbits - 1)
/-- The power of two of the least fraction bit of a subnormal. -/
def Fmt.low (f : Fmt) : Int := 1 - (f.bias : Int) - f.fbits

/-- A value: a NaN, signalling or not (R64), an infinity, or (-1)^neg · m · 2^e. -/
inductive Fp where
  | nan (signalling : Bool)
  | inf (neg : Bool)
  | fin (neg : Bool) (m : Nat) (e : Int)
  deriving DecidableEq, Repr, Inhabited

/-- The value of an encoding (R60-R62, R64). -/
def Fmt.value (f : Fmt) (x : Nat) : Fp :=
  let x := x % 2 ^ f.bits
  let neg := decide (f.sign ≤ x)
  let mag := x % f.sign
  let e := mag / 2 ^ f.fbits
  let m := mag % 2 ^ f.fbits
  if f = e4m3 then
    if mag = 0x7F then .nan false
    else if e = 0 then .fin neg m f.low
    else .fin neg (2 ^ f.fbits + m) (f.low + e - 1)
  else if e = 2 ^ f.ebits - 1 then
    if m = 0 then .inf neg else .nan (!f.small && decide (m < 2 ^ (f.fbits - 1)))
  else if e = 0 then .fin neg m f.low
  else .fin neg (2 ^ f.fbits + m) (f.low + e - 1)

def Fp.isNan : Fp → Bool
  | .nan _ => true
  | _ => false
def Fp.signals : Fp → Bool
  | .nan s => s
  | _ => false
def Fp.neg : Fp → Bool
  | .nan _ => false
  | .inf n => n
  | .fin n _ _ => n
def Fp.isZero : Fp → Bool
  | .fin _ m _ => m == 0
  | _ => false
def Fp.flip : Fp → Fp
  | .nan s => .nan s
  | .inf n => .inf (!n)
  | .fin n m e => .fin (!n) m e

/-! ### Rounding (R65-R68) -/

/-- Rounding modes by their FRM codes (R65). -/
inductive Rm where
  | rne
  | rmm
  | rtz
  | rdn
  | rup
  deriving DecidableEq, Repr, Inhabited

def rmOf (frm : BitVec 3) : Rm :=
  match frm.toNat with
  | 1 => .rmm
  | 2 => .rtz
  | 3 => .rdn
  | 4 => .rup
  | _ => .rne

/-- Sticky flags (R37): inexact, underflow, overflow, divide by zero, invalid. -/
abbrev Flags := BitVec 5
def flInexact : Flags := 16
def flUnderflow : Flags := 8
def flOverflow : Flags := 4
def flDivZero : Flags := 2
def flInvalid : Flags := 1

/-- A magnitude q + rem / 2^s, rounded to an integer (R65). -/
def roundUp (rm : Rm) (neg : Bool) (q rem s : Nat) : Nat :=
  if rem = 0 then q
  else
    let half := 2 ^ (s - 1)
    let up := match rm with
      | .rne => decide (half < rem) || (rem == half && q % 2 == 1)
      | .rmm => decide (half ≤ rem)
      | .rtz => false
      | .rdn => neg
      | .rup => !neg
    q + up.toNat

/-- m · 2^e in units of 2^u, rounded, and whether it was inexact. -/
def roundAt (rm : Rm) (neg : Bool) (m : Nat) (e u : Int) : Nat × Bool :=
  if u ≤ e then (m * 2 ^ (e - u).toNat, false)
  else
    let s := (u - e).toNat
    (roundUp rm neg (m / 2 ^ s) (m % 2 ^ s) s, m % 2 ^ s != 0)

/-- The power of two of the highest bit of m · 2^e. -/
def topExp (m : Nat) (e : Int) : Int := (Nat.log2 m : Int) + e

/-- The magnitude where the range ends (R66). -/
def overflowed (f : Fmt) (rm : Rm) (neg : Bool) : Nat :=
  if f.small then f.top
  else
    match rm with
    | .rne => f.infinity
    | .rmm => f.infinity
    | .rtz => f.top
    | .rdn => if neg then f.infinity else f.top
    | .rup => if neg then f.top else f.infinity

/-- An exact value rounded to a format, with the flags of the rounding (R65-R67). -/
def Fmt.round (f : Fmt) (rm : Rm) (x : Fp) : Nat × Flags :=
  match x with
  | .nan _ => (f.nan, 0)
  | .inf n => (n.toNat * f.sign + (if f.small then f.top else f.infinity), 0)
  | .fin n m e =>
    if m = 0 then (n.toNat * f.sign, 0)
    else
      let t := topExp m e
      let u := max (t - f.fbits) f.low
      let (q, inexact) := roundAt rm n m e u
      let mag := (u - f.low).toNat * 2 ^ f.fbits + q
      if f.top < mag then (n.toNat * f.sign + overflowed f rm n, flOverflow ||| flInexact)
      else
        let free := roundAt rm n m e (t - f.fbits)
        let tiny := decide (free.1 < 2 ^ (f.fbits + 1) ∧ t < f.low + f.fbits) ||
          decide (t + 1 < f.low + f.fbits)
        let fl := (if inexact then flInexact else 0) ||| (if inexact && tiny then flUnderflow else 0)
        (n.toNat * f.sign + mag, fl)

/-- Rounding to nearest even, the flags left (R68). -/
def Fmt.rne (f : Fmt) (x : Fp) : Nat := (f.round .rne x).1

/-! ### Exact operations -/

/-- The sign of an exact zero sum of unlike terms (R65). -/
def zeroSign (rm : Rm) : Bool := rm == .rdn

/-- Exact sum; an exact zero from unlike signs takes the mode's sign. The flag is invalid for ∞ − ∞. -/
def Fp.add (rm : Rm) (x y : Fp) : Fp × Flags :=
  match x, y with
  | .nan _, _ => (.nan false, 0)
  | _, .nan _ => (.nan false, 0)
  | .inf a, .inf b => if a = b then (.inf a, 0) else (.nan false, flInvalid)
  | .inf a, .fin _ _ _ => (.inf a, 0)
  | .fin _ _ _, .inf b => (.inf b, 0)
  | .fin a m e, .fin b n g =>
    let u := min e g
    let p : Int := (m * 2 ^ (e - u).toNat : Nat)
    let q : Int := (n * 2 ^ (g - u).toNat : Nat)
    let r := (if a then -p else p) + (if b then -q else q)
    if r = 0 then (.fin (if m = 0 ∧ n = 0 ∧ a = b then a else zeroSign rm) 0 0, 0)
    else (.fin (decide (r < 0)) r.natAbs u, 0)

/-- Exact product. -/
def Fp.mul (x y : Fp) : Fp × Flags :=
  match x, y with
  | .nan _, _ => (.nan false, 0)
  | _, .nan _ => (.nan false, 0)
  | .inf a, .inf b => (.inf (a != b), 0)
  | .inf a, .fin b n _ => if n = 0 then (.nan false, flInvalid) else (.inf (a != b), 0)
  | .fin a m _, .inf b => if m = 0 then (.nan false, flInvalid) else (.inf (a != b), 0)
  | .fin a m e, .fin b n g => (.fin (a != b) (m * n) (e + g), 0)

/-- Quotient to 70 bits or more with a last bit that tells of a remainder: it rounds as the exact one does. -/
def Fp.div (x y : Fp) : Fp × Flags :=
  match x, y with
  | .nan _, _ => (.nan false, 0)
  | _, .nan _ => (.nan false, 0)
  | .inf _, .inf _ => (.nan false, flInvalid)
  | .inf a, .fin b _ _ => (.inf (a != b), 0)
  | .fin a _ _, .inf b => (.fin (a != b) 0 0, 0)
  | .fin a m e, .fin b n g =>
    if n = 0 then (if m = 0 then (.nan false, flInvalid) else (.inf (a != b), flDivZero))
    else
      let k := Nat.log2 n + 70
      let q := m * 2 ^ k / n
      (.fin (a != b) (2 * q + (m * 2 ^ k % n != 0).toNat) (e - g - k - 1), 0)

/-- Integer square root, bit by bit from bit `i - 1` down. -/
def isqrtFrom (x r : Nat) : Nat → Nat
  | 0 => r
  | i + 1 => isqrtFrom x (if (r + 2 ^ i) * (r + 2 ^ i) ≤ x then r + 2 ^ i else r) i

def isqrt (x : Nat) : Nat := isqrtFrom x 0 (Nat.log2 x / 2 + 1)

/-- Square root with a last bit that tells of a remainder. -/
def Fp.sqrt (x : Fp) : Fp × Flags :=
  match x with
  | .nan _ => (.nan false, 0)
  | .inf a => if a then (.nan false, flInvalid) else (.inf false, 0)
  | .fin a m e =>
    if m = 0 then (.fin a 0 0, 0)
    else if a then (.nan false, flInvalid)
    else
      let odd := e % 2 != 0
      let y := (if odd then 2 * m else m) * 2 ^ 160
      let r := isqrt y
      (.fin false (2 * r + (r * r != y).toNat) ((e - odd.toNat) / 2 - 80 - 1), 0)

/-- 1 / √x with a last bit that tells of a remainder (R181); its special cases stand with the instruction. -/
def Fp.rsqrt (m : Nat) (e : Int) : Fp :=
  let odd := e % 2 != 0
  let n := if odd then 2 * m else m
  let k := Nat.log2 n + 160
  let y := 2 ^ (2 * k) / n
  let r := isqrt y
  .fin false (2 * r + (r * r * n != 2 ^ (2 * k)).toNat) (-((e - odd.toNat) / 2) - k - 1)

/-! ### Comparison (R73) -/

/-- Order of two values that are no NaNs; zeros are equal. -/
def Fp.lt (x y : Fp) : Bool :=
  match x, y with
  | .nan _, _ => false
  | _, .nan _ => false
  | .inf a, .inf b => a && !b
  | .inf a, .fin _ _ _ => a
  | .fin _ _ _, .inf b => !b
  | .fin a m e, .fin b n g =>
    let u := min e g
    let p : Int := (m * 2 ^ (e - u).toNat : Nat)
    let q : Int := (n * 2 ^ (g - u).toNat : Nat)
    decide ((if a then -p else p) < (if b then -q else q))

def Fp.eq (x y : Fp) : Bool := !x.isNan && !y.isNan && !x.lt y && !y.lt x
def Fp.le (x y : Fp) : Bool := x.lt y || x.eq y

/-- −0 below +0, otherwise the order of values (R73). -/
def Fp.below (x y : Fp) : Bool := x.lt y || (x.isZero && y.isZero && x.neg && !y.neg)

/-- An encoding as an operation's destination holds it: an infinity of e5m2 is the largest finite value there (R66,
notes/assumptions/71.md). -/
def Fmt.produced (f : Fmt) (x : Nat) : Nat :=
  match f.value x with
  | .inf n => if f.small then n.toNat * f.sign + f.top else x
  | _ => x

/-- FMIN and FMAX on encodings (R73): a NaN gives way to the other operand, two give the canonical one. -/
def Fmt.minMax (f : Fmt) (wantMax : Bool) (x y : Nat) : Nat :=
  let a := f.value x
  let b := f.value y
  f.produced (
    if a.isNan then (if b.isNan then f.nan else y)
    else if b.isNan then x
    else if wantMax then (if a.below b then y else x)
    else if b.below a then y else x)

/-! ### Conversions (R70-R72) -/

/-- An exact value rounded to an integer of a range (R71): the integer and its flags. -/
def Fp.toInt (rm : Rm) (lo hi : Int) (x : Fp) : Int × Flags :=
  match x with
  | .nan _ => (hi, flInvalid)
  | .inf n => (if n then lo else hi, flInvalid)
  | .fin n m e =>
    let (q, inexact) := roundAt rm n m e 0
    let v : Int := if n then -(q : Int) else q
    if v < lo then (lo, flInvalid)
    else if hi < v then (hi, flInvalid)
    else (v, if inexact then flInexact else 0)

/-- An integer as an exact value. -/
def Fp.ofInt (x : Int) : Fp := .fin (decide (x < 0)) x.natAbs 0

/-- The range of an integer format (R58). -/
def intRange (signed : Bool) (w : Nat) : Int × Int :=
  if signed then (-(2 ^ (w - 1)), 2 ^ (w - 1) - 1) else (0, 2 ^ w - 1)

/-- sat of R59. -/
def satInt (r : Int × Int) (x : Int) : Int := if x < r.1 then r.1 else if r.2 < x then r.2 else x

/-! ### Operations on encodings -/

/-- NaN inputs that signal set invalid (R64). -/
def sigFlags (xs : List Fp) : Flags := if xs.any Fp.signals then flInvalid else 0

/-- An exact result rounded once, its flags joined (R65-R68). -/
def Fmt.finish (f : Fmt) (rm : Rm) (ins : List Fp) (r : Fp × Flags) : Nat × Flags :=
  let (x, fl) := f.round rm r.1
  (x, fl ||| r.2 ||| sigFlags ins)

def Fmt.add (f : Fmt) (rm : Rm) (x y : Nat) : Nat × Flags :=
  f.finish rm [f.value x, f.value y] ((f.value x).add rm (f.value y))
def Fmt.sub (f : Fmt) (rm : Rm) (x y : Nat) : Nat × Flags :=
  f.finish rm [f.value x, f.value y] ((f.value x).add rm (f.value y).flip)
def Fmt.mul (f : Fmt) (rm : Rm) (x y : Nat) : Nat × Flags :=
  f.finish rm [f.value x, f.value y] ((f.value x).mul (f.value y))
def Fmt.div (f : Fmt) (rm : Rm) (x y : Nat) : Nat × Flags :=
  f.finish rm [f.value x, f.value y] ((f.value x).div (f.value y))
def Fmt.sqrt (f : Fmt) (rm : Rm) (x : Nat) : Nat × Flags := f.finish rm [f.value x] (f.value x).sqrt

/-- The fused forms (R160): ±(x × y) ± z from the exact value, rounded once. -/
def Fmt.fma (f : Fmt) (rm : Rm) (negProduct negAddend : Bool) (x y z : Nat) : Nat × Flags :=
  let (p, fl) := (f.value x).mul (f.value y)
  let p := if negProduct then p.flip else p
  let c := if negAddend then (f.value z).flip else f.value z
  let r := p.add rm c
  f.finish rm [f.value x, f.value y, f.value z] (r.1, r.2 ||| fl)

/-- A conversion between float formats (R70). -/
def convertFp (src dst : Fmt) (rm : Rm) (x : Nat) : Nat × Flags :=
  dst.finish rm [src.value x] (src.value x, 0)

/-- RNE_FP32 of a sum and of a product (R65, R81, R220). -/
def add32 (x y : Nat) : Nat := (f32.add .rne x y).1
def mul32 (x y : Nat) : Nat := (f32.mul .rne x y).1

/-! ### exp2 and log2 (R181): 320 binary places, past every tie of a 64-bit format -/

/-- ln 2 in units of 2^-320, rounded down. -/
def ln2 : Nat :=
  0xb17217f7d1cf79abc9e3b39803f2f6af40f343267298b62d8a0d175b8baafa2be7b876206debac98

/-- Terms of the exponential series of t / 2^320, the term in hand first. -/
def expSeries (t term sum k : Nat) : Nat → Nat
  | 0 => sum
  | n + 1 =>
    let next := term * t / 2 ^ 320 / k
    expSeries t next (sum + next) (k + 1) n

/-- 2^x for a finite x that is no integer; the result is irrational, so its last bit is always set. -/
def exp2Fin (neg : Bool) (m : Nat) (e : Int) : Fp :=
  let scaled : Nat := if 0 ≤ e then m * 2 ^ e.toNat else m / 2 ^ (-e).toNat
  let frac : Nat := if 0 ≤ e then 0 else
    (m % 2 ^ (-e).toNat) * 2 ^ 320 / 2 ^ (-e).toNat
  let n : Int := if neg then -(scaled : Int) - 1 else scaled
  let f := if neg then 2 ^ 320 - frac else frac
  let t := f * ln2 / 2 ^ 320
  .fin false (2 * expSeries t (2 ^ 320) (2 ^ 320) 1 80 + 1) (n - 321)

/-- m · 2^e is an integer. -/
def isIntegral (m : Nat) (e : Int) : Bool := decide (0 ≤ e) || m % 2 ^ (-e).toNat == 0

/-- Terms of the inverse hyperbolic tangent of z / 2^320. -/
def atanhSeries (z2 power sum k : Nat) : Nat → Nat
  | 0 => sum
  | n + 1 => atanhSeries z2 (power * z2 / 2 ^ 320) (sum + power / (2 * k + 1)) (k + 1) n

/-- log2 of m · 2^e, m positive: exact for a power of two, otherwise irrational with its last bit set. -/
def log2Fin (m : Nat) (e : Int) : Fp :=
  let l := Nat.log2 m
  let n : Int := l + e
  if m = 2 ^ l then Fp.ofInt n
  else
    let z := (m - 2 ^ l) * 2 ^ 320 / (m + 2 ^ l)
    let ln := 2 * atanhSeries (z * z / 2 ^ 320) z 0 0 110
    let r : Int := n * 2 ^ 320 + (ln * 2 ^ 320 / ln2 : Nat)
    .fin (decide (r < 0)) (2 * r.natAbs + 1) (-321)

end Sys2Proof.Machine
end

