-- ==== Sys2Proof/Machine/Lanes.lean ====
section
/-! DEFINITION. A vector register as lanes, lowest first (R32), and the element types and operations that lanes share (R32,
R33, R58, R59, R220). -/

namespace Sys2Proof.Machine

/-- The 512 / w lanes of a register. -/
def lanes (w : Nat) (v : VReg) : List Nat := (List.range (512 / w)).map fun i => v.toNat / 2 ^ (w * i) % 2 ^ w

/-- The register whose lanes these are. -/
def ofLanesNat (w : Nat) : List Nat → Nat
  | [] => 0
  | x :: xs => x % 2 ^ w + 2 ^ w * ofLanesNat w xs

def ofLanes (w : Nat) (l : List Nat) : VReg := BitVec.ofNat 512 (ofLanesNat w l)

/-- A two's complement reading of the low `w` bits. -/
def signedOf (w x : Nat) : Int := (BitVec.ofNat w x).toInt

/-- An integer as a field of `w` bits (R59's wrap). -/
def wrapTo (w : Nat) (x : Int) : Nat := (BitVec.ofInt w x).toNat

/-! ### Merging accumulates (R220, R221) -/

def AccClass.width : AccClass → Nat
  | .f32 => 32
  | .s32 => 32
  | .s64 => 64

/-- One element and one addend. -/
def AccClass.add (c : AccClass) (x y : Nat) : Nat :=
  match c with
  | .f32 => add32 x y
  | .s32 => (x + y) % 2 ^ 32
  | .s64 => (x + y) % 2 ^ 64

/-- merge of R221, and the application of R220. -/
def mergeAcc (c : AccClass) (x y : VReg) : VReg :=
  ofLanes c.width ((lanes c.width x).zipWith c.add (lanes c.width y))

/-! ### Element types (R32), by the code of VTYPE.TYPE -/

/-- Width of an element; nq4 counts as z8, the width its storage uses (R168). -/
def elemWidth (t : Nat) : Nat :=
  match t with
  | 1 => 16
  | 2 => 32
  | 3 => 64
  | 5 => 16
  | 6 => 32
  | 7 => 64
  | 8 => 16
  | 9 => 16
  | 10 => 32
  | 11 => 64
  | _ => 8

/-- The float format of a type, none for an integer type and nq4. -/
def elemFmt (t : Nat) : Option Fmt :=
  match t with
  | 8 => some f16
  | 9 => some bf16
  | 10 => some f32
  | 11 => some f64
  | 12 => some e4m3
  | 13 => some e5m2
  | _ => none

/-- A register whose lanes that the mask selects take new values; an absent value keeps the lane. -/
def mergeLanes (w : Nat) (old : VReg) (mask : Word) (f : Nat → Option Nat) : VReg :=
  ofLanes w ((lanes w old).zipIdx.map fun (o, i) => if mask.getLsbD i then (f i).getD o else o)

end Sys2Proof.Machine
end

