-- ==== Sys2Proof/Machine/SfuFun.lean ====
section
/-! DEFINITION. The functions of the special-function unit on a register's lanes (R66, R181). -/

namespace Sys2Proof.Machine

/-- 2^x; beyond ±2^14 every format's result is an overflow or a zero. -/
def exp2Fp (neg : Bool) (m : Nat) (e : Int) : Fp :=
  if m = 0 then .fin false 1 0
  else if 14 ≤ topExp m e then .fin false 1 (if neg then -16384 else 16384)
  else if isIntegral m e then
    let n : Nat := if 0 ≤ e then m * 2 ^ e.toNat else m / 2 ^ (-e).toNat
    .fin false 1 (if neg then -(n : Int) else n)
  else exp2Fin neg m e

/-- The function of a code on a value. -/
def sfuFp (fn : Nat) (x : Fp) : Fp :=
  match fn with
  | 0 => ((Fp.fin false 1 0).div x).1
  | 1 =>
    match x with
    | .nan _ => .nan false
    | .inf n => if n then .nan false else .fin false 0 0
    | .fin n m e => if m = 0 then .inf n else if n then .nan false else Fp.rsqrt m e
  | 2 =>
    match x with
    | .nan _ => .nan false
    | .inf n => if n then .fin false 0 0 else .inf false
    | .fin n m e => exp2Fp n m e
  | 3 =>
    match x with
    | .nan _ => .nan false
    | .inf n => if n then .nan false else .inf false
    | .fin n m e => if m = 0 then .inf true else if n then .nan false else log2Fin m e
  | _ => x.sqrt.1

/-- The result lanes of an entry laid over its destination (R33, R181). -/
def SfuEntry.result (e : SfuEntry) (old : VReg) : VReg :=
  let t := e.type.toNat
  match elemFmt t with
  | none => old
  | some f =>
    let src := lanes (elemWidth t) e.source
    mergeLanes (elemWidth t) old (if e.k = 0 then ~~~0#64 else e.mask) fun i =>
      src[i]?.map fun x => f.rne (sfuFp e.fn.toNat (f.value x))

end Sys2Proof.Machine
end

