-- ==== Sys2Proof/Machine/Ops.lean ====
section
/-! DEFINITION. What every instruction shares: abandoning what is outstanding, taking a trap or interrupt and returning
from one, parking with its context frame, debug halt, the signature checker, trace, and the issue and retirement of one
instruction (R25-R28, R51, R52, R164, R183, R193, R286-R296, R299, R320, R321, R335, R350-R354). -/

namespace Sys2Proof.Machine

/-! ### Trace (R354) -/

/-- A trace record written into the hart's quarter of the trace buffer, if the encoder takes its kind. -/
def State.trace (s : State) (h kind : Nat) (payload : Word) : State :=
  let c := (s.hart h).csr.tracectl
  let wanted := if kind = 3 ∨ kind = 4 then bit c 2 else bit c 1
  let full := bit c 3 && bit c 4
  if isSup h || !bit c 0 || bit c 5 || !wanted || full then s
  else
    let i := bits c 16 10
    let off := 0x3E0000 + hartSlot h * 0x4000 + i * 16
    let dw0 := BitVec.ofNat 64 (s.tick % 2 ^ 48 * 2 ^ 16 + hartSlot h * 2 ^ 8 + kind)
    let record := solid (natBytes 8 dw0.toNat ++ natBytes 8 payload.toNat)
    let s := s.sramTouch (hartVt h) off 16
    let s := { s with mem := memWrite s.mem (sliceKey (hartVt h) off) record }
    let moved := setBit (setBits c 16 10 ((i + 1) % 1024)) 4 (bit c 4 || decide (i = 1023))
    s.onHart h fun x => { x with csr := { x.csr with tracectl := moved } }

/-! ### Abandoning (R291, R295) -/

def Hart.snapshot (x : Hart) : Snapshot :=
  { regs := x.regs, fixed := x.fixed, board := x.board, pc := x.pc, instret := x.csr.instret }

/-- The hart's registers put back as an instruction found them (R290). -/
def Hart.restore (x : Hart) (p : Snapshot) : Hart :=
  { x with regs := p.regs, fixed := p.fixed, board := p.board, pc := p.pc, csr := { x.csr with instret := p.instret } }

/-- A result that has come is part of every later snapshot too, since those instructions are younger. -/
def Hart.writeResult (x : Hart) (seq : Nat) (d : Reg) (v : VReg) : Hart :=
  let x := x.write d v
  { x with flights := x.flights.map fun a =>
      if seq < a.seq then { a with snap := { a.snap with
        regs := a.snap.regs.write d v
        board := a.snap.board.filter fun b => !(b.dst == d && b.seq == seq) } } else a }

def PartStatus.performed : PartStatus → Bool
  | .held _ => true
  | .done _ => true
  | .bad => true
  | _ => false

def Access.performed (a : Access) : Bool := a.parts.all fun p => p.status.performed

/-- The access has met an empty line and is unanswered, also while it is sent again (R135, R137). -/
def Access.blocked (a : Access) : Bool := a.op.waits && a.since.isSome && !a.performed

/-- The access can no longer be abandoned: an atomic that was sent, or an LDTAKE that its home has answered. -/
def Access.committed (a : Access) : Bool :=
  match a.op with
  | .amo _ _ _ _ => true
  | .take => a.parts.any fun p => match p.status with | .held _ => true | .done _ => true | _ => false
  | _ => false

/-- Queued RSTATs of a hart: abandonable while their turn has not come (R205). -/
def State.rstats (s : State) (h : Nat) : List ArrayCmd :=
  (s.tile (hartVt h)).queue.filter fun c =>
    c.hart == h && (match c.op with | .rstat _ _ => true | _ => false)

/-- The hart has no outstanding access and no RSTAT to wait for: what reaches beyond its registers may issue (R291). -/
def State.settled (s : State) (h : Nat) : Bool := (s.hart h).flights.isEmpty && (s.rstats h).isEmpty

/-- An instruction boundary can be reached by abandoning (R295). -/
def State.mayAbandon (s : State) (h : Nat) : Bool := !((s.hart h).flights.any (·.committed))

/-- The request of an access is withdrawn at its homes: from line-wait lists and channel queues. -/
def State.withdraw (s : State) (h : Nat) (id : Nat) : State :=
  { s with
    tiles := s.tiles.map fun (k, t) =>
      (k, { t with
        lineWait := t.lineWait.filter fun w => !(w.hart == h && w.access == id)
        egress := t.egress.filter fun i => match i.item with
          | .answer h' a _ => !(h' == h && a == id)
          | _ => true })
    dies := s.dies.map fun (k, d) =>
      (k, { d with channels := d.channels.map fun (j, c) =>
        (j, { c with queue := c.queue.filter fun r => r.access != id }) }) }

/-- SFU entries of abandoned instructions: those not started leave, a started one loses its result (R291). -/
def State.dropSfu (s : State) (h seq : Nat) : State :=
  let young (e : SfuEntry) : Bool := e.hart == h && decide (seq < e.seq)
  let s := s.onHart h fun x => { x with withdrawnSfu := x.withdrawnSfu.filter fun e => !young e }
  s.onTile (hartVt h) fun t => { t with
    sfu := t.sfu.filter fun e => !young e
    sfuRunning := t.sfuRunning.map fun (e, c) => (if young e then { e with discard := true } else e, c) }

/-- The oldest abandonable instruction and every younger one are abandoned (R291): the hart is back at its boundary. -/
def State.abandon (s : State) (h : Nat) : State :=
  let x := s.hart h
  let snaps := x.flights.map (fun a => (a.seq, a.snap))
    ++ (s.rstats h).filterMap fun c => c.snap.map fun p => (c.seq, p)
  match snaps.foldl (fun o p => match o with
      | none => some p
      | some q => if p.1 < q.1 then some p else some q) (none : Option (Nat × Snapshot)) with
  | none => s
  | some (seq, snap) =>
    let s := x.flights.foldl (fun s a => s.withdraw h a.id) s
    let s := s.onHart h fun x => { x.restore snap with
      seq := seq, flights := [], pendTraps := x.pendTraps.filter (·.access.isNone) }
    if isSup h then s
    else
      (s.onTile (hartVt h) fun t => { t with queue := t.queue.filter fun c =>
        !(c.hart == h && (match c.op with | .rstat _ _ => true | _ => false)) }).dropSfu h seq

/-! ### Leaving a context -/

/-- The waits of a hart end at its boundary. Its SFU entries that have not started are withdrawn, in queue order, ahead of those that had not re-entered yet
(R183); a FLUSHRES that waits starts
afresh later (R225), and so does a wait for a lane group (R165); an MDRAIN that waits gives its send-queue entry back (R203). -/
def State.withdrawSfu (s : State) (h : Nat) : State :=
  let t := s.tile (hartVt h)
  let mine := t.sfu.filter fun e => e.hart == h
  let kept := t.flushing.filter fun f => f.hart != h
  let t := { t with
    sfu := t.sfu.filter fun e => e.hart != h
    flushing := kept
    laneWant := t.laneWant.filter fun w => w.1 != h
    laneGrants := t.laneGrants.filter (· != h) }
  (s.setTile (hartVt h) t).onHart h fun x =>
    { x with withdrawnSfu := mine ++ x.withdrawnSfu, wfi := none, handlerSince := none
             sendq := x.sendq.filter fun e => !(e.id == x.seq && e.state == .reserved) }

/-- A lease ends under preemption, park, debug halt or shed hold (R193): at once, or when the command that runs retires. -/
def State.endLease (s : State) (h : Nat) : State :=
  let busy := match (s.tile (hartVt h)).running with
    | some c => c.cmd.hart == h
    | none => false
  s.onHart h fun x =>
    if busy && (x.lease == .held || x.lease == .spent) then { x with leaseEnding := true }
    else { x with lease := .none, leaseEnding := false }

/-- The open signature block ends unchecked and the checker resynchronises (R321): its check no longer holds items. -/
def State.endBlock (s : State) (h : Nat) : State :=
  let c := (s.hart h).checker
  let s := match c.block with
    | some b => s.onTile (hartVt h) fun t => { t with unverified := t.unverified.filter (· != b.checkId) }
    | none => s
  s.onHart h fun x => { x with checker := { x.checker with block := none, resync := true } }

/-! ### Context frames (R296) -/

def Mode.code : Mode → Nat
  | .user => 0
  | .kernel => 1
  | .firmware => 3

/-- The eight dwords of a vector register, lowest first. -/
def vregDwords (v : VReg) : List Word := (List.range 8).map fun i => v.extractLsb' (64 * i) 64

def SfuEntry.record (e : SfuEntry) : List Word :=
  vregDwords e.source ++
    [BitVec.ofNat 64 (2 ^ 20 + e.type.toNat * 2 ^ 16 + e.k.toNat * 2 ^ 13 + e.vd.toNat * 2 ^ 8 + e.fn.toNat)
     , if e.k = 0 then 0 else e.mask]

def BarrierRecord.word_ (b : BarrierRecord) : Word :=
  BitVec.ofNat 64 (b.word.toNat + b.joined.toNat * 2 ^ 17 + b.arrived.toNat * 2 ^ 18 + b.inUse.toNat * 2 ^ 19
    + b.phase.toNat * 2 ^ 20)

def SpawnLatch.word (l : SpawnLatch) : Word :=
  BitVec.ofNat 64 (l.armed.toNat + l.answered.toNat * 2 + l.accepted.toNat * 4)

/-- The 512 dwords of a hart's frame, with the cause and TVAL of the park. -/
def Hart.frame (x : Hart) (cause tval : Nat) : List Word :=
  let c := x.csr
  let sfu := (x.withdrawnSfu.take 4).flatMap (·.record)
  (0 :: (x.regs.g.toList.drop 1)) ++ x.regs.f.toList
    ++ x.regs.v.toList.flatMap vregDwords
    ++ x.regs.k.toList
    ++ [x.pc, BitVec.ofNat 64 (x.mode.code * 256 + cause), BitVec.ofNat 64 tval]
    ++ [c.kstatus, c.kepc, c.kcause.zeroExtend 64, c.ktval, c.kscratch, c.ktvec]
    ++ [c.uepc, c.ucause, c.utval, c.uscratch, c.utvec]
    ++ [c.fflags.zeroExtend 64, c.frm.zeroExtend 64, c.vtype.zeroExtend 64, c.chprio.zeroExtend 64
        , c.retrymax.zeroExtend 64, c.retrygap.zeroExtend 64, c.hrsel.zeroExtend 64]
    ++ [c.launchid.zeroExtend 64, c.tenant.zeroExtend 64, c.pclass.zeroExtend 64]
    ++ [x.sendqWord, x.spawn.word] ++ x.barriers.toList.map (·.word_) ++ [c.tags, c.tagerr]
    ++ [c.ptbase, c.iset, c.sigbase, c.savemap, c.equota, c.msave, flag c.tenpermInline, c.udeleg, c.kdeleg, c.kie
        , c.kip.zeroExtend 64]
    ++ List.replicate 13 0 ++ sfu ++ List.replicate (128 - sfu.length) 0

/-- Offset of a hart's frame in its tile's SRAM (R294). -/
def frameOff (h : Nat) : Nat := 0x3F0000 + hartSlot h * 0x1000

def State.frameWord (s : State) (h i : Nat) : Word :=
  BitVec.ofNat 64 (bytesNat (memBytes s.mem (sliceKey (hartVt h) (frameOff h + 8 * i)) 8))

/-- The mode a frame names; 2 and 3 name no mode of a tile hart and are read as U (notes/assumptions/10.md). -/
def frameMode (w : Word) : Mode := if bits w 8 2 = 1 then .kernel else .user

/-- The SFU record i of a frame, if VALID (R296). -/
def State.frameSfu (s : State) (h i : Nat) : Option SfuEntry :=
  let w := s.frameWord h (0x180 + 10 * i + 8)
  if bit w 20 then
    some { id := 0, hart := h, fn := BitVec.ofNat 4 (bits w 0 8), type := BitVec.ofNat 4 (bits w 16 4)
           k := BitVec.ofNat 3 (bits w 13 3), vd := BitVec.ofNat 5 (bits w 8 5)
           source := (List.range 8).foldl (fun v j =>
             v ||| ((s.frameWord h (0x180 + 10 * i + j)).zeroExtend 512 <<< (64 * j))) 0
           mask := s.frameWord h (0x180 + 10 * i + 9), seq := 0, discard := false }
  else none

/-- A latch reloaded from its word (R296): one that is armed keeps the SPAWN and the message it belongs to, and an answer that
has come in the meantime (R242). -/
def SpawnLatch.reloaded (l : SpawnLatch) (w pc : Word) : SpawnLatch :=
  if !bit w 0 then { armed := false, answered := bit w 1, accepted := bit w 2, retryAt := 0, pc := pc }
  else
    { armed := true, answered := bit w 1 || (l.armed && l.answered)
      accepted := if l.armed && l.answered then l.accepted else bit w 2
      retryAt := if l.armed then l.retryAt else 0, pc := if l.armed then l.pc else pc
      entry := if l.armed then l.entry else 0 }

/-- A frame reloaded into its hart (R294, R296): registers, CSRs, latches and records; KIP by OR; TAGS, TAGERR, the
send queue's COUNT and the reserved fields are not taken from it. A quota that it brings is judged anew (R335). -/
def State.reloadFrame (s : State) (h : Nat) : State :=
  let w := s.frameWord h
  let sfu := (List.range 4).filterMap fun i => s.frameSfu h i
  s.onHart h fun x =>
    { x with
      regs :=
        { g := Vector.ofFn fun i => if i.val = 0 then 0 else w i.val
          f := Vector.ofFn fun i => w (32 + i.val)
          v := Vector.ofFn fun i => (List.range 8).foldl (fun v j =>
            v ||| ((w (64 + 8 * i.val + j)).zeroExtend 512 <<< (64 * j))) 0
          k := Vector.ofFn fun i => w (320 + i.val) }
      pc := w 328 &&& ~~~(3#64)
      mode := frameMode (w 329)
      parked := none
      withdrawnSfu := x.withdrawnSfu ++ sfu
      spawn := x.spawn.reloaded (w 353) (w 328 &&& ~~~(3#64))
      barriers := Vector.ofFn fun i =>
        let b := w (354 + i.val)
        { word := BitVec.ofNat 17 (bits b 0 17), joined := bit b 17, arrived := bit b 18, inUse := bit b 19
          phase := BitVec.ofNat 16 (bits b 20 16) }
      fixed := []
      irq := { x.irq with preemptAt := s.cycle (hartVt h) }
      barred := bits (w 364) 0 32 != 0 && decide (bits (w 364) 0 32 ≤ bits (w 364) 32 32)
      csr := { x.csr with
        stallchk := bit (w 331) 8, pm := BitVec.ofNat 2 (bits (w 331) 4 2 % 2), sp := bit (w 331) 3
        pie := bit (w 331) 1, ie := bit (w 331) 0
        kepc := w 332, kcause := (w 333).truncate 8, ktval := w 334, kscratch := w 335, ktvec := w 336 &&& ~~~(3#64)
        uepc := w 337, uh := bit (w 338) 63, ucode := (w 338).truncate 8, utval := w 339, uscratch := w 340
        utvec := w 341 &&& ~~~(3#64)
        fflags := (w 342).truncate 5, frm := if bits (w 343) 0 3 ≤ 4 then (w 343).truncate 3 else x.csr.frm
        vtype := if bits (w 344) 0 4 = 15 then x.csr.vtype else (w 344).truncate 4
        chprio := (w 345).truncate 8, retrymax := (w 346).truncate 16
        retrygap := BitVec.ofNat 32 (max 16 (bits (w 347) 0 32)), hrsel := (w 348).truncate 6
        launchid := (w 349).truncate 16, tenant := (w 350).truncate 6, pclass := (w 351).truncate 3
        inld := BitVec.ofNat 8 (bits (w 352) 8 8)
        ptbase := if bits (w 360) 8 2 = 3 then x.csr.ptbase else w 360 &&& 0x00FFFFFFFFFFFF01
        iset := w 361 &&& 0xFFFFFFFFFFFF, sigbase := w 362 &&& ~~~(6#64), savemap := w 363 &&& ~~~(7#64)
        equotaUsed := BitVec.ofNat 32 (bits (w 364) 32 32), equotaLimit := (w 364).truncate 32
        msave := w 365 &&& ~~~(63#64), tenpermInline := bit (w 366) 0
        udeleg := w 367, kdeleg := w 368, kie := w 369
        kip := x.csr.kip ||| (w 370).truncate 7 } }

/-! ### Taking a trap (R287, R288) -/

/-- The causes whose UDELEG bit is ignored (R287). -/
def Cause.mayGoToU : Cause → Bool
  | .ecallU => false
  | .ecallK => false
  | .matrixUnavail => false
  | .lwatchFull => false
  | .barrierFull => false
  | .sigMismatch => false
  | .screenFail => false
  | _ => true

/-- The trapping word a park record carries: 0 for an interrupt or fetch fault (R293). -/
def parkWord (c : Cause) (word : Word32) : Word :=
  match c with
  | .fetchFault => 0
  | .fetchPf => 0
  | _ => word.zeroExtend 64

/-- The kind-2 record of a parked hart (R293), with the dump area's PA in a4. -/
def State.postPark (s : State) (h : Nat) (x : Hart) (code : Nat) (tval word : Word) (mode : Mode) (dump : Nat) : State :=
  s.postFault (hartVt h) (hartSlot h) x.csr.tenant x.csr.launchid
    [x.pc, tval, word, BitVec.ofNat 64 (mode.code * 2 ^ 24 + x.csr.tenant.toNat * 2 ^ 16 + x.csr.launchid.toNat)
     , BitVec.ofNat 64 dump, BitVec.ofNat 64 (hartVt h % 4096 * 2 ^ 20 + hartSlot h * 2 ^ 18 + 2 * 2 ^ 16 + code)]

/-- The context frame is in SRAM: the hart is parked, holds no withdrawn entry, and its kind-2 record is posted
(R294 steps 4 and 5, R293). -/
def State.parkFrame (s : State) (h : Nat) (c : Cause) (tval : Word) (word : Word32) : State :=
  let x := s.hart h
  let frame := solid ((x.frame c.code tval.toNat).flatMap fun w => natBytes 8 w.toNat)
  let s := s.sramTouch (hartVt h) (frameOff h) 4096
  let s := { s with mem := memWrite s.mem (sliceKey (hartVt h) (frameOff h)) frame }
  let s := s.setHart h { x with
    withdrawnSfu := []
    parked := some { cause := BitVec.ofNat 8 c.code, tval := tval, word := parkWord c word, mode := x.mode } }
  s.postPark h x c.code tval (parkWord c word) x.mode 0

/-- A started SFU entry of the hart has still to write its destination: no boundary of the hart is reached (R167). -/
def State.sfuBusy (s : State) (h : Nat) : Bool :=
  !isSup h && (s.tile (hartVt h)).sfuRunning.any fun e => e.1.hart == h && !e.1.discard

/-- SFU entries of a hart that have started complete before its frame is written (R183, R294 step 3; the wait takes no
time, notes/assumptions/66.md). -/
def State.finishSfu (s : State) (h : Nat) : State :=
  let t := s.tile (hartVt h)
  let s := s.setTile (hartVt h) { t with sfuRunning := t.sfuRunning.filter fun e => e.1.hart != h }
  (t.sfuRunning.filter fun e => e.1.hart == h && !e.1.discard).foldl (fun s e =>
    s.onHart h fun x => x.writeResult e.1.seq (.v e.1.vd) (e.1.result (x.regs.read (.v e.1.vd)))) s

/-- A hart parks (R294): no level takes the trap. -/
def State.park (s : State) (h : Nat) (c : Cause) (tval : Word) (word : Word32) : State :=
  ((s.endLease h).finishSfu h).parkFrame h c tval word

/-- Trap entry to K (R288). -/
def Hart.enterK (x : Hart) (code : Nat) (tval : Word) (pc : Word) : Hart :=
  { x with
    mode := .kernel
    pc := x.csr.ktvec
    csr := { x.csr with
      kepc := pc, ktval := tval, kcause := BitVec.ofNat 8 code
      pm := if x.mode = .user then 0 else 1, pie := x.csr.ie, ie := false } }

/-- Trap entry to U (R164, R288). -/
def Hart.enterU (x : Hart) (c : Cause) (tval : Word) : Hart :=
  { x with pc := x.csr.utvec
           csr := { x.csr with uepc := x.pc, utval := tval, ucode := BitVec.ofNat 8 c.code, uh := true } }

/-- Trap entry of a supervisor hart (R288). -/
def Hart.enterF (x : Hart) (c : Cause) (tval : Word) : Hart :=
  { x with pc := x.csr.ftvec
           csr := { x.csr with fepc := x.pc, ftval := tval, fcause := BitVec.ofNat 8 c.code, fPie := x.csr.fIe
                               fIe := false } }

/-- Where a trap of a cause goes (R288). -/
inductive TrapLevel where
  | user
  | kernel
  | firmware
  | park
  deriving DecidableEq, Repr

def Hart.trapLevel (x : Hart) (c : Cause) : TrapLevel :=
  if x.mode = .firmware then .firmware
  else if x.mode = .user ∧ x.csr.uh = false ∧ bit x.csr.udeleg c.code ∧ c.mayGoToU ∧ x.csr.utvec ≠ 0 then .user
  else if bit x.csr.kdeleg c.code ∧ c ≠ .ecallK ∧ x.csr.ktvec ≠ 0 then .kernel
  else .park

/-- Taking a trap with its PC in the hart (R288): fixed-latency results drain, SFU entries are withdrawn, the open block
ends unchecked, and the level that delegation names takes it. -/
def State.takeTrap (s : State) (h : Nat) (c : Cause) (tval : Word) (word : Word32) : State :=
  let s := s.onHart h Hart.drain
  let s := if isSup h then s else (s.withdrawSfu h).endBlock h
  match (s.hart h).trapLevel c with
  | .firmware => s.onHart h fun x => x.enterF c tval
  | .user => (s.onHart h fun x => x.enterU c tval).trace h 2 (s.hart h).csr.utvec
  | .kernel => (s.onHart h fun x => x.enterK c.code tval x.pc).trace h 2 (s.hart h).csr.ktvec
  | .park => s.park h c tval word

/-! ### Interrupts (R292) -/

/-- The ranks, first to last. -/
def interruptRanks : List Nat := [1, 4, 3, 5, 0, 2]

/-- The interrupt a hart takes at a boundary, if any; `skip` is passed over (R292, R300). -/
def Hart.dueInterrupt (x : Hart) (skip : Nat → Bool) : Option Nat :=
  if x.csr.ktvec ≠ 0 ∧ (x.mode = .user ∨ x.csr.ie = true) ∧ x.mode ≠ .firmware ∧ x.task.isSome then
    interruptRanks.find? fun n => x.csr.kip.getLsbD n && bit x.csr.kie n && !skip n
  else none

/-- The TVAL an interrupt writes (R287). -/
def Hart.interruptTval (x : Hart) (n : Nat) : Word :=
  match n with
  | 2 => x.irq.throttle
  | 4 => x.irq.shed
  | 5 => x.irq.cancel
  | _ => 0

/-- An interrupt is taken at K at the hart's boundary, with the PC to return to (R292): 0x80 and 0x81 end the lease
(R193), 0x81 writes SP (R300). -/
def State.takeInterrupt (s : State) (h n : Nat) (epc : Word) (sp : Bool) : State :=
  let s := (((s.onHart h Hart.drain).withdrawSfu h).endBlock h)
  let s := if n = 0 ∨ n = 1 then s.endLease h else s
  let s := s.onHart h fun x =>
    let x := { x with csr := { x.csr with kip := x.csr.kip &&& ~~~(BitVec.ofNat 7 (2 ^ n)) } }
    let y := x.enterK (0x80 + n) (x.interruptTval n) epc
    if n = 1 then { y with csr := { y.csr with sp := sp } } else y
  s.trace h 2 (s.hart h).csr.ktvec

/-- Debug halt at the hart's boundary (R351); its kernel is not entered. -/
def State.enterHalt (s : State) (h : Nat) (tick : Nat) : State :=
  let s := s.onHart h Hart.drain
  let s := if isSup h then s else ((s.withdrawSfu h).endBlock h).endLease h
  let s := s.onHart h fun x =>
    { x with
      halted := some tick
      stepping := false
      csr := { x.csr with kip := x.csr.kip &&& ~~~(64#7) }
      lwaitSpurious := x.lwaitSpurious || s.hasWatch h }
  s.trace h 5 (s.hart h).pc

/-! ### Inline code (R235) -/

def slotPc : Nat := 0xFFFFFFFF00000000

/-- The word number a slot PC names, if it lies among the slot PCs. -/
def slotIndex (pc : Word) : Option Nat :=
  if slotPc ≤ pc.toNat ∧ pc.toNat < slotPc + 56 then some ((pc.toNat - slotPc) / 4) else none

/-! ### The signature checker (R320, R321) -/

/-- CRC-32C of one byte. -/
def crc32cByte (crc : BitVec 32) (b : Byte) : BitVec 32 :=
  (List.range 8).foldl (fun c _ => if c.getLsbD 0 then (c >>> 1) ^^^ 0x82F63B78 else c >>> 1)
    (crc ^^^ b.zeroExtend 32)

/-- CRC-32C of a 64-bit record, little-endian. -/
def crc32cWord (crc : BitVec 32) (w : Word) : BitVec 32 := (natBytes 8 w.toNat).foldl crc32cByte crc

/-- A dword of the signature table, read as the kernel's own load would; none where it cannot be read. -/
def State.sigWord (s : State) (h : Nat) (va : Word) : State × Option Word :=
  match s.locate { s.ctx h with mode := .kernel } va .load false with
  | (s, .ok l) =>
    let s := (s.countIssue (hartDie h) l.place).serveHbm l.place
    if s.unreadable l.place then (s, none)
    else
      let r := s.readBytes l.place 8
      (r.1, r.2.map fun bs => BitVec.ofNat 64 (bytesNat bs))
  | (s, .error _) => (s, none)

/-- The table entry of a start PC: expected signature and COUNT (R320). -/
def State.sigEntry (s : State) (h : Nat) (base pc : Word) : Nat → State × Option (BitVec 32 × Nat)
  | 0 => (s, none)
  | n + 1 =>
    match s.sigEntry h base pc n with
    | (s, some e) => (s, some e)
    | (s, none) =>
      let at_ := base + BitVec.ofNat 64 (8 + 16 * n)
      match s.sigWord h at_ with
      | (s, some w) =>
        if w = pc then
          let r := s.sigWord h (at_ + 8)
          (r.1, r.2.map fun w => (BitVec.ofNat 32 (bits w 32 32), bits w 0 7))
        else (s, none)
      | (s, none) => (s, none)

/-- The distance back to a field's last writer in the block, 0 when there is none (R320). -/
def blockDistance (b : OpenBlock) (r : Option Reg) : Nat :=
  match r with
  | none => 0
  | some r => match b.writers.find? fun w => w.1 == r with
    | some (_, i) => (b.folded - i) % 256
    | none => 0

/-- The 64-bit record of the next instruction of a block (R320). -/
def blockRecord (b : OpenBlock) (word : Word32) (fields : List Reg) : Word :=
  BitVec.ofNat 64 (word.toNat * 2 ^ 32 + blockDistance b fields[0]? * 2 ^ 24 + blockDistance b fields[1]? * 2 ^ 16
    + blockDistance b fields[2]? * 2 ^ 8 + b.folded % 256)

/-- U-mode instructions of a hart are checked: SIGBASE.EN, not inline code (R321). -/
def Hart.checked (x : Hart) : Bool := bit x.csr.sigbase 0 && x.mode == .user && (slotIndex x.pc).isNone

/-- A mismatch reported for a block: its check fails (R321). -/
def State.failBlock (s : State) (h : Nat) : State :=
  let (id, s) := s.fresh
  let s := s.onTile (hartVt h) fun t => { t with unverified := t.unverified ++ [id] }
  let retired := s.cycle (hartVt h)
  s.onHart h fun x => { x with checker := { x.checker with
    block := none, resync := false
    pending := x.checker.pending ++ [{ checkId := id, pass := false, retired := retired }] } }

/-- At a U-mode PC outside an open block the checker looks the PC up (R321). -/
def State.openBlock (s : State) (h : Nat) : State :=
  let x := s.hart h
  if isSup h || !x.checked || x.checker.block.isSome then s
  else
    let base := x.csr.sigbase &&& ~~~(7#64)
    let (s, n) := s.sigWord h base
    match s.sigEntry h base x.pc (n.getD 0).toNat with
    | (s, none) => if x.checker.resync then s else s.failBlock h
    | (s, some (sig, count)) =>
      let (id, s) := s.fresh
      let s := s.onTile (hartVt h) fun t => { t with unverified := t.unverified ++ [id] }
      s.onHart h fun x => { x with checker := { x.checker with
        resync := false
        block := some { start := x.pc, expected := sig, count := count, folded := 0, crc := 0xFFFFFFFF, writers := []
                        checkId := id } } }

/-- One retirement folded into the open block; the block closes at its last instruction or a taken branch (R321). -/
def State.foldBlock (s : State) (h : Nat) (word : Word32) (fields writes : List Reg) (taken : Bool) : State :=
  let x := s.hart h
  match x.checker.block with
  | none => s
  | some b =>
    let b := { b with
      crc := crc32cWord b.crc (blockRecord b word fields)
      writers := (writes.filter Reg.real).map (fun r => (r, b.folded)) ++ b.writers
      folded := b.folded + 1 }
    if b.folded = b.count ∨ taken then
      let expected := if x.checker.corrupt then b.expected ^^^ 1 else b.expected
      let pass := decide (b.folded = b.count) && (b.crc ^^^ 0xFFFFFFFF) == expected
      s.setHart h { x with checker := { x.checker with
        block := none, corrupt := false
        pending := x.checker.pending ++ [{ checkId := b.checkId, pass := pass, retired := s.cycle (hartVt h) }] } }
    else s.setHart h { x with checker := { x.checker with block := some b } }

/-! ### Issue and retirement -/

/-- What a body of an instruction decides. -/
inductive Act where
  /-- It retires; the next instruction follows it. -/
  | done (s : State)
  /-- It retires and control goes to a target. -/
  | jump (s : State) (target : Word)
  /-- It retires and has set mode and PC itself, or ended the task. -/
  | leave (s : State)
  /-- It raises a trap and has changed nothing. -/
  | trap (c : Cause) (tval : Word)
  /-- It raises a trap after walks that leave what they leave (R98, R110). -/
  | trapFrom (s : State) (c : Cause) (tval : Word)
  /-- It waits, restartably: it has not retired. -/
  | wait (s : State)
  /-- The hart entered debug halt before it (R350). -/
  | halt
  | stop (r : Refusal)
  deriving DecidableEq, Repr

/-- What issue needs to know of an instruction. -/
structure Op where
  sc : BitVec 3
  reads : List Reg
  writes : List Reg
  /-- The registers its fields A, B and C name, where they are not `reads` in order (R320). -/
  fields : Option (List Reg) := none
  /-- Its fixed latency; 0 when its result is scoreboarded or it has none. -/
  latency : Nat := 0
  /-- Its effect reaches beyond the g, f, v and k registers, the PC and the SFU queue (R291). -/
  reach : Bool := false
  low : Mode := .user
  bytes : Nat := 4

def Mode.rank : Mode → Nat
  | .user => 0
  | .kernel => 1
  | .firmware => 2

/-- A U-mode instruction is charged its weight; at the limit the hart is barred (R335). -/
def Hart.charge (x : Hart) (user : Bool) (energy : Nat) : Hart :=
  if user then
    let used := x.csr.equotaUsed + BitVec.ofNat 32 energy
    { x with csr := { x.csr with equotaUsed := used }
             barred := x.barred || (x.csr.equotaLimit != 0 && decide (x.csr.equotaLimit ≤ used)) }
  else x

/-- Retirement (R25, R320, R335): counted, charged, folded, `sc + 1` units of encoded distance pass, and the next
instruction issues no earlier than `sc + 1` cycles on. -/
def State.retire (s : State) (h : Nat) (o : Op) (mode : Mode) (taken : Bool) : State :=
  let s := if mode = .user ∧ ¬ isSup h then s.foldBlock h s.word (o.fields.getD o.reads) o.writes taken else s
  let next := s.cycle (hartVt h) + o.sc.toNat + 1
  let energy := Config.energyOfWord s.word
  s.onHart h fun x =>
    let x := x.charge (mode == .user) energy
    ({ x with csr := { x.csr with instret := x.csr.instret + 1 }, nextIssue := next, seq := x.seq + 1 }).age
      (o.sc.toNat + 1)

/-- Everything older than the instruction at the hart's PC is in the context (R167, R290). -/
def State.boundary (s : State) (h : Nat) : Bool := s.settled h && (s.hart h).board.isEmpty && !s.sfuBusy h

/-- No instruction issues in this move. -/
def State.idle (s : State) : State := { s with cur := noHart }

/-- The hart's instruction waits, which a sample shows (R355). -/
def State.waiting (s : State) (h : Nat) : State := s.onHart h fun x => { x with waits := some (x.seq, x.pc) }

/-- The record of a park finds room in the hold, if the trap parks the hart (R294, R319). -/
def State.parkRoom (s : State) (h : Nat) (c : Cause) : Bool :=
  (s.hart h).trapLevel c != .park || isSup h || (s.tile (hartVt h)).hasRoom 64

/-- A trap of the instruction at the hart's PC: it waits until everything older is in the context (R290). -/
def State.raise (s : State) (h : Nat) (c : Cause) (tval : Word) : State :=
  if s.boundary h && s.parkRoom h c then s.takeTrap h c tval s.word else s.idle

/-- One instruction of the current hart (R28, R51, R291): the checks before any effect in their order, the waits of the
scoreboard, then the body and what it decides. -/
def State.run (s : State) (o : Op) (body : State → Act) : Host.Outcome State Fault Refusal :=
  let h := s.cur
  let x := s.hart h
  if x.mode.rank < o.low.rank then .next ((s.openBlock h).raise h .priv (s.word.zeroExtend 64))
  else if x.csr.stallchk && x.tooSoon o.reads o.writes o.latency then
    .next ((s.openBlock h).raise h .stallViol (s.word.zeroExtend 64))
  else if s.mustWait h (o.reads ++ o.writes) || (o.reach && !s.settled h) then .next (s.waiting h).idle
  else
    match body (s.openBlock h) with
    | .done t => .next ((t.onHart h fun y => { y with pc := y.pc + BitVec.ofNat 64 o.bytes }).retire h o x.mode false)
    | .jump t target =>
      .next (((t.onHart h fun y => { y.drain with pc := target }).retire h o x.mode true).trace h 1 target)
    | .leave t => .next (t.retire h o x.mode true)
    | .trap c tval => .next ((s.openBlock h).raise h c tval)
    | .trapFrom t c tval => .next (t.raise h c tval)
    | .wait t => .next (t.waiting h)
    | .halt => .next (if s.boundary h then s.enterHalt h (s.panelHalt.getD s.tick) else s.idle)
    | .stop r => .refused r

/-- The ILLEGAL of an operand reports the instruction word (R52). -/
def State.illegal (s : State) : Act := .trap .illegal (s.word.zeroExtend 64)

/-- An access that has no place: its trap, or its wait while a walk waits (R97, R112). -/
def State.unplaced (s : State) (c : Option Cause) (tval : Word) : Act :=
  match c with
  | some c => .trapFrom s c tval
  | none => .wait s

/-- An instruction that acts on a unit only a tile has (R9, R17). -/
def State.onTileHart (s : State) (a : Act) : Act := if isSup s.cur then .stop .noTileUnit else a

end Sys2Proof.Machine
end

