-- ==== Sys2Proof/Machine/Slots.lean ====
section
/-! DEFINITION. The slot table and the grants of the matrix array as time passes (R190, R191, R193). -/

namespace Sys2Proof.Machine

/-- The hart holds the lease: HELD or SPENT. -/
def Hart.holdsLease (x : Hart) : Bool := x.lease == .held || x.lease == .spent

/-- The holder of a tile's lease. -/
def State.leaseHolder (s : State) (v : Nat) : Option Nat :=
  ((List.range 4).map (v * 4 + ·)).find? fun h => (s.hart h).holdsLease

/-- The hart that a slot, counted from cycle 0, is assigned to (R190). -/
def State.slotHartAt (s : State) (v slot : Nat) : Option Nat :=
  let e := bits (s.tile v).slottab (4 * (slot % 16)) 4
  if 8 ≤ e then some (v * 4 + e % 4) else none

/-- The hart that the current slot is assigned to (R190). -/
def State.slotHart (s : State) (v : Nat) : Option Nat := s.slotHartAt v (s.cycle v / 256)

/-- Whom a grant in a slot would pick among the harts that request (R191). -/
def State.leasePickAt (s : State) (v slot : Nat) (req : Nat → Bool) : Option Nat :=
  match (s.slotHartAt v slot).filter req with
  | some h => some h
  | none => ((List.range 4).map fun i => v * 4 + ((s.tile v).lastGrant + 1 + i) % 4).find? req

/-- Whom a grant would pick now. -/
def State.leasePick (s : State) (v : Nat) (req : Nat → Bool) : Option Nat := s.leasePickAt v (s.cycle v / 256) req

/-- A hart is granted the lease. -/
def State.giveLease (s : State) (v h : Nat) : State :=
  (s.onHart h fun x => { x with lease := .held, leaseCount := 0 }).onTile v fun t => { t with lastGrant := hartSlot h }

/-- The grant in a slot where there is no holder and some hart requests (R191). -/
def State.grantLeaseAt (s : State) (v slot : Nat) : State :=
  match s.leaseHolder v with
  | some _ => s
  | none =>
    match s.leasePickAt v slot fun h => (s.hart h).lease == .req with
    | some h => s.giveLease v h
    | none => s

/-- The grant of the current cycle. -/
def State.grantLease (s : State) (v : Nat) : State := s.grantLeaseAt v (s.cycle v / 256)

/-- The holder is displaced at the boundary that begins a slot (R191): it is SPENT, idle in the slot just ended, or in
another's slot. -/
def State.displace (s : State) (v slot : Nat) : State :=
  match s.leaseHolder v with
  | none => s
  | some h =>
    let x := s.hart h
    let claimed := match s.slotHartAt v slot with
      | some o => o != h && (s.hart o).lease == .req
      | none => false
    if !x.leaseEnding && (x.lease == .spent || !(s.tile v).leaseUsed.contains (hartSlot h) || claimed) then
      s.setHart h { x with lease := .req }
    else s

/-- Leases change hands on the tile: a held one is not preempted (R193, R346). -/
def Tile.leasesMove (t : Tile) : Bool :=
  match t.cond with
  | .running => true
  | .drain => true
  | .replay => true
  | _ => false

/-- The boundary that begins a slot: SLOTTAB's written value takes effect, the holder may be displaced, and the lease is
granted (R190, R191). -/
def State.beginSlot (s : State) (v slot : Nat) : State :=
  let s := s.onTile v fun t => { t with slotAt := slot, slottab := t.slottabNext.getD t.slottab, slottabNext := none }
  if (s.tile v).leasesMove then ((s.displace v slot).onTile v fun t => { t with leaseUsed := [] }).grantLeaseAt v slot else s

/-- The next `k` boundaries pass in turn. -/
def State.beginSlots (s : State) (v : Nat) : Nat → State
  | 0 => s
  | k + 1 => (s.beginSlot v ((s.tile v).slotAt + 1)).beginSlots v k

/-- Some hart of the tile holds or requests the lease. -/
def State.leaseBusy (s : State) (v : Nat) : Bool :=
  (List.range 4).any fun i => (s.hart (v * 4 + i)).lease != .none

/-- Every slot boundary that has come since the last one is kept, each with the table in force then (R190, R191); where
nobody holds or requests the lease the last one stands for all. -/
def State.keepSlot (s : State) (v : Nat) : State :=
  let n := s.cycle v / 256
  let behind := n - (s.tile v).slotAt
  if behind = 0 then s else if s.leaseBusy v then s.beginSlots v behind else s.beginSlot v n

/-- A lease command is counted when it enters the array queue (R191). -/
def State.countLease (s : State) (h : Nat) : State :=
  let v := hartVt h
  (s.onTile v fun t => { t with leaseUsed := insertNat t.leaseUsed (hartSlot h) }).onHart h fun x =>
    { x with
      leaseCount := x.leaseCount + 1
      lease := if (s.tile v).leasen.toNat ≤ x.leaseCount + 1 then .spent else x.lease }

end Sys2Proof.Machine
end

