-- ==== Sys2Proof/Machine/Fetch.lean ====
section
/-! DEFINITION. Time, and a hart at an instruction boundary: what keeps it from issuing, the traps and interrupts due
there, and the fetch of its next instruction (R22, R25, R49, R93, R112, R234, R235, R288, R292, R300, R303, R333-R335,
R346, R350, R393). -/

namespace Sys2Proof.Machine

/-! ### Time (R163, R333, R393) -/

/-- A stretched cycle spans two ticks and counts as one, unless the VT counts every tick. -/
def Tile.stretched (t : Tile) (dt : Nat) (counts : Bool) : Tile :=
  let behind (n : Nat) : Nat := if counts then t.lag else t.lag + n
  match t.stretch with
  | none => t
  | some 0 => t
  | some (n + 1) =>
    let left := 2 * (n + 1) - t.half.toNat
    if left ≤ dt then { t with stretch := some 0, half := false, lag := behind (n + 1 - t.half.toNat) }
    else
      let p := t.half.toNat + dt
      { t with stretch := some (n + 1 - p / 2), half := decide (p % 2 = 1), lag := behind ((p + 1) / 2 - t.half.toNat) }

/-- Ticks pass on a tile without a clock or in hold: its ring oscillator runs at 0.5 to 0.8 GHz (R345), and how many of its
cycles have ended since then is open within that. -/
def Tile.oscillates (t : Tile) (dt choice : Nat) : Tile :=
  let ticks := t.oscTicks + dt
  let lo := max t.oscCycles (ticks * 10 / 21)
  let hi := max lo (min (ticks * 16 / 21) (t.oscCycles + dt))
  let c := lo + choice % (hi - lo + 1)
  { t with oscTicks := ticks, oscCycles := c, lag := t.lag + (dt - (c - t.oscCycles)) }

/-- Ticks pass on one tile (R333, R345, R393): `lost` when it runs on its oscillator before its hold begins, `halted` when
each of its harts is in debug halt. -/
def Tile.elapse (t : Tile) (dt choice : Nat) (lost halted : Bool) : Tile :=
  match t.cond with
  | .hold => t.oscillates dt choice
  | .pause => t.stretched dt true
  | .rebuilding _ => t.stretched dt true
  | _ => if lost then t.oscillates dt choice else t.stretched dt halted

/-- The physical tile of a VT has lost its clock (R345). -/
def State.unclocked (s : State) (v : Nat) : Bool := decide (v < 3072) && (s.pt (vtDie v) (s.ptOf v)).clockLost

/-- The bound of R295 is extended for a hart: it waits for the answer of an AMO homed in CXL memory or on another panel, or
a CKPT has begun to stop its tile (R301). -/
def State.boundExtended (s : State) (h : Nat) (x : Hart) : Bool :=
  (x.flights.any fun a => a.committed && a.parts.any fun p => !p.status.performed && (match p.place.home with
    | .cxl _ => true
    | .panel _ => true
    | _ => false))
    || (!isSup h && (s.tile (hartVt h)).ckpting.any fun c => !c.committed)

/-- Cycles that pass while the bound is extended do not count against it (R295): its start moves on with them. -/
def State.extendBounds (s t : State) : State :=
  { t with harts := t.harts.map fun (h, x) =>
      if x.csr.kip.getLsbD 1 && s.boundExtended h x then
        (h, { x with irq := { x.irq with preemptAt := x.irq.preemptAt + (t.cycle (hartVt h) - s.cycle (hartVt h)) } })
      else (h, x) }

/-- Ticks of the timebase pass, and with them the slot boundaries of every tile (R190) and the bounds of R295. -/
def State.advance (s : State) (dt : Nat) : State :=
  let halted (v : Nat) : Bool := (List.range 4).all fun i => (s.hart (v * 4 + i)).halted.isSome
  let t : State := { s with
    tick := s.tick + dt, free := s.free + s.tiles.length
    tiles := s.tiles.zipIdx.map fun ((v, t), i) => (v, t.elapse dt (Config.freeNat (s.free + i)) (s.unclocked v) (halted v)) }
  s.extendBounds (s.tiles.foldl (fun t e => t.keepSlot e.1) t)

/-! ### When a hart may issue -/

/-- The hart holds no queued or withdrawn SFU entry (R183). -/
def State.sfuClear (s : State) (h : Nat) : Bool :=
  (s.hart h).withdrawnSfu.isEmpty && !((s.tile (hartVt h)).sfu.any fun e => e.hart == h)

/-- Every matrix command of the hart has retired and passed its verdict, and its drains have sent their wakes (R213). -/
def State.arrayClear (s : State) (h : Nat) : Bool :=
  let t := s.tile (hartVt h)
  !(t.queue.any fun c => c.hart == h) && !(t.running.any fun c => c.cmd.hart == h)
    && !(t.verdicts.any fun v => v.hart == h) && !(t.drains.any fun d => d.hart == h)
    && !((s.hart h).sendq.any fun e => e.wake && e.state == .queued)

/-- What an answer is for exists in the replay: the message, addend, flush or barrier record that it answers (R322). -/
def State.asked (s : State) (v : Nat) (body : PacketBody) : Bool :=
  let entry (h id : Nat) : Bool := (s.hart h).sendq.any fun e => e.id == id
  match body with
  | .bounce h id => entry h id
  | .acceptance h id => entry h id
  | .spawnAnswer h id _ => entry h id
  | .accBounce a => a.hart.any fun h => (s.hart h).accs.contains a.id
  | .accOutcome a _ =>
    if a.flush then (s.tile v).flushes.any fun f => f.launch == a.key.launch
    else a.hart.any fun h => (s.hart h).accs.contains a.id
  | .barrier w _ h => (s.hart h).barriers.any fun r => r.inUse && r.word == w
  | _ => true

/-- A logged event takes effect at its recorded INSTRET, rather than when an instruction asks for it (R322): an answer once
what it answers exists, which the instruction that waits for it may have still to make. -/
def State.timed (s : State) (v : Nat) : LogBody → Bool
  | .placed _ _ _ => true
  | .sliceWrite _ _ _ => true
  | .drainRow _ _ => true
  | .dispatch _ _ => true
  | .barrierOp _ _ => true
  | .taken _ _ _ _ _ _ => true
  | .landing _ _ _ _ _ => true
  | .mreqLine _ _ _ _ _ => true
  | .completion _ _ _ _ => true
  | .answer b => s.asked v b
  | .data _ _ _ _ => false
  | .result _ _ => false

/-- A replaying hart has reached the INSTRET recorded for the next event that takes effect at one (R322); while something
that an instruction asks for stands before that event, only past the count recorded there. -/
def State.replayHolds (s : State) (h : Nat) : Bool :=
  let v := hartVt h
  let now := (s.hart h).csr.instret
  match (s.tile v).replayLog with
  | [] => false
  | first :: rest =>
    match (first :: rest).find? fun e => s.timed v e.body with
    | some e =>
      decide (e.instret.getD (hartSlot h) 0 ≤ now)
        && (s.timed v first.body || decide (first.instret.getD (hartSlot h) 0 < e.instret.getD (hartSlot h) 0))
    | none => false

/-- A checkpoint has stopped the tile's harts (R301, R317): once R183 and R213 hold for every hart none issues until the commit,
but to end the signature block it is in, since no checkpoint is taken while an instruction is unchecked (R313). -/
def State.ckptStops (s : State) (h : Nat) : Bool :=
  let v := hartVt h
  (s.tile v).ckpting.any (!·.committed) && !((s.hart h).checker.block.any fun b => b.folded != 0)
    && ((List.range 4).map (v * 4 + ·)).all fun o =>
      ((s.hart o).halted.isSome || (s.hart o).parked.isSome || s.sfuClear o) && s.arrayClear o

/-- The hart executes nothing and completes nothing: parked, halted, its VT stopped, without a clock, behind the traffic
that a rotation forwards, at an event of its replay or for a checkpoint, or a hart without a task (R234, R243, R294, R301, R307,
R308, R317, R322, R345, R346, R351). -/
def State.standsStill (s : State) (h : Nat) : Bool :=
  let x := s.hart h
  x.parked.isSome || x.halted.isSome ||
    (if isSup h then x.ended
      else x.task.isNone || (s.tile (hartVt h)).failed || s.forwarding (hartVt h)
        || s.replayHolds h || s.ckptStops h || (match (s.tile (hartVt h)).cond with
        | .running => false
        | .drain => false
        | .replay => false
        | _ => true) || s.unclocked (hartVt h))

/-- The hart issues nothing until an event releases it: it stands still, or is in shed hold (R338). -/
def State.stopped (s : State) (h : Nat) : Bool := (s.hart h).shedHold || s.standsStill h

/-- Duty cycles (R334): cycle j of sixteen under duty d. -/
def dutyAllows (d j : Nat) : Bool := decide ((j + 1) * d / 16 > j * d / 16)

/-- The cycle is one in which the hart may issue (R25, R333-R335). -/
def State.mayIssue (s : State) (h : Nat) : Bool :=
  let x := s.hart h
  let c := s.cycle (hartVt h)
  if isSup h then decide (x.nextIssue ≤ c)
  else
    let t := s.tile (hartVt h)
    let d := if x.mode = .user then x.csr.fetchduty.toNat else max x.csr.fetchduty.toNat 1
    decide (x.nextIssue ≤ c) && t.stretch != some 0 && !(x.barred && x.mode == .user) && dutyAllows d (c % 16)
      && (match t.halve with
        | some e => decide (e ≤ c) || c % 2 == 0
        | none => true)

/-! ### SFU re-entry (R183) -/

/-- The hart's withdrawn entries re-enter at the tail of the queue, in order, while places are free. -/
def State.reenterSfu (s : State) (h : Nat) : Nat → State
  | 0 => s
  | n + 1 =>
    let x := s.hart h
    match x.withdrawnSfu with
    | [] => s
    | e :: es =>
      if (s.tile (hartVt h)).sfu.length < 8 then
        ((s.setHart h { x with withdrawnSfu := es }).onTile (hartVt h) fun t => { t with sfu := t.sfu ++ [e] }).reenterSfu
          h n
      else s

/-! ### Fetch (R22, R303) -/

/-- A line enters the tile's instruction cache of 512 lines (R303). -/
def State.cacheLine (s : State) (v line : Nat) (bytes : List Byte) : State :=
  let c := (s.tile v).icache
  if c.length < 512 then s.onTile v fun t => { t with icache := t.icache.put line bytes }
  else
    let (i, s) := s.freeBelow 512
    s.onTile v fun t => { t with icache := Map.put (dropOne t.icache i) line bytes }

/-- The instruction word at an address, or the trap its fetch raises with the TVAL, or none while a read that it needs
waits for its channel's batch (R97); the line it reads counts (R100). `first` is the address of the instruction, which a
page fault of its second word reports (R49). -/
def State.fetchWord (s : State) (h : Nat) (pc first : Word) : State × Except (Option (Cause × Word)) Word32 :=
  match s.locate (s.ctx h) pc .fetch true with
  | (s, .error none) => (s, .error none)
  | (s, .error (some .memError)) => (s, .error (some (.memError, pc)))
  | (s, .error (some c)) => (s, .error (some (c, first)))
  | (s, .ok l) =>
    let word (bs : List Byte) (i : Nat) : Word32 := bytesWord (bs.drop i)
    let fill (s : State) : State := (s.countIssue (hartDie h) l.place).serveEngine (hartVt h) l.place
    if isSup h then
      if !s.hbmAdmits (.tile (hartVt h)) l.place then (s, .error none)
      else if s.unreadable l.place then (fill s, .error (some (.memError, pc)))
      else
        let found := (fill s).placeBytes l.place 4
        (found.1, .ok (word found.2 0))
    else
      match (s.tile (hartVt h)).icache.find l.place.line with
      | some bs => (s, .ok (word bs (l.place.key % 128)))
      | none =>
        if !s.hbmAdmits (.tile (hartVt h)) l.place then (s, .error none)
        else if s.unreadable l.place then (fill s, .error (some (.memError, pc)))
        else
          let bs := memBytes s.mem (l.place.line * 128) 128
          ((fill s).cacheLine (hartVt h) l.place.line bs, .ok (word bs (l.place.key % 128)))

/-- The message whose slot the running task holds. -/
def Hart.runningMsg (x : Hart) : Option Msg :=
  match x.task with
  | some t => ((entryAt x.chans t.chan []).find? (·.running)).map (·.msg)
  | none => none

/-- Word i of an inline task's slot (R235). -/
def Hart.slotWord (x : Hart) (i : Nat) : Word32 :=
  match x.runningMsg with
  | some m => BitVec.ofNat 32 ((m.payload.getD (i / 2) 0).toNat / 2 ^ (32 * (i % 2)))
  | none => 0

/-- The two words at the hart's PC: from the slot of an inline task, or from memory (R235). While a U-level handler
runs, an inline task's fetches are ordinary ones (notes/assumptions/10.md). The second word is read for EXT alone. Or the
trap, or none while a read waits. -/
def State.fetch (s : State) (h : Nat) : State × Except (Option (Cause × Word)) (Word32 × Word32) :=
  let x := s.hart h
  let inl := x.task.bind (·.inlineWords)
  match slotIndex x.pc with
  | some i =>
    match inl with
    | none => (s, .error (some (.inlineFault, x.pc)))
    | some n =>
      if n ≤ i ∨ x.mode ≠ .user then (s, .error (some (.inlineFault, x.pc)))
      else
        let w := x.slotWord i
        if fld w 22 7 = 0x7F then
          if n ≤ i + 1 then (s, .error (some (.inlineFault, x.pc + 4))) else (s, .ok (w, x.slotWord (i + 1)))
        else (s, .ok (w, 0))
  | none =>
    if inl.isSome ∧ x.mode = .user ∧ x.csr.uh = false then (s, .error (some (.inlineFault, x.pc)))
    else
      match s.fetchWord h x.pc x.pc with
      | (s, .error e) => (s, .error e)
      | (s, .ok w) =>
        if fld w 22 7 = 0x7F then
          match s.fetchWord h (x.pc + 4) x.pc with
          | (s, .error e) => (s, .error e)
          | (s, .ok w2) => (s, .ok (w, w2))
        else (s, .ok (w, 0))

/-! ### Traps and interrupts due at the boundary -/

/-- The pending trap that is next in program order (R290): that of the oldest outstanding access, or else the oldest that
belongs to no access. -/
def Hart.nextTrap (x : Hart) : Option PendingTrap :=
  match x.flights with
  | a :: _ => (x.pendTraps.find? fun p => p.access == some a.id).orElse fun _ => x.pendTraps.find? (·.access.isNone)
  | [] => x.pendTraps.find? (·.access.isNone)

/-- A pending trap can be taken now. One of the oldest outstanding access: every older instruction has written its results
(R290), an RSTAT before it among them. Another: at the boundary, everything older having its result, since only a
preemption, a park, a halt or a hold abandons (R291); where it parks the hart, what is abandonable is abandoned (R294, R205), and
the record of the park finds room first (R319). -/
def State.trapReady (s : State) (h : Nat) (p : PendingTrap) : Bool :=
  let x := s.hart h
  s.parkRoom h p.cause && match p.access, x.flights with
  | some _, a :: _ =>
    (s.rstats h).isEmpty && !(x.board.any fun b => decide (b.seq < a.seq)) && !(s.abandon h).sfuBusy h
  | _, _ =>
    !s.stopped h && (s.boundary h ||
      (x.trapLevel p.cause == .park && s.mayAbandon h && x.board.isEmpty && !(s.abandon h).sfuBusy h))

/-- The instruction words at the hart's PC as a look finds them, which waits for no stack (R293, R300). -/
def State.peek (s : State) (h : Nat) : Except (Option (Cause × Word)) (Word32 × Word32) :=
  let unqueued : Map Die := s.dies.map fun (d, x) => (d, { x with channels := [] })
  ({ s with dies := unqueued }.fetch h).2

/-- The instruction word at the hart's PC, 0 where it cannot be fetched: what a record shows of a trap that no instruction
raised (R293; notes/assumptions/63.md). -/
def State.wordAt (s : State) (h : Nat) : Word32 :=
  match s.peek h with
  | .ok (w, _) => w
  | _ => 0

/-- The next pending trap of a hart is taken (R241, R288, R290), with the registers as the instruction it belongs to found
them; a trap whose access is no more goes. -/
def State.pendingTrap (s : State) (h : Nat) : State :=
  let x := s.hart h
  match x.nextTrap with
  | none => s.setHart h { x with
      pendTraps := x.pendTraps.filter fun p => x.flights.any fun a => p.access == some a.id }
  | some p =>
    if s.trapReady h p then
      let t := (s.setHart h { x with pendTraps := x.pendTraps.erase p }).abandon h
      t.takeTrap h p.cause p.tval (match p.access, x.flights with
        | some _, a :: _ => a.word
        | _, _ => t.wordAt h)
    else s

/-- The next pending trap can be taken now. -/
def State.trapDue (s : State) (h : Nat) : Bool :=
  match (s.hart h).nextTrap with
  | none => false
  | some p => s.trapReady h p

/-- The instruction at the hart's PC is a SAVEPT (R300). -/
def State.atSavept (s : State) (h : Nat) : Bool :=
  match s.peek h with
  | .ok (w, _) => w &&& 0x1FFFFFFF == 0x0D800009
  | _ => false

/-- The hart's CKPT has begun to stop its tile and is not abandoned any more (R301). -/
def State.inCkpt (s : State) (h : Nat) : Bool :=
  match (s.tile (hartVt h)).ckpting with
  | some c => c.by_ == some h
  | none => false

/-- The context is denied issue (R334, R335): a throttle notice waits until it runs (R292). -/
def Hart.denied (x : Hart) : Bool := x.mode == .user && (x.barred || x.csr.fetchduty == 0)

/-- The interrupt the hart's next boundary takes, once what is outstanding has been abandoned: from its request on the
hart issues nothing more (R292, R295). LWAIT ends before an interrupt is taken (R270), and so does a WFI that waits
(R302). -/
def State.interruptComing (s : State) (h : Nat) : Option Nat :=
  let x := s.hart h
  if s.stopped h || s.inCkpt h || x.lwaitSince.isSome || x.wfi == some x.seq then none
  else
    let t := s.abandon h
    (t.hart h).dueInterrupt fun n => (n == 1 && t.atSavept h) || (n == 2 && (t.hart h).denied)

/-- A preemption is pending and not passed over: 0x80 or 0x81 abandons what is outstanding (R291, R295). -/
def State.preempting (s : State) (h : Nat) : Bool :=
  let x := s.hart h
  [0, 1].any fun n => x.csr.kip.getLsbD n && bit x.csr.kie n && !(n == 1 && (s.abandon h).atSavept h)

/-- The interrupt due now: the hart has reached its boundary (R292, R295), what no preemption abandons being complete
(R167, R291); the boundary before a load that would trap counts, and there the load is abandoned. -/
def State.interruptDue (s : State) (h : Nat) : Option Nat :=
  if !(s.hart h).board.isEmpty || !s.mayAbandon h || !(s.settled h || s.preempting h || s.trapDue h)
    || (s.abandon h).sfuBusy h then none
  else s.interruptComing h

/-- The interrupt due at the hart's boundary is taken (R292). -/
def State.interrupt (s : State) (h : Nat) : State :=
  match s.interruptDue h with
  | none => s
  | some n =>
    let t := s.abandon h
    t.takeInterrupt h n (t.hart h).pc false

/-- The instruction of a step has yet to complete: a load of it is on its way (R352); one that waits on an empty line does
not complete. -/
def Hart.midStep (x : Hart) : Bool := x.stepping && x.flights.any fun a => !a.blocked

/-- A requested debug halt is entered at the boundary (R351), a step's after its instruction (R352). -/
def State.debugHalt (s : State) (h : Nat) : State :=
  let x := s.hart h
  if x.midStep then s
  else if x.halted.isSome || s.inCkpt h || !x.board.isEmpty || !s.mayAbandon h || (s.abandon h).sfuBusy h
    || x.lwaitSince.isSome && !x.lwaitSpurious then s
  else (s.abandon h).enterHalt h (s.panelHalt.getD s.tick)

/-! ### A hart's move -/

/-- What a hart does with its turn: nothing more than the state says, or one instruction. -/
inductive Turn where
  | still (s : State)
  | issue (s : State) (w w2 : Word32)
  deriving DecidableEq, Repr

/-- An enabled breakpoint matches the PC in U or K mode (R350). -/
def Hart.atBreakpoint (x : Hart) : Bool :=
  x.mode != .firmware && (List.range 4).any fun i =>
    let b := entryAt x.csr.bp i 0
    bit b 0 && (b &&& ~~~(3#64)) == x.pc

/-- After the one instruction of a step the hart halts again (R352); a move in which its instruction has not issued is no
step. -/
def State.afterIssue (s : State) (h : Nat) : State :=
  let x := s.hart h
  if x.stepping && x.halted.isNone && s.cur == h then
    if !x.midStep && s.mayAbandon h && x.board.isEmpty && !(s.abandon h).sfuBusy h then
      (s.abandon h).enterHalt h (s.panelHalt.getD s.tick)
    else s.requestInterrupt h 6 0
  else s

/-- A pending preemption that the hart cannot take yet: the bound of R295 runs from the cycle in which it can. -/
def State.preemptHeld (s : State) (h : Nat) : State :=
  let x := s.hart h
  if x.csr.kip.getLsbD 1 && (x.csr.ktvec == 0 || x.mode == .kernel && !x.csr.ie || x.task.isNone) then
    s.setHart h { x with irq := { x.irq with preemptAt := s.cycle (hartVt h) } }
  else s

/-- The trap of a hart's fetch or breakpoint, once the checker has looked the PC up (R321), and the halt of a step after it. -/
def State.fetchTrap (s : State) (h : Nat) (word : Word32) (c : Cause) (tval : Word) : State :=
  (({ s with cur := h, word := word }.openBlock h).raise h c tval).afterIssue h

/-- The hart fetches its instruction, whose breakpoint is checked after the causes of the fetch (R350); an LWAIT that
waits has passed it. -/
def State.issueTurn (s : State) (h : Nat) : Turn :=
  match s.fetch h with
  | (t, .error none) => .still t
  | (t, .error (some (c, tval))) => .still (t.fetchTrap h 0 c tval)
  | (t, .ok (w, w2)) =>
    let x := t.hart h
    if x.atBreakpoint && x.lwaitSince.isNone then
      .still (if bit x.csr.dbgctl 4 then (if t.boundary h then t.enterHalt h (t.panelHalt.getD t.tick) else t)
        else t.fetchTrap h w .watch x.pc)
    else .issue { t with cur := h, word := w } w w2

/-- An LWAIT that waits goes on in any cycle of a hart whose VT runs (R270), and ends for a debug halt in shed hold too
(R351). -/
def State.lwaitRuns (s : State) (h : Nat) : Bool :=
  let x := s.hart h
  x.lwaitSince.isSome && !s.standsStill h && (!x.shedHold || x.csr.kip.getLsbD 6)

/-- A hart's turn, unless the panel is kept in reset (R387): debug halt, the interrupt and the pending trap due at its boundary, then its instruction. -/
def State.turn (s : State) (h : Nat) : Turn :=
  let s := s.preemptHeld h
  let x := s.hart h
  if s.inReset.isSome then .still s
  else if x.csr.kip.getLsbD 6 && x.halted.isNone && x.lwaitSince.isNone && !s.inCkpt h then
    .still (if x.midStep && s.trapDue h then { s.pendingTrap h with cur := h }.afterIssue h else s.debugHalt h)
  else if s.lwaitRuns h then s.issueTurn h
  else if s.stopped h then .still s
  else if (s.interruptDue h).isSome then .still ({ s.interrupt h with cur := h }.afterIssue h)
  else if !x.pendTraps.isEmpty && !s.inCkpt h && (s.trapDue h || (s.interruptComing h).isNone) then
    .still ({ s.pendingTrap h with cur := if s.trapDue h then h else s.cur }.afterIssue h)
  else if (s.interruptComing h).isSome then .still s
  else if !s.mayIssue h then .still s
  else (if isSup h then s else s.reenterSfu h 4).issueTurn h

end Sys2Proof.Machine
end

