-- ==== Sys2Proof/Machine/Operands.lean ====
section
/-! DEFINITION. The shapes that instructions share: fixed-latency results of scalar operands, scoreboarded results, branch
and address forms (R24, R25, R28, R144-R154). -/

namespace Sys2Proof.Machine

/-- What a meaning answers. -/
abbrev Answer := Host.Outcome State Fault Refusal

/-! ### Results -/

/-- A scoreboarded result of the instruction that issues (R28); one for g0 is discarded (R30). -/
def Hart.post (x : Hart) (d : Reg) (v : VReg) : Hart :=
  if d.real then { x with board := x.board ++ [{ dst := d, val := v, seq := x.seq }] } else x

def State.postG (s : State) (d : BitVec 5) (v : Word) : State :=
  s.onHart s.cur fun x => x.post (.g d) (v.zeroExtend 512)

def State.startG (s : State) (d : BitVec 5) (v : Word) (latency : Nat) : State :=
  s.onHart s.cur fun x => x.start (.g d) v latency

/-- The hart that moves. -/
def State.self (s : State) : Hart := s.hart s.cur

/-- `op gD, gA, gB` of a fixed latency. -/
def State.fixed2 (s : State) (latency : Nat) (sc : BitVec 3) (d a b : BitVec 5) (f : Word → Word → Word) : Answer :=
  s.run { sc := sc, reads := [.g a, .g b], writes := [.g d], latency := latency } fun s =>
    .done (s.startG d (f (s.self.g a) (s.self.g b)) latency)

/-- `op gD, gA` of one cycle. -/
def State.fixed1 (s : State) (sc : BitVec 3) (d a : BitVec 5) (f : Word → Word) : Answer :=
  s.run { sc := sc, reads := [.g a], writes := [.g d], latency := 1 } fun s =>
    .done (s.startG d (f (s.self.g a)) 1)

/-- `op gD, imm` of one cycle, from the PC; `bytes` is the instruction's length. -/
def State.fixed0 (s : State) (sc : BitVec 3) (d : BitVec 5) (bytes : Nat) (f : Word → Word) : Answer :=
  s.run { sc := sc, reads := [], writes := [.g d], latency := 1, bytes := bytes } fun s =>
    .done (s.startG d (f s.self.pc) 1)

/-- `op gD, gA, gB` whose result is scoreboarded. -/
def State.board2 (s : State) (sc : BitVec 3) (d a b : BitVec 5) (f : Word → Word → Word) : Answer :=
  s.run { sc := sc, reads := [.g a, .g b], writes := [.g d] } fun s =>
    .done (s.postG d (f (s.self.g a) (s.self.g b)))

/-- A conditional branch (R150). -/
def State.branch (s : State) (sc : BitVec 3) (a b : BitVec 5) (o : BitVec 12) (f : Word → Word → Bool) : Answer :=
  s.run { sc := sc, reads := [.g a, .g b], writes := [] } fun s =>
    if f (s.self.g a) (s.self.g b) then .jump s (s.self.pc + 4 * o.signExtend 64) else .done s

/-! ### Arithmetic of R144-R149 -/

/-- A truth value as the word 1 or 0. -/
def truth (b : Bool) : Word := if b then 1 else 0

def slt (a b : Word) : Bool := decide (a.toInt < b.toInt)
def ult (a b : Word) : Bool := decide (a.toNat < b.toNat)

/-- A shift amount: bits [5:0] or [4:0] of a word. -/
def low6 (b : Word) : Nat := b.toNat % 64
def low5 (b : Word) : Nat := b.toNat % 32

/-- An operation on the low 32 bits, sign-extended (R145). -/
def onLow (f : Word32 → Word32) (a : Word) : Word := (f (a.truncate 32)).signExtend 64

/-- Leading zeros (R144). -/
def clz (a : Word) : Word := if a = 0 then 64 else BitVec.ofNat 64 (63 - Nat.log2 a.toNat)

/-- Trailing zeros (R144). -/
def ctz (a : Word) : Word := if a = 0 then 64 else BitVec.ofNat 64 (Nat.log2 (a &&& -a).toNat)

/-- One bits (R144). -/
def popc (a : Word) : Word := BitVec.ofNat 64 ((List.range 64).countP fun i => a.getLsbD i)

/-- Bits in the opposite order (R144). -/
def brev (a : Word) : Word :=
  BitVec.ofNat 64 ((List.range 64).foldl (fun r i => r + (a.getLsbD (63 - i)).toNat * 2 ^ i) 0)

/-- Quotient and remainder of R146, of an operand width `w`, signed or not. -/
def divRem (signed : Bool) (w : Nat) (n d : Int) : Int × Int :=
  if d = 0 then
    (if signed then (if 0 ≤ n then 2 ^ (w - 1) - 1 else -(2 ^ (w - 1))) else 2 ^ w - 1, 0)
  else if signed ∧ n = -(2 ^ (w - 1)) ∧ d = -1 then (2 ^ (w - 1) - 1, 0)
  else (n.tdiv d, n.tmod d)

/-- An operand of a divide-class member (R146). -/
def divOperand (signed wide : Bool) (a : Word) : Int :=
  if wide then (if signed then a.toInt else a.toNat)
  else if signed then (a.truncate 32 : Word32).toInt else (a.truncate 32 : Word32).toNat

/-- The result of a divide-class member (R146): the quotient or remainder, a 32-bit one sign-extended. -/
def divide (signed wide quotient : Bool) (a b : Word) : Word :=
  let r := divRem signed (if wide then 64 else 32) (divOperand signed wide a) (divOperand signed wide b)
  let v := if quotient then r.1 else r.2
  if wide then BitVec.ofInt 64 v else (BitVec.ofInt 32 v).signExtend 64

end Sys2Proof.Machine
end

