-- ==== Sys2Proof/Machine/Access.lean ====
section
/-! DEFINITION. Accesses of a hart from issue to the point where a home performs them: checks in order, posted writes,
outstanding loads, the order R254 and R258 keep between them, and the egress gate (R92, R93, R105, R112, R135-R138, R152,
R155, R186, R254-R258, R291, R318, R319, R350). -/

namespace Sys2Proof.Machine

/-! ### Checks before an access (R152, R186, R350) -/

/-- Every element of an access located in order: their places; or the first fault with its address, or none while a walk
waits. The leaves of the elements before keep their marks (R110; notes/assumptions/39.md). -/
def State.locateAll (s : State) (c : Ctx) (kind : AccessKind) :
    List Word → State × Except (Option Cause × Word) (List Place)
  | [] => (s, .ok [])
  | va :: vas =>
    match s.locate c va kind true with
    | (s, .error e) => (s, .error (e, va))
    | (s, .ok l) =>
      match s.locateAll c kind vas with
      | (s, .error e) => (s, .error e)
      | (s, .ok ps) => (s, .ok (l.place :: ps))

/-- The lowest address at which an element touches a dword watched for its kind (R350), watchpoint 0 before watchpoint 1
(notes/assumptions/97.md). -/
def Hart.watchHit (x : Hart) (reads writes : Bool) (va : Word) (n : Nat) : Option Word :=
  [0, 1].findSome? fun i =>
    let w := entryAt x.csr.wp i 0
    let kind := bits w 1 2
    let lo := w.toNat / 8 * 8
    if bit w 0 && ((reads && kind % 2 == 1) || (writes && decide (2 ≤ kind))) &&
        decide (lo < va.toNat + n ∧ va.toNat < lo + 8) then
      some (BitVec.ofNat 64 (max lo va.toNat))
    else none

/-- The first byte that an element touches in a watched dword; a byte that a mask leaves alone is not touched. -/
def Hart.watchBytes (x : Hart) (reads writes : Bool) (va : Word) (touched : List Bool) : Option Word :=
  if !bit (entryAt x.csr.wp 0 0) 0 && !bit (entryAt x.csr.wp 1 0) 0 then none
  else touched.zipIdx.findSome? fun (b, i) =>
    if b then x.watchHit reads writes (va + BitVec.ofNat 64 i) 1 else none

/-- The bytes of an element of `n` bytes that a load takes: those of the lanes of a whole line that its mask selects. -/
def LoadDst.touched (d : LoadDst) (n : Nat) : List Bool :=
  match d with
  | .v _ w mask => if n = 64 then (List.range n).map fun i => mask.getLsbD (i / w) else List.replicate n true
  | _ => List.replicate n true

/-- What a watchpoint match does (R350): debug halt, or WATCH with the address. -/
def State.watchAct (s : State) (va : Word) : Act := if bit s.self.csr.dbgctl 4 then .halt else .trap .watch va

/-! ### Scopes (R256) -/

/-- The homes of a scope, by its code 0-4: hart, tile, die, panel, domain. -/
def covers (h scope : Nat) (p : Place) : Bool :=
  match scope with
  | 0 => false
  | 1 => match p.home with
    | .slice v => v == hartVt h
    | _ => false
  | 2 => match p.home with
    | .slice v => vtDie v == hartDie h
    | .hbm d => d == hartDie h
    | _ => false
  | 3 => match p.home with
    | .panel _ => false
    | _ => true
  | _ => true

/-! ### Locations (R252) -/

/-- Two ranges of bytes share one that both touch. -/
def overlap (a : Nat) (xs : List Bool) (b : Nat) (ys : List Bool) : Bool :=
  decide (a < b + ys.length ∧ b < a + xs.length) &&
    xs.zipIdx.any fun (x, i) => x && decide (b ≤ a + i) && ys.getD (a + i - b) false

def Place.isSlice (p : Place) : Bool := match p.home with | .slice _ => true | _ => false

/-- The access changes the full/empty bit of its line. -/
def PostOp.onBit : PostOp → Bool
  | .store _ => false
  | .setFull => true
  | .setEmpty => true
  | .fill _ => true

/-- The bytes that a posted write changes. -/
def PostOp.bytes : PostOp → List Bool
  | .store bs => bs.map (·.isSome)
  | .setFull => []
  | .setEmpty => []
  | .fill bs => bs.map fun _ => true

def PostOp.size (o : PostOp) : Nat := o.bytes.length

/-- The access reads the full/empty bit of its line. -/
def HomeOp.onBit : HomeOp → Bool
  | .load => true
  | .take => true
  | .festat => true
  | .amo _ _ _ _ => false

/-- The bytes that a part of an access reads: those its mask selects, for FESTAT none. -/
def Access.bytes (a : Access) (p : Part) : List Bool :=
  match a.op with
  | .festat => []
  | _ => a.dst.touched p.len

/-- The lowest address of a part that its access reads. -/
def Access.lowest (a : Access) (p : Part) : Nat := p.va.toNat + ((a.bytes p).findIdx? fun b => b).getD 0

/-- Two posted writes of a hart meet in a location. -/
def Posted.meets (a b : Posted) : Bool :=
  overlap a.place.key a.op.bytes b.place.key b.op.bytes || (a.op.onBit && b.op.onBit && a.place.line == b.place.line)

/-- A posted write and a part of an access meet in a location. -/
def Posted.meetsPart (w : Posted) (a : Access) (p : Part) : Bool :=
  overlap w.place.key w.op.bytes p.place.key (a.bytes p) || (w.op.onBit && a.op.onBit && w.place.line == p.place.line)

/-- Parts of two accesses meet in a location. -/
def Access.meets (a : Access) (p : Part) (b : Access) (q : Part) : Bool :=
  overlap p.place.key (a.bytes p) q.place.key (b.bytes q)
    || (a.op.onBit && b.op.onBit && p.place.isSlice && p.place.line == q.place.line)

/-! ### Issue -/

/-- Gated items of an access find room in the hold (R319). -/
def State.roomFor (s : State) (h : Nat) (ps : List Place) : Bool :=
  let n := (ps.filter fun p => !ownPlace h p).length
  n == 0 || (s.tile (hartVt h)).hasRoom (64 * n)

/-- Issue of one posted write (R92): it waits in the hold if it leaves the tile. -/
def State.postWrite (s : State) (h : Nat) (va : Word) (p : Place) (op : PostOp) : State :=
  let (id, s) := s.fresh
  let own := ownPlace h p
  let w : Posted :=
    { id := id, va := va, place := p, op := op, released := own, seq := none, made := (s.hart h).seq }
  let s := s.onHart h fun x => { x with posted := x.posted ++ [w] }
  if own then if isSup h then s.countIssue (hartDie h) p else s
  else s.hold (hartVt h) (.post h id) 64

/-- Issue of posted writes at places that have been checked. -/
def State.postWrites (s : State) (h : Nat) : List (Word × Place × PostOp) → State
  | [] => s
  | (va, p, op) :: rest => (s.postWrite h va p op).postWrites h rest

/-- A store of the current hart (R152, R186): its elements located, watched and posted. -/
def State.store (s : State) (elems : List (Word × List (Option Byte))) : Act :=
  let h := s.cur
  match s.locateAll (s.ctx h) .store (elems.map (·.1)) with
  | (t, .error (c, va)) => t.unplaced c va
  | (t, .ok ps) =>
    match elems.findSome? fun e => s.self.watchBytes false true e.1 (e.2.map (·.isSome)) with
    | some va => s.watchAct va
    | none =>
      if !s.roomFor h ps then .wait s
      else .done (t.postWrites h ((elems.zip ps).map fun (e, p) => (e.1, p, .store e.2)))

/-- An outstanding access of the current hart, its parts at places that have been checked (R92, R291). A read request
needs no gate; an AMO to another home passes the hold. -/
def State.start (s : State) (op : HomeOp) (dst : LoadDst) (acquire : Option Nat)
    (parts : List (Word × Nat × Nat × Place)) : State :=
  let h := s.cur
  let x := s.self
  let (id, s) := s.fresh
  let gated := match op with | .amo _ _ _ _ => true | _ => false
  let a : Access :=
    { id := id, op := op, dst := dst, seq := x.seq, since := none, acquire := acquire, word := s.word, snap := x.snapshot
      parts := parts.map fun (va, n, off, p) =>
        { va := va, place := p, len := n, dst := off, status := .sent, released := !gated || ownPlace h p, seq := none } }
  let s := s.setHart h { x with flights := x.flights ++ [a] }
  (parts.zipIdx).foldl (fun s (e, i) =>
    let p := e.2.2.2
    if gated && !ownPlace h p then s.hold (hartVt h) (.amo h id i) 64 else s.countIssue (hartDie h) p) s

/-- A load of the current hart (R152, R186): elements of address, length and offset of their data. -/
def State.load (s : State) (op : HomeOp) (dst : LoadDst) (acquire : Option Nat)
    (elems : List (Word × Nat × Nat)) : Act :=
  let h := s.cur
  match s.locateAll (s.ctx h) .load (elems.map (·.1)) with
  | (t, .error (c, va)) => t.unplaced c va
  | (t, .ok ps) =>
    match elems.findSome? fun e => s.self.watchBytes true false e.1 (dst.touched e.2.1) with
    | some va => s.watchAct va
    | none => .done (t.start op dst acquire ((elems.zip ps).map fun (e, p) => (e.1, e.2.1, e.2.2, p)))

/-- An atomic of the current hart on `n` bytes (R215): checked as a read and a write. -/
def State.atomic (s : State) (op : HomeOp) (d : BitVec 5) (va : Word) (n : Nat) : Act :=
  let h := s.cur
  if va.toNat % n ≠ 0 then .trap .misalign va
  else
    match s.locate (s.ctx h) va .amo true with
    | (t, .error c) => t.unplaced c va
    | (t, .ok l) =>
      match s.self.watchHit true true va n with
      | some va => s.watchAct va
      | none =>
        if s.roomFor h [l.place] then .done (t.start op (.g d n true) none [(va, n, 0, l.place)]) else .wait s

/-- The releases of a scope have nothing earlier to wait for (R258, R263): writes to its homes are performed, accumulates
have outcomes. -/
def State.released (s : State) (h scope : Nat) : Bool :=
  !((s.hart h).posted.any fun w => covers h scope w.place) && (s.hart h).accs.isEmpty

/-- The name of an ACC's addend, of a card or of an MREQ, by its hart and its place among the hart's instructions: a replay
names it alike (R322); fresh names lie below these. -/
def accId (h seq : Nat) : Nat := 2 ^ 100 + h * 2 ^ 64 + seq

/-- What precedes a hart's instruction `seq` has nothing to wait for at panel scope (R204, R248). -/
def State.releasedBefore (s : State) (h seq : Nat) : Bool :=
  !((s.hart h).posted.any fun w => decide (w.made < seq) && covers h 3 w.place)
    && !((s.hart h).accs.any fun a => decide (a < accId h seq))

/-- The place of a full/empty instruction's operand (R138): not a paged address, then as R105. -/
def State.femem (s : State) (va : Word) (kind : AccessKind) (aligned : Bool) : Except (Option Cause × Word) Place :=
  if va.toNat < 2 ^ 48 then .error (some (pfCause kind), va)
  else
    match s.locate (s.ctx s.cur) va kind true with
    | (_, .error c) => .error (c, va)
    | (_, .ok l) => if aligned && va.toNat % 8 != 0 then .error (some .misalign, va) else .ok l.place

/-- A full/empty instruction that writes (R138): `data` for STFILL. -/
def State.fememWrite (s : State) (va : Word) (op : PostOp) (release : Bool) : Act :=
  let h := s.cur
  match s.femem va .store (op.size != 0) with
  | .error (c, tval) => s.unplaced c tval
  | .ok p =>
    match (if op.size = 0 then none else s.self.watchHit false true va op.size) with
    | some va => s.watchAct va
    | none =>
      if (release && !s.released h 3) || !s.roomFor h [p] then .wait s else .done (s.postWrite h va p op)

/-- A full/empty instruction that reads (R138). -/
def State.fememRead (s : State) (va : Word) (op : HomeOp) (d : BitVec 5) (acquire : Option Nat) : Act :=
  match s.femem va .load (op == .take) with
  | .error (c, tval) => s.unplaced c tval
  | .ok p =>
    match (if op == .take then s.self.watchHit true false va 8 else none) with
    | some va => s.watchAct va
    | none => .done (s.start op (.g d 8 false) acquire [(va, 8, 0, p)])

/-! ### When a home performs an access -/

/-- The home takes requests (R308, R316, R322, R346): not while its VT is paused, rebuilt or held or its log is full, and
during replay only from its own harts. -/
def State.serves (s : State) (h : Nat) (p : Place) : Bool :=
  match p.home with
  | .slice v =>
    decide (3072 ≤ v) || (match (s.tile v).gate with
      | .takes => true
      | _ => ownPlace h p && !(isSup h && (s.tile v).logFull))
  | _ => true

/-- The access has met an empty line (R135): a part of it waits there or is to be sent again. -/
def Access.meetsEmpty (a : Access) : Bool :=
  a.op.waits && a.parts.any fun p => match p.status with
    | .waiting => true
    | .retry _ => true
    | _ => false


/-- An older access keeps a younger part from being performed: a common location (R254), or an acquire whose scope
covers both (R137, R258). -/
def Access.holdsBack (a : Access) (h : Nat) (b : Access) (q : Part) : Bool :=
  (a.parts.any fun p => !p.status.performed && a.meets p b q) ||
  (match a.acquire with
    | some e => !a.performed && covers h e q.place && a.parts.all fun p => covers h e p.place
    | none => false) ||
  (a.blocked && covers h 3 q.place)

/-- The number an item carries is in turn at its home, or it carries none (R318). -/
def State.inTurn (s : State) (h : Nat) (p : Place) (via : Option Node) (seq : Option Nat) : SeqVerdict :=
  match seq with
  | none => .inTurn
  | some n => seqVerdict (s.seqHigh (via.getD (s.placeNode p)) (hartVt h) .assured) n

/-- The item's number is accepted (R318). -/
def State.acceptSeq (s : State) (h : Nat) (p : Place) (via : Option Node) (seq : Option Nat) : State :=
  match seq with
  | none => s
  | some n => s.setSeqHigh (via.getD (s.placeNode p)) (hartVt h) .assured n

/-- An item that had been returned has been sent again, and counts again (R100, R318). -/
def State.recount (s : State) (h : Nat) (p : Place) (returned : Bool) : State :=
  if returned then s.countIssue (hartDie h) p else s

/-- Younger reads that were performed before an older one met an empty line are performed again: what the older one
waits for orders them behind it (R137, notes/assumptions/11.md). -/
def State.redoYounger (s : State) (h seq : Nat) : State :=
  (s.hart h).flights.foldl (fun s a =>
    if seq < a.seq then
      let s := (s.withdraw h a.id).onHart h fun x => x.onAccess a.id fun a =>
        { a with parts := a.parts.map fun p => { p with status := .sent } }
      a.parts.foldl (fun s p => if p.status == .sent then s else s.countIssue (hartDie h) p.place) s
    else s) s

/-- A part that a replaying tile sends to another tile's slice is answered from the log (R322). -/
def State.replayPart (s : State) (h : Nat) (a : Access) (i : Nat) : State :=
  match (s.tile (hartVt h)).replayLog with
  | { body := .data h' seq i' bytes, .. } :: rest =>
    if h' = h ∧ seq = a.seq ∧ i' = i then
      (s.onTile (hartVt h) fun t => { t with replayLog := rest }).setPart h a.id i (.done bytes)
    else s
  | _ => s

/-- Part `i` of an outstanding access reaches its home, if nothing keeps it (R92, R97, R254, R318): it is returned where it
comes out of turn; else it enters its queue, if the home has one, and then it is performed. One that waits on a line which has become full has its answer once that finds room
(R135, R319); one that meets an error of the slice's SRAM waits for the rollback (R143). -/
def State.partRequest (s : State) (h : Nat) (a : Access) (i : Nat) : State :=
  match a.parts[i]? with
  | none => s
  | some p =>
    let x := s.hart h
    if p.status == .waiting then
      match p.place.home with
      | .slice v => if s.serves h p.place then s.wake v (p.place.off / 128) (s.tile v).lineWait.length else s
      | _ => s
    else if p.status != .sent || !p.released || !s.serves h p.place || x.posted.any (fun w => w.meetsPart a p)
      || x.flights.any (fun o => decide (o.seq < a.seq) && o.holdsBack h a p) then s
    else if s.inTurn h p.place p.via p.seq == .outOfTurn then
      (s.dequeueHbm a.id i p.place).onHart h fun x => x.onAccess a.id fun a => a.onPart i fun p => { p with returned := true }
    else if !s.hbmQueued a.id i p.place then s.enqueueHbm (hartVt h) a.id i p.place
    else if !s.hbmReady a.id i p.place then s
    else if !ownPlace h p.place && p.place.isSlice && (s.tile (hartVt h)).cond == .replay then s.replayPart h a i
    else if !s.answerRoom h p.place then s
    else if s.sramStops p.place p.len then s.sramStop p.place
    else
      let s := (s.dequeueHbm a.id i p.place).recount h p.place p.returned
      if s.inTurn h p.place p.via p.seq == .duplicate then
        s.answer h a.id i p.place (memBytes s.mem p.place.key p.len)
      else
        let t := (s.acceptSeq h p.place p.via p.seq).arrivePart h a.id i
        match (t.hart h).access a.id with
        | some b => if b.meetsEmpty then t.redoYounger h a.seq else t
        | none => t

/-- A posted write reaches its home, if no older one to a common location is still to come (R97, R254, R318): it is
returned where it comes out of turn; else it enters its queue, if the home has one, and then it is performed. -/
def State.postedRequest (s : State) (h : Nat) (w : Posted) : State :=
  let x := s.hart h
  let older := x.posted.takeWhile fun o => o.id != w.id
  let s := match w.place.home with
    | .slice v => if w.released && v != hartVt h then s.capture v (.item w.id) else s
    | _ => s
  if !w.released || !s.serves h w.place || older.any (·.meets w) then s
  else if s.inTurn h w.place w.via w.seq == .outOfTurn then
    (s.dequeueHbm w.id 0 w.place).onHart h fun x => { x with
      posted := x.posted.map fun o => if o.id == w.id then { o with returned := true } else o }
  else if !s.hbmQueued w.id 0 w.place then s.enqueueHbm (hartVt h) w.id 0 w.place
  else if !s.hbmReady w.id 0 w.place then s
  else if s.sramStops w.place w.op.size then s.sramStop w.place
  else
    let gone (s : State) : State := ((s.dequeueHbm w.id 0 w.place).recount h w.place w.returned).onHart h fun x =>
      { x with posted := x.posted.filter fun o => o.id != w.id }
    if s.inTurn h w.place w.via w.seq == .duplicate then gone s
    else (gone (s.acceptSeq h w.place w.via w.seq)).performPosted h w

/-- A line request of a hart reaches its home: part `i` of an outstanding access, or a posted write (R92). -/
def State.lineRequest (s : State) (h id i : Nat) : State :=
  match (s.hart h).access id with
  | some a => s.partRequest h a i
  | none =>
    match (s.hart h).posted.find? fun w => w.id == id with
    | some w => s.postedRequest h w
    | none => s

/-! ### Release from the egress hold (R318, R319) -/

/-- The data that an answer holds. -/
def PartStatus.answer? : PartStatus → Option (List Byte)
  | .held bs => some bs
  | _ => none

/-- The data answer that a part waits for. -/
def State.heldAnswer (s : State) (h id i : Nat) : Option (List Byte) :=
  ((s.hart h).access id).bind fun a => a.parts[i]?.bind fun p => p.status.answer?

/-- The data answer of a part is on its way to its hart, under a number (R318); none where nobody waits for it any more. -/
def State.sendData (s : State) (v h id i : Nat) : State :=
  match s.heldAnswer h id i with
  | none => s
  | some bytes =>
    s.number { id := 0, src := .tile v, dst := .tile (hartVt h), body := .data h id i bytes, stream := none, seq := none
               outOfTurn := false } .assured

/-- A data answer reaches its hart in its turn, and is logged (R315, R318); while the log is full it waits in the network
(R316). -/
def State.dataArrives (s : State) (p : Packet) : State :=
  match p.body, p.src, p.seq with
  | .data h id i bytes, .tile v, some n =>
    let gone (s : State) : State := { s with net := s.net.filter fun q => q.id != p.id }
    match seqVerdict (s.seqHigh (.tile (hartVt h)) v .assured) n with
    | .outOfTurn => s
    | .duplicate => gone s
    | .inTurn =>
      if (s.tile (hartVt h)).gate == .refuses && (s.tile (hartVt h)).logFull then s
      else
        let s := gone (s.setSeqHigh (.tile (hartVt h)) v .assured n)
        match (s.heldAnswer h id i), (s.hart h).access id with
        | some _, some a => (s.setPart h id i (.done bytes)).logAt (hartVt h) v (.data h a.seq i bytes)
        | _, _ => s
  | _, _, _ => s

/-- The data answers of an access that have come. -/
def State.answersOf (s : State) (h id : Nat) : List Packet :=
  s.net.filter fun p => match p.body with
    | .data h' a _ _ => h' == h && a == id
    | _ => false

/-- What a half-row of a drain is, for its number. -/
def Drain.rowKey (d : Drain) (j : Nat) : List Nat := [11, d.hart, d.entry, j]

/-- So many numbers of a stream. -/
def State.takeSeqs (s : State) (v : Nat) (dst : Node) : Nat → State × List Nat
  | 0 => (s, [])
  | k + 1 =>
    let (s, n) := s.takeSeq v dst .assured
    let (s, ns) := s.takeSeqs v dst k
    (s, n :: ns)

/-- The inbound log holds the refusal of an addend that a replay sends again: its number is void (R318, R322). -/
def Tile.refusedAgain (t : Tile) (a : Addend) : Bool :=
  t.replayLog.any fun e => match e.body with
    | .answer (.accBounce b) => b.id == a.id
    | _ => false

/-- An addend whose refusal is in the log goes nowhere; a number that it had is used (R322). -/
def State.voidAddend (s : State) (v : Nat) (p : Packet) : State :=
  s.onTile v fun t => { t with numbered := useNumber p.body.key (streamKey p.dst.number .refusable) t.numbered }

/-- What a released item does next. -/
def State.releaseItem (s : State) (v : Nat) (item : HeldItem) : State :=
  match item with
  | .packet p =>
    match p.stream with
    | some st =>
      if p.body.addend?.any (s.tile v).refusedAgain then s.voidAddend v p
      else
      let s := match p.body with
        | .addend a => s.countIssue (vtDie v) a.key.place
        | .switchAddend a _ => s.countIssue (vtDie v) a.key.place
        | _ => s
      s.number p st
    | none => s.inject p
  | .post h id =>
    match (s.hart h).posted.find? fun w => w.id == id with
    | none => s
    | some w =>
      let dst := s.placeNode w.place
      let (s, n) := s.takeSeqFor v dst .assured [8, h, w.made]
      let s := s.onHart h fun x => { x with
        posted := x.posted.map fun o => if o.id == id then { o with released := true, seq := some n, via := some dst } else o }
      s.countIssue (vtDie v) w.place
  | .amo h id i =>
    match (s.hart h).access id with
    | none => s
    | some a =>
      match a.parts[i]? with
      | none => s
      | some p =>
        let dst := s.placeNode p.place
        let (s, n) := s.takeSeqFor v dst .assured [9, h, a.seq, i]
        let s := s.onHart h fun x => x.onAccess id fun a => a.onPart i fun p =>
          { p with released := true, seq := some n, via := some dst }
        s.countIssue (vtDie v) p.place
  | .answer h id i => s.sendData v h id i
  | .cardWrite card line place data fe =>
    let dst := s.placeNode place
    let (s, n) := s.takeSeqFor v dst .assured [10, card, line, fe.isSome.toNat]
    let s := s.onTile v fun t => { t with
      cardWrites := t.cardWrites ++
        [{ card := card, line := line, place := place, data := data, fe := fe, seq := some n, via := some dst }] }
    s.countIssue (vtDie v) place
  | .drain id =>
    match (s.tile v).drains.find? fun d => d.id == id with
    | none => s
    | some d =>
      let dst := Node.tile (bits d.word 0 12)
      let left := d.rows.filter fun j => ((s.tile v).numberOf dst .assured (d.rowKey j)).isNone
      let (s, ns) := s.takeSeqs v dst left.length
      s.onTile v fun t => { t with
        drains := t.drains.map fun o => if o.id == id then { o with released := true, seqs := ns } else o }

/-- The head item may leave: every check and verdict it entered behind has passed (R319), and for a drain those of R203. -/
def State.mayRelease (s : State) (v : Nat) (i : Held) : Bool :=
  let t := s.tile v
  let passed (ids : List Nat) : Bool := !(ids.any fun n => t.unverified.contains n)
  !t.failed && passed i.needs && (match i.item with
    | .drain id => match t.drains.find? fun d => d.id == id with
      | some d => passed d.needs
      | none => true
    | _ => true)

/-- The oldest item of the hold is released; a drain copy keeps its space until its rows are written (R203). -/
def State.release (s : State) (v : Nat) : State :=
  match (s.tile v).egress.find? fun i => match i.item with
      | .drain id => ((s.tile v).drains.find? fun d => d.id == id).any fun d => !d.released && d.copy.isSome
      | _ => true with
  | none => s
  | some i =>
    if s.mayRelease v i then
      let gone (l : List Held) : List Held := match i.item with
        | .drain _ => l
        | _ => l.takeWhile (· != i) ++ (l.dropWhile (· != i)).drop 1
      (s.onTile v fun t => { t with egress := gone t.egress }).releaseItem v i.item
    else s

/-- Items leave while they may. -/
def State.releaseAll (s : State) (v : Nat) : Nat → State
  | 0 => s
  | n + 1 => (s.release v).releaseAll v n

end Sys2Proof.Machine
end

