-- ==== Sys2Proof/Machine/Tasks.lean ====
section
/-! DEFINITION. Tasks and what they share: counters and cancels, the send queue, outcomes of accumulates, the tail, the end
of a task, and dispatch (R222, R227, R231-R235, R238-R244, R247, R249, R250, R267, R270, R278, R284, R384). -/

namespace Sys2Proof.Machine

/-! ### Headers and destination words (R238) -/

def hdrClass (h : Word) : Nat := bits h 0 8
def hdrVt (h : Word) : Nat := bits h 8 12
def hdrHart (h : Word) : Nat := bits h 20 2
def hdrTenant (h : Word) : BitVec 6 := BitVec.ofNat 6 (bits h 22 6)
def hdrVnet (h : Word) : Nat := bits h 28 2
def hdrLaunch (h : Word) : BitVec 16 := BitVec.ofNat 16 (bits h 32 16)
def hdrLen (h : Word) : Nat := bits h 48 3
def hdrRe (h : Word) : Bool := bit h 51
def destVt (w : Word) : Nat := bits w 0 12
def destHart (w : Word) : Nat := bits w 12 2
def destChan (w : Word) : Nat := bits w 14 2

/-- A header from its fields (R238). -/
def mkHeader (cls vt slot tenant vnet rcls launch len : Nat) (re : Bool) : Word :=
  BitVec.ofNat 64 (re.toNat * 2 ^ 51 + len % 8 * 2 ^ 48 + launch % 2 ^ 16 * 2 ^ 32 + rcls % 4 * 2 ^ 30 + vnet % 4 * 2 ^ 28
    + tenant % 64 * 2 ^ 22 + slot % 4 * 2 ^ 20 + vt % 4096 * 2 ^ 8 + cls % 256)

/-- Who a destination word names (R361). -/
def destNode (w : Word) : Node :=
  if destVt w = 0xFFF then .panelSup
  else if 0xF00 ≤ destVt w then .dieSup (destVt w - 0xF00)
  else .tile (destVt w)

/-- The numbers that name supervisors (R361). -/
def isSupVt (v : Nat) : Bool := v == 0xFFF || (decide (0xF00 ≤ v) && decide (v < 0xF30))

/-! ### Counters (R249, R250, R274) -/

/-- The counter id of a launch; launch 0 and a launch of no die name none (R274). -/
def launchCounter (l : BitVec 16) : Option Nat :=
  if l = 0 ∨ 48 ≤ l.toNat / 1024 then none else some (l.toNat / 1024 * 4096 + l.toNat % 1024)

/-- A level is marked by its own mark or one above it (R250). -/
def State.markedFrom (s : State) (id : Nat) : Nat → Bool
  | 0 => false
  | n + 1 =>
    let c := s.counter id
    c.mark || (match c.parent with
      | some p => s.markedFrom p n
      | none => false)

/-- Every level above a counter is looked at: there are 196,608 counters. -/
def State.isMarked (s : State) (id : Nat) : Bool := s.markedFrom id 196608

def State.launchMarked (s : State) (l : BitVec 16) : Bool :=
  match launchCounter l with
  | some id => s.isMarked id
  | none => false

/-- The node a hart sends from: its tile, or its die's supervisor. -/
def hartNode (h : Nat) : Node := if isSup h then .dieSup (hartDie h) else .tile (hartVt h)

/-- An item leaves its sender: through the hold of a tile, from a supervisor at once, numbered like a tile's so that what one
hart sends takes effect in its order (R247, R249, R319; notes/assumptions/76.md). -/
def State.sendItem (s : State) (h : Nat) (dst : Node) (body : PacketBody) (st : Stream) : State :=
  if isSup h then
    s.number { id := 0, src := hartNode h, dst := dst, body := body, stream := none, seq := none, outOfTurn := false } st
  else s.sendFrom (hartVt h) dst body (some st)

/-- The hold has room for so many items of 64 bytes (R319). -/
def State.roomItems (s : State) (h n : Nat) : Bool := isSup h || (s.tile (hartVt h)).hasRoom (64 * n)

/-- The launch of the task that issues an update, 0 where none does (R249). -/
def State.issuer (s : State) (hart : Option Nat) : BitVec 16 :=
  match hart with
  | some h => if (s.hart h).task.isSome then (s.hart h).csr.launchid else 0
  | none => 0

/-- An update of a launch's counter is sent to its die (R249, R384); none where the launch names no counter. -/
def State.updateLaunch (s : State) (h : Nat) (l : BitVec 16) (delta : Int) (hart entry mreq : Option Nat) : State :=
  match launchCounter l with
  | none => s
  | some id => s.sendItem h (.dieSup (id / 4096)) (.counterUpdate id delta (s.issuer hart) hart entry mreq) .assured

/-- A cancel marks a level (R250, R272), unless the counter holds 0 or is marked, by its own mark or one above it; every
hart that runs a task of a launch that becomes marked gets interrupt 0x85. -/
def State.markLevel (s : State) (id : Nat) : State :=
  let c := s.counter id
  if s.isMarked id || c.value == 0 then s
  else
    let t := s.setCounter id { c with mark := true }
    t.harts.foldl (fun u (h, x) =>
      if x.task.isSome && !s.launchMarked x.csr.launchid && t.launchMarked x.csr.launchid then
        u.requestInterrupt h 5 (x.csr.launchid.zeroExtend 64)
      else u) t

/-- A cancel of a launch is sent to its counter (R243, R384). -/
def State.cancelLaunch (s : State) (h : Nat) (l : BitVec 16) : State :=
  match launchCounter l with
  | none => s
  | some id => s.sendItem h (.dieSup (id / 4096)) (.cancel id l) .assured

/-! ### The send queue (R240, R241, R247) -/

/-- The entry has yet to leave or come back to leave again; a place kept for a drain's wake is no message yet. -/
def SendState.waits : SendState → Bool
  | .queued => true
  | .bounced _ => true
  | .sent => false
  | .reserved => false

/-- A queued entry may leave: its counter has acknowledged it, and no older entry to its destination still waits. -/
def sendReady (older : List SendEntry) (e : SendEntry) : Bool :=
  e.state == .queued && e.acked && !(older.any fun o => (o.dest &&& 0xFFFF) == (e.dest &&& 0xFFFF) && o.state.waits)

/-- The entry's packet. -/
def SendEntry.packet (h : Nat) (e : SendEntry) : PacketBody :=
  .message e.dest e.msg (some h) (some e.id) e.spawn

def msgStream (m : Msg) : Stream := if hdrVnet m.header = 0 then .refusable else .assured

/-- Entries that may leave the send queue enter the hold while there is room (R240, R249, R319). -/
def State.pumpSends (s : State) (h : Nat) : Nat → State
  | 0 => s
  | n + 1 =>
    let q := (s.hart h).sendq
    match (q.zipIdx).find? fun (e, i) => sendReady (q.take i) e with
    | none => s
    | some (e, _) =>
      if s.roomItems h 1 then
        let s := s.onHart h fun x => { x with
          sendq := x.sendq.map fun (o : SendEntry) => if o.id == e.id then { o with state := .sent } else o }
        (s.sendItem h (destNode e.dest) (e.packet h) (msgStream e.msg)).pumpSends h n
      else s

/-- A message joins the send queue under the number of its instruction, so that a replay names it alike: its counter
goes up if it starts a task (R240, R249, R322). -/
def State.queueSend (s : State) (h id : Nat) (dest : Word) (m : Msg) (spawn : Bool) : State :=
  let counted := (hdrVnet m.header == 0 || hdrVnet m.header == 1) && (launchCounter (hdrLaunch m.header)).isSome
  let e : SendEntry := { id := id, dest := dest, msg := m, acked := !counted, state := .queued, refusals := 0, seq := none, spawn := spawn }
  let s := s.onHart h fun x => { x with
    sendq := x.sendq ++ [e]
    csr := { x.csr with replyres := x.csr.replyres + (hdrRe m.header).toNat } }
  let s := if counted then s.updateLaunch h (hdrLaunch m.header) 1 (some h) (some id) none else s
  (s.trace h 4 m.header).pumpSends h 16

/-- An entry leaves the send queue; later ones may go. -/
def State.dropSend (s : State) (h id : Nat) : State :=
  (s.onHart h fun x => { x with sendq := x.sendq.filter fun (e : SendEntry) => e.id != id }).pumpSends h 16

/-- Free slots of c3: not occupied and not reserved (R231). -/
def Hart.freeReplies (x : Hart) : Nat := 16 - (entryAt x.chans 3 []).length - x.csr.replyres

/-! ### Outcomes of accumulates (R218, R222, R227) -/

/-- Addends somewhere between their issue and their outcome. -/
def State.addendsOut (s : State) : List Addend :=
  s.net.filterMap (·.body.addend?) ++ s.ioUnits.filterMap (·.body.addend?) ++ s.switch.flatMap (·.addends)
    ++ s.tiles.flatMap fun (_, t) =>
      (t.unitQueue ++ t.flushQueue).filterMap (·.body.addend?)
        ++ t.egress.filterMap fun i => match i.item with
          | .packet p => p.body.addend?
          | _ => none

/-- The reduction window that holds a place's PA, and its port (R365). -/
def State.windowPort (s : State) (p : Place) : Option Nat :=
  let pa := match p.home with
    | .panel n => n * 2 ^ 43 + p.off
    | _ => s.panel * 2 ^ 43 + p.off
  (s.windows.find? fun (_, w) => decide (w.base ≤ pa ∧ pa < w.limit)).map fun (_, w) => w.port

/-- The target is the tile's own slice: its deliveries do not leave the tile (R319). -/
def ownTarget (v : Nat) (k : AccKey) : Bool := k.place.home == .slice v

/-- The node that a delivery of a key goes to (R219). -/
def State.accNode (s : State) (k : AccKey) : Node := if k.rdw then .switch else s.placeNode k.place

/-- What a delivery travels as (R230): an RDW page outside every window has no port. -/
def State.addendBody (s : State) (a : Addend) : PacketBody :=
  if a.key.rdw then .switchAddend a ((s.windowPort a.key.place).getD 255) else .addend a

/-- A delivery leaves for its unit (R218, R222, R318): normal ones in the refusable stream, flushes in the assured. -/
def State.sendAddend (s : State) (v : Nat) (a : Addend) : State :=
  let st : Stream := if a.flush then .assured else .refusable
  let body := s.addendBody a
  if ownTarget v a.key then
    if (s.tile v).refusedAgain a then s.voidAddend v
      { id := 0, src := .tile v, dst := .tile v, body := body, stream := none, seq := none, outOfTurn := false }
    else
    let (s, n) := s.takeSeqFor v (.tile v) st body.key
    s.inject { id := 0, src := .tile v, dst := .tile v, body := body, stream := some st, seq := some n, outOfTurn := false }
  else s.sendFrom v (s.accNode a.key) body (some st)

/-- Tail entries of a tile that match leave as flush deliveries, oldest first, while the hold has room (R222). -/
def State.forceOut (s : State) (v : Nat) (hart : Option Nat) (match_ : TailEntry → Bool) : Nat → State
  | 0 => s
  | n + 1 =>
    let t := s.tile v
    match t.tail.find? match_ with
    | none => s
    | some e =>
      if ownTarget v e.key || t.hasRoom 64 then
        let (id, s) := s.fresh
        let a : Addend := { id := id, key := e.key, va := e.va, value := e.value, flush := true, srcVt := v, hart := hart
                            since := s.cycle v }
        let s := s.onTile v fun t => { t with
          tail := t.tail.takeWhile (· != e) ++ (t.tail.dropWhile (· != e)).drop 1
          flushes := t.flushes ++ [{ id := id, launch := e.key.launch }] }
        (s.sendAddend v a).forceOut v hart match_ n
      else s

/-- No addend of a launch is on its way or in a tail (R227). -/
def State.launchQuiet (s : State) (l : BitVec 16) : Bool :=
  !(s.addendsOut.any fun a => a.key.launch == l)
    && !(s.tiles.any fun (_, t) => t.tail.any (fun e => e.key.launch == l) || t.flushes.any fun f => f.launch == l)

/-! ### The end of a task (R193, R243, R267, R270) -/

/-- Earlier stores are performed and earlier AMOs and ACCs have outcomes (R243). -/
def State.drained (s : State) (h : Nat) : Bool :=
  s.settled h && (s.hart h).posted.isEmpty && (s.hart h).accs.isEmpty

/-- For a task of launch 0 the tile's launch-0 entries have been forced out and have outcomes (R243). -/
def State.zeroFlushed (s : State) (h : Nat) : Bool :=
  (s.hart h).csr.launchid != 0 ||
    (let t := s.tile (hartVt h)
     !(t.tail.any fun e => e.key.launch == 0) && !(t.flushes.any fun f => f.launch == 0))

/-- Barrier operations of a hart that have not reached their homes. -/
def State.barrierOpsOut (s : State) (h : Nat) : Bool :=
  let mine (b : PacketBody) : Bool := match b with
    | .barrier _ _ h' => h' == h
    | _ => false
  (s.net.any fun p => mine p.body) || (s.tile (hartVt h)).egress.any fun i => match i.item with
    | .packet p => mine p.body
    | _ => false

/-- A barrier operation travels to its home (R264, R384). -/
def State.sendBarrier (s : State) (h : Nat) (word : BitVec 17) (op : BarrierOp) : State :=
  s.sendItem h (.tile (word.toNat % 4096)) (.barrier word op h) .assured

/-- The implicit drops of R267: a BARDROP for every joined record, the others freed. -/
def State.dropBarriers (s : State) (h : Nat) : State :=
  let s := (s.hart h).barriers.toList.foldl (fun s r =>
    if r.inUse && r.joined then s.sendBarrier h r.word (.drop (!r.arrived)) else s) s
  s.onHart h fun x => { x with barriers := Vector.replicate 4 BarrierRecord.reset }

/-- The task's slot is freed and the hart returns to dispatch, in no trap handler (R231, R234, R243); a supervisor hart waits
there (notes/assumptions/61.md). -/
def State.freeTask (s : State) (h : Nat) : State :=
  let s := s.onTile (hartVt h) fun t => { t with watches := t.watches.filter fun w => w.hart != h }
  s.onHart h fun x => { x with
    chans := match x.task with
      | some t => onAt x.chans t.chan fun c => c.filter fun m => !m.running
      | none => x.chans
    task := none, mode := if isSup h then x.mode else .user, csr := { x.csr with uh := false }
    lwaitSpurious := false, ended := isSup h
    spawn := { armed := false, answered := false, accepted := false, retryAt := 0 }, spawnOuter := [] }

/-- What TEND, TEND.X and TYIELD wait for, with what they set going while they wait (R243, R267): none once everything
has come. -/
def State.taskWaits (s : State) (h : Nat) (ends : Bool) : Option State :=
  if !s.drained h then some s
  else if !s.zeroFlushed h then some (s.forceOut (hartVt h) none (fun e => e.key.launch == 0) 128)
  else if ends && (s.hart h).barriers.any (·.inUse) then
    if s.roomItems h 4 then some (s.dropBarriers h) else some s
  else if ends && s.barrierOpsOut h then some s
  else if !s.roomItems h 2 then some s
  else none

/-! ### Reading the handler table (R233) -/

/-- A read of the handler table has met an empty line: the first time starts its count (R136). -/
def State.handlerWaits (s : State) (h : Nat) : State :=
  s.onHart h fun x => { x with handlerSince := x.handlerSince.orElse fun _ => some (s.cycle (hartVt h)) }

/-- An entry of the handler table read as a K-mode load of a tenant: its address, and the dword if it can be read;
none of it while the line it lies in is empty (R135), until FEWAIT cycles have passed since it was first found so: from
then on it cannot be read (R136, R234; notes/assumptions/77.md); none either while a stack's other requests come first (R97), or
where its SRAM cannot rebuild it (R143). -/
def State.handlerEntry (s : State) (h : Nat) (tenant : BitVec 6) (cls : Nat) : State × Option (Word × Option Word) :=
  let va := (s.tile (hartVt h)).htbase + BitVec.ofNat 64 (8 * cls)
  let read (s : State) : State := s.onHart h fun x => { x with handlerSince := none }
  match s.locate { s.ctx h with mode := .kernel, tenant := tenant } va .load true with
  | (s, .error none) => (s, none)
  | (s, .error (some _)) => (read s, some (va, none))
  | (s, .ok l) =>
    let empty := match l.place.home with
      | .slice v => (s.tile v).isEmpty l.place.off
      | _ => false
    let late := (s.hart h).handlerSince.any fun c =>
      decide (c + (s.tile (hartVt h)).feWait ≤ s.cycle (hartVt h))
    if empty && !late then (s.handlerWaits h, none)
    else if !s.hbmAdmits (.tile (hartVt h)) l.place then (s, none)
    else
      let s := read ((s.countIssue (hartDie h) l.place).serveEngine (hartVt h) l.place)
      if empty || s.unreadable l.place then (s, some (va, none))
      else
        match s.readBytes l.place 8 with
        | (s, some bs) => (s, some (va, some (BitVec.ofNat 64 (bytesNat bs))))
        | (s, none) => (s, none)

/-- A usable entry gives the handler's address. -/
def handlerPc (e : Option Word) : Option Word :=
  match e with
  | some e => if bit e 0 ∧ ¬ bit e 1 then some (e &&& ~~~(3#64)) else none
  | none => none

/-! ### Dispatch (R234, R235, R284) -/

/-- The power class of a launch (R284). -/
def State.launchClass (s : State) (l : BitVec 16) : BitVec 3 :=
  match launchCounter l with
  | some id => (s.counter id).pclass
  | none => 0

/-- A class above the limit in force on a die is shed; class 7 never is (R337), and class 0 lies above no limit. -/
def State.classShed (s : State) (d : Nat) (c : BitVec 3) : Bool := decide ((s.die d).limit < c.toNat) && c != 7

/-- The head message of a channel waits: not running and not of a shed class (R234, R284). -/
def State.waitingHead (s : State) (d : Nat) (x : Hart) (c : Nat) : Option Msg :=
  match (entryAt x.chans c []).find? (!·.running) with
  | some m => if s.classShed d (s.launchClass (hdrLaunch m.msg.header)) then none else some m.msg
  | none => none

/-- The channel dispatch serves: highest priority, ties in cyclic order after the last served (R234). -/
def State.pickChannel (s : State) (d : Nat) (x : Hart) : Option Nat :=
  let prio (c : Nat) : Nat := bits (x.csr.chprio.zeroExtend 64) (2 * c) 2
  let order := (List.range 4).map fun i => (x.lastChan + 1 + i) % 4
  let waiting := order.filter fun c => (s.waitingHead d x c).isSome
  waiting.foldl (fun b c => match b with
    | none => some c
    | some d => if prio d < prio c then some c else some d) none

/-- The head message of a channel leaves its slot. -/
def Hart.dropHead (x : Hart) (c : Nat) : Hart :=
  { x with chans := onAt x.chans c fun l => l.takeWhile (·.running) ++ (l.dropWhile (·.running)).drop 1 }

/-- The head message becomes the running task's. -/
def Hart.runHead (x : Hart) (c : Nat) : Hart :=
  { x with chans := onAt x.chans c fun l =>
      l.takeWhile (·.running) ++ (match l.dropWhile (·.running) with
        | m :: ms => { m with running := true } :: ms
        | [] => []) }

/-- g3 and g4-g10 as dispatch writes them (R234, R235). -/
def Hart.loadPayload (x : Hart) (header : Word) (payload : List Word) : Hart :=
  (List.range 7).foldl (fun x j => x.setG (BitVec.ofNat 5 (4 + j)) (payload.getD j 0)) (x.setG 3 header)

/-- The message chosen starts as a task (R234, R235, R321, R354). -/
def State.startTask (s : State) (h c : Nat) (m : Msg) : State :=
  let hd := m.header
  let inl := hdrClass hd == 0xFF
  let entry := if inl then (s, some ((0 : Word), (none : Option Word))) else s.handlerEntry h (hdrTenant hd) (hdrClass hd)
  match entry with
  | (s, none) => s
  | (s, some (va, e)) =>
    -- the record of a park finds room first (R319)
    if !isSup h && !(s.tile (hartVt h)).hasRoom 64 && (if inl then !(s.hart h).csr.tenpermInline else (handlerPc e).isNone)
      && ({ s.hart h with mode := .user }).trapLevel (if inl then .inlineFault else .fetchFault) == .park then s
    else
    let cls := s.launchClass (hdrLaunch hd)
    let payload := if inl then [] else m.payload.take (hdrLen hd)
    let s := s.logAt (hartVt h) h (.dispatch h c)
    let s := s.onHart h fun x =>
      let y := (x.drain.runHead c).loadPayload hd payload
      { y with
        lastChan := c, mode := .user
        task := some { chan := c, inlineWords := if inl then some (2 * hdrLen hd) else none }
        irq := { y.irq with preemptAt := s.cycle (hartVt h) }
        csr := { y.csr with
          launchid := hdrLaunch hd, tenant := hdrTenant hd, pclass := cls, kip := y.csr.kip &&& ~~~(32#7) }
        checker := { y.checker with resync := true } }
    let s := if s.launchMarked (hdrLaunch hd) then s.requestInterrupt h 5 (hd >>> 32 &&& 0xFFFF) else s
    let s := s.trace h 3 hd
    if inl then
      let s := s.onHart h fun x => { x with pc := BitVec.ofNat 64 slotPc }
      if (s.hart h).csr.tenpermInline then s else s.takeTrap h .inlineFault hd 0
    else
      match handlerPc e with
      | some pc => s.onHart h fun x => { x with pc := pc }
      | none => (s.onHart h fun x => { x with pc := 0 }).takeTrap h .fetchFault va 0

/-- The dispatch loop (R234): messages of marked launches are discarded and count as completed; the log names the
channel of a discard above those of dispatches. -/
def State.dispatchLoop (s : State) (h : Nat) : Nat → State
  | 0 => s
  | n + 1 =>
    match s.pickChannel (hartDie h) (s.hart h) with
    | none => s
    | some c =>
      match s.waitingHead (hartDie h) (s.hart h) c with
      | none => s
      | some m =>
        if s.launchMarked (hdrLaunch m.header) then
          if s.roomItems h 1 then
            (((s.logAt (hartVt h) h (.dispatch h (c + 4))).onHart h fun x => { x.dropHead c with lastChan := c }).updateLaunch h (hdrLaunch m.header) (-1)
              none none none).dispatchLoop h n
          else s
        else s.startTask h c m

/-- The context of a hart is shed (R337): the task it runs, by its PCLASS. -/
def State.contextShed (s : State) (h : Nat) : Bool :=
  !isSup h && (s.hart h).task.isSome && s.classShed (hartDie h) (s.hart h).csr.pclass

/-- A hart enters shed hold at its boundary (R183, R193, R338). -/
def State.holdShed (s : State) (h : Nat) : State :=
  (((s.abandon h).withdrawSfu h).endLease h).onHart h fun x => { x with shedHold := true }

/-- The hart may dispatch: it holds no task, the results of the last one are written (R26, R28), and nothing stops it (R234, R307, R308, R322, R338). -/
def State.mayDispatch (s : State) (h : Nat) : Bool :=
  let x := s.hart h
  !isSup h && x.task.isNone && x.board.isEmpty && x.parked.isNone && x.halted.isNone && !x.shedHold && !(s.tile (hartVt h)).failed
    && !s.forwarding (hartVt h) && (match (s.tile (hartVt h)).cond with
      | .running => true
      | .drain => true
      | _ => false)

end Sys2Proof.Machine
end

