-- ==== Sys2Proof/Machine/Complete.lean ====
section
/-! DEFINITION. How outstanding accesses end: data into registers, tensor maps, payloads; results of the scoreboard; and what
a prompt move settles at once (R28, R93, R124, R125, R153-R155, R184-R186, R208, R215, R240, R291). -/

namespace Sys2Proof.Machine

/-! ### Tensor-map descriptors (R124) -/

def mapBase (d : List Word) : Nat := (d.getD 0 0).toNat
def mapEsz (d : List Word) : Nat := 2 ^ bits (d.getD 1 0) 0 2
def mapRank (d : List Word) : Nat := bits (d.getD 1 0) 2 2 + 1
/-- Extent of dimension i. -/
def mapDim (d : List Word) (i : Nat) : Nat := bits (d.getD 2 0) (16 * i) 16
/-- Box extent of dimension i, minus 1. -/
def mapBox (d : List Word) (i : Nat) : Nat := bits (d.getD 3 0) (16 * i) 12
/-- Byte stride of dimension i. -/
def mapStride (d : List Word) (i : Nat) : Nat := if i = 0 then mapEsz d else bits (d.getD (3 + i) 0) 0 48
def mapBoxBytes (d : List Word) : Nat :=
  (mapBox d 0 + 1) * (mapBox d 1 + 1) * (mapBox d 2 + 1) * (mapBox d 3 + 1) * mapEsz d

/-- What TMAP accepts (R125). -/
def mapValid (d : List Word) : Bool :=
  let r := mapRank d
  bits (d.getD 1 0) 4 60 == 0 && bits (d.getD 4 0) 48 16 == 0 && bits (d.getD 5 0) 48 16 == 0
    && bits (d.getD 6 0) 48 16 == 0 && d.getD 7 0 == 0
    && (List.range 4).all (fun i =>
      bits (d.getD 3 0) (16 * i + 12) 4 == 0 &&
      (if i < r then decide (1 ≤ mapDim d i) && (i == 0 || mapStride d i % 8 == 0)
        else mapDim d i == 0 && mapBox d i == 0 && mapStride d i == 0))
    && decide (mapBase d < 2 ^ 48) && mapBase d % mapEsz d == 0 && decide (mapBoxBytes d ≤ 2 ^ 20)
    && (mapBox d 0 + 1) * mapEsz d % 8 == 0

/-! ### Data into registers -/

/-- Bytes with others laid over them from an offset on. -/
def layOver (bs : List Byte) (off : Nat) (data : List Byte) : List Byte :=
  bs.take off ++ data ++ bs.drop (off + data.length)

def Part.data (p : Part) : List Byte :=
  match p.status with
  | .done bs => bs
  | _ => []

/-- The data of an access, each part at its offset. -/
def Access.data (a : Access) (n : Nat) : List Byte :=
  a.parts.foldl (fun bs p => layOver bs p.dst p.data) (List.replicate n 0)

/-- The bytes of a register where lanes of `w` bytes that the mask selects are replaced. -/
def maskedBytes (old new : List Byte) (w : Nat) (mask : Word) : List Byte :=
  (old.zip new).zipIdx.map fun ((o, n), i) => if mask.getLsbD (i / w) then n else o

def bytesV (bs : List Byte) : VReg := BitVec.ofNat 512 (bytesNat bs)
def vBytes (v : VReg) : List Byte := natBytes 64 v.toNat

/-- The value of an integer load or atomic (R153, R155, R215). -/
def loadValue (n : Nat) (signed : Bool) (bs : List Byte) : Word :=
  let w := BitVec.ofNat 64 (bytesNat (bs.take n))
  if signed then sext w (8 * n) else zext w (8 * n)

/-- The value of a floating-point load: ones above a narrower one (R154). -/
def loadF (n : Nat) (bs : List Byte) : Word :=
  let w := BitVec.ofNat 64 (bytesNat (bs.take n))
  if n = 4 then w ||| 0xFFFFFFFF00000000 else w

/-- The access leaves the outstanding ones. -/
def Hart.endAccess (x : Hart) (id : Nat) : Hart := { x with flights := x.flights.filter fun a => a.id != id }

/-- A trap of an outstanding access waits for its boundary (R290). -/
def Hart.accessTrap (x : Hart) (id : Nat) (c : Cause) (va : Word) : Hart :=
  if x.pendTraps.any (·.access == some id) then x
  else { x with pendTraps := x.pendTraps ++ [{ cause := c, tval := va, access := some id }] }

/-- What an access does when its data is all there; SEND.P goes on as R240 says, and waits here for a c3 slot or room. -/
def State.complete (s : State) (h : Nat) (a : Access) : State :=
  let x := s.hart h
  let x' := x.endAccess a.id
  let put (d : Reg) (v : VReg) : State := s.setHart h (x'.writeResult a.seq d v)
  match a.dst with
  | .fence _ => s.setHart h x'
  | .g d n signed => put (.g d) ((loadValue n signed (a.data n)).zeroExtend 512)
  | .f d n => put (.f d) ((loadF n (a.data n)).zeroExtend 512)
  | .v d w mask => put (.v d) (bytesV (maskedBytes (vBytes (x.regs.read (.v d))) (a.data 64) w mask))
  | .bcast d w mask =>
    put (.v d) (bytesV (maskedBytes (vBytes (x.regs.read (.v d)))
      ((List.range 64).map fun i => (a.data w).getD (i % w) 0) w mask))
  | .m i rowBytes =>
    let rows := Vector.ofFn fun r : Fin 16 =>
      bytesV ((((a.data 1024).drop (64 * r.val)).take rowBytes) ++ List.replicate (64 - rowBytes) 0)
    s.setHart h { x' with m := x'.m.set i.toNat rows i.isLt, mDirty := x'.mDirty ||| BitVec.ofNat 8 (2 ^ i.toNat) }
  | .tmap index addr =>
    let d := (List.range 8).map fun i => dwordAt (a.data 64) i
    if mapValid d then (s.setHart h x').onTile (hartVt h) fun t => { t with tmaps := t.tmaps.put index.toNat d }
    else s.onHart h fun x => x.accessTrap a.id .tmapFault addr
  | .payload busy dest header =>
    let words := (List.range (hdrLen header)).map fun i => dwordAt (a.data 56) i
    if hdrRe header && x.freeReplies == 0 then s
    else if !s.roomItems h 2 then s
    else
      let x' := match busy with
        | some d => x'.writeResult a.seq (.g d) 0
        | none => x'
      (s.setHart h x').queueSend h a.seq dest { header := header, payload := words } false

/-- The access is a FENCE that waits: for older instructions, for writes to the homes of its scope, or for accumulates
(R257, R263). -/
def Access.fenceWaits (a : Access) (s : State) (h : Nat) (behind : Bool) : Bool :=
  match a.dst with
  | .fence scope => behind || !(s.rstats h).isEmpty || !s.released h scope
  | _ => false

/-- The answer of an access reaches its hart (R92, R93, R318): complete, or MEM_ERROR at its lowest bad address. Behind an older
load that may yet wait on an empty line it is kept back (notes/assumptions/11.md). -/
def State.accessAnswer (s : State) (h id : Nat) : State :=
  let s := (s.answersOf h id).foldl State.dataArrives s
  let x := s.hart h
  match x.access id with
  | none => s
  | some a =>
    let older := x.flights.filter fun o => decide (o.seq < a.seq)
    let mayWait (o : Access) : Bool := o.op.waits && o.parts.any fun p => p.place.isSlice && !p.status.performed
    if older.any mayWait then s
    else if a.fenceWaits s h (!older.isEmpty) then s
    else
      match (a.parts.filter fun p => p.status == .bad).map a.lowest with
      | va :: vas =>
        if a.performed then
          s.onHart h fun x => x.accessTrap id .memError (BitVec.ofNat 64 (vas.foldl min va))
        else s
      | [] =>
        if a.parts.all fun p => match p.status with | .done _ => true | _ => false then s.complete h a else s

/-! ### Scoreboarded and fixed-latency results (R25, R28) -/

/-- A result in flight is written (R28): the oldest scoreboarded one, or a fixed-latency one that its unit delivers. -/
def Hart.resultWritten (x : Hart) : Hart :=
  match x.board with
  | b :: bs => ({ x with board := bs }).writeResult b.seq b.dst b.val
  | [] =>
    match x.fixed.find? fun p => !p.written && (x.fixed.filter fun q => q.dst == p.dst).length == 1 with
    | some p => { x with
        regs := x.regs.write p.dst (p.val.zeroExtend 512)
        fixed := x.fixed.map fun q => if q == p then { q with written := true } else q }
    | none => x

/-! ### A prompt move -/

/-- A batch forms for the channel a request waits in (R97). -/
def State.batchFor (s : State) (p : Place) : State :=
  match p.home with
  | .hbm d => s.formBatch d (hbmChannel p.off)
  | _ => s

/-- A request joins its queue, if it has one, and is performed where nothing keeps it. -/
def State.requestNow (s : State) (h id i : Nat) (p : Place) : State := ((s.lineRequest h id i).batchFor p).lineRequest h id i

/-- The die whose directory keeps a watch: none for a line whose writes are never observed. -/
def Watch.die (w : Watch) : Option Nat :=
  match w.place.home with
  | .slice v => some (vtDie v)
  | .hbm d => some d
  | _ => none

/-- Watches that a home die's directory holds. -/
def State.directory (s : State) (d : Nat) : Nat :=
  (s.tiles.map fun (_, t) => (t.watches.filter fun w => w.registered && w.die == some d).length).sum

/-- A watch is performed at its home while the directory of 512 entries has room. -/
def State.registerWatch (s : State) (h i : Nat) : State :=
  match (s.tile (hartVt h)).watches[i]? with
  | none => s
  | some w =>
    let room := match w.die with
      | some d => decide (s.directory d < 512)
      | none => true
    if w.hart == h && room then
      s.onTile (hartVt h) fun t => { t with watches := t.watches.modify i fun w => { w with registered := true } }
    else s

/-- Everything of the hart that can be performed is, once through: gate, homes, answers, results. -/
def State.settleOnce (s : State) (h : Nat) : State :=
  let s := if isSup h then s else s.releaseAll (hartVt h) 16
  let s := if isSup h then s else (List.range 32).foldl (fun s i => s.registerWatch h i) s
  let s := (s.hart h).posted.foldl (fun s w => s.requestNow h w.id 0 w.place) s
  let s := (s.hart h).flights.foldl (fun s a => (a.parts.zipIdx).foldl (fun s (p, i) => s.requestNow h a.id i p.place) s) s
  let s := (s.hart h).flights.foldl (fun s a => s.accessAnswer h a.id) s
  (s.hart h).board.foldl (fun s _ => s.onHart h Hart.resultWritten) s

/-- What follows an instruction in the same move: a prompt move settles the hart's accesses, and a step halts (R352). -/
def State.finish (s : State) (h : Nat) : State :=
  let s := if s.prompt then (s.settleOnce h).settleOnce h else s
  s.afterIssue h

end Sys2Proof.Machine
end

