-- ==== Sys2Proof/Machine/Accum.lean ====
section
/-! DEFINITION. The ACCUM group: ACC, FLUSHRES and TAILSTAT (R217, R218, R221, R225, R226). -/

namespace Sys2Proof.Machine

/-- The tile's entry for a key and the other entries, in their order (R221). -/
def takeTail (k : AccKey) : List TailEntry → Option TailEntry × List TailEntry
  | [] => (none, [])
  | e :: es =>
    if e.key = k then (some e, es)
    else
      let r := takeTail k es
      (r.1, e :: r.2)

/-- Issue of an accumulate whose target has been checked (R218): the tail's entry of the key goes out with it. -/
def State.issueAcc (s : State) (k : AccKey) (va : Word) (x : VReg) : State :=
  let h := s.cur
  let v := hartVt h
  let id := accId h (s.hart h).seq
  let r := takeTail k (s.tile v).tail
  let value := match r.1 with
    | some e => mergeAcc k.cls e.value x
    | none => x
  -- a FLUSHRES that waits for what the entry holds waits for this delivery (R225)
  let s := s.onTile v fun t => { t with
    tail := r.2
    flushing := if r.1.isSome then t.flushing.map fun f => if f.f.isNone then { f with e := f.e ++ [id] } else f
      else t.flushing }
  let s := s.onHart h fun y => { y with accs := y.accs ++ [id] }
  s.sendAddend v { id := id, key := k, va := va, value := value, flush := false, srcVt := v, hart := some h
                   since := s.cycle v }

/-- ACC of a class (R217, R218): a rotation that drains its VT stalls it (R307). -/
def State.acc (s : State) (sc : BitVec 3) (a b : BitVec 5) (cls : AccClass) (addend : VReg → VReg) : Answer :=
  s.run { sc := sc, reads := [.g a, .v b], writes := [], reach := true } fun s =>
    let h := s.cur
    let va := s.self.g a
    s.onTileHart <|
      if va.toNat % 64 ≠ 0 then .trap .misalign va
      else
        match s.locate (s.ctx h) va .amo true with
        | (t, .error c) => t.unplaced c va
        | (t, .ok l) =>
          match s.self.watchHit false true va 64 with
          | some at_ => s.watchAct at_
          | none =>
            let k : AccKey := { place := l.place, cls := cls, launch := s.self.csr.launchid, rdw := l.rdw }
            let room := ownTarget (hartVt h) k || s.roomItems h 1
            if 32 ≤ s.self.accs.length || (s.tile (hartVt h)).cond == .drain || !room then .wait s
            else .done (t.issueAcc k va (addend (s.self.v b)))

/-- ACC.F32 (R217). -/
def execAccF32 (sc : BitVec 3) (a b : BitVec 5) (s : State) : Answer :=
  s.acc sc a b .f32 fun v => v

/-- ACC.BF (R217): each of 16 BF16 lanes widened exactly. -/
def execAccBf (sc : BitVec 3) (a b : BitVec 5) (s : State) : Answer :=
  s.acc sc a b .f32 fun v => ofLanes 32 (((lanes 16 v).take 16).map fun x => (convertFp bf16 f32 .rne x).1)

/-- ACC.S32 (R217). -/
def execAccS32 (sc : BitVec 3) (a b : BitVec 5) (s : State) : Answer :=
  s.acc sc a b .s32 fun v => v

/-- ACC.S64 (R217). -/
def execAccS64 (sc : BitVec 3) (a b : BitVec 5) (s : State) : Answer :=
  s.acc sc a b .s64 fun v => v

/-! ### FLUSHRES (R225) -/

/-- Outcomes still to come of the accumulates a FLUSHRES covers. -/
def State.accsOut (s : State) (v : Nat) (e : List Nat) : Bool :=
  (List.range 4).any fun i => (s.hart (v * 4 + i)).accs.any fun id => e.contains id

/-- This FLUSHRES of a hart, begun if it is not under way: E is what the tile's harts have issued. -/
def State.beginFlush (s : State) (h : Nat) : State × Flushing :=
  let v := hartVt h
  let x := s.hart h
  match (s.tile v).flushing.find? fun f => f.hart == h && f.seq == x.seq with
  | some f => (s, f)
  | none =>
    let e := (List.range 4).flatMap fun i => (s.hart (v * 4 + i)).accs
    let f : Flushing := { hart := h, seq := x.seq, e := e, f := none }
    (s.onTile v fun t => { t with flushing := (t.flushing.filter fun o => o.hart != h) ++ [f] }, f)

def State.setFlush (s : State) (f : Flushing) : State :=
  s.onTile (hartVt f.hart) fun t => { t with flushing := t.flushing.map fun o => if o.hart == f.hart then f else o }

/-- One look at a FLUSHRES: its next state, and whether every flush of F has its outcome; to F the model counts the tile's
flushes on their way, which may hold what E's addends left in the tail (R225, R260). -/
def State.flushStep (s : State) (h : Nat) : State × Bool :=
  let v := hartVt h
  let (s, f) := s.beginFlush h
  match f.f with
  | some ids => (s, !((s.tile v).flushes.any fun w => ids.contains w.id))
  | none =>
    let t := s.tile v
    if s.accsOut v f.e then (s, false)
    else if t.tail.isEmpty && t.flushes.isEmpty then (s.setFlush { f with f := some [] }, true)
    else if !s.roomItems h t.tail.length then (s, false)
    else
      let s := s.forceOut v (some h) (fun _ => true) 128
      (s.setFlush { f with f := some ((s.tile v).flushes.map (·.id)) }, false)

/-- FLUSHRES (R225). -/
def execFlushres (sc : BitVec 3) (s : State) : Answer :=
  s.run { sc := sc, reads := [], writes := [], reach := true } fun s =>
    let h := s.cur
    s.onTileHart <|
      match s.flushStep h with
      | (t, false) => .wait t
      | (t, true) => .done (t.onTile (hartVt h) fun x => { x with flushing := x.flushing.filter fun f => f.hart != h })

/-- What TAILSTAT writes (R226). -/
def State.tailWord (s : State) (h : Nat) (hit : Bool) : Word :=
  BitVec.ofNat 64 (hit.toNat * 2 ^ 15 + (s.hart h).accs.length % 128 * 2 ^ 8 + (s.tile (hartVt h)).tail.length % 256)

/-- TAILSTAT (R226). -/
def execTailstat (sc : BitVec 3) (d a : BitVec 5) (s : State) : Answer :=
  s.run { sc := sc, reads := [.g a], writes := [.g d] } fun s =>
    let h := s.cur
    let va := s.self.g a
    s.onTileHart <|
      if a = 0 then .done (s.postG d (s.tailWord h false))
      else if va.toNat % 64 ≠ 0 then .trap .misalign va
      else if decide (va.toNat < 2 ^ 48) && s.walkWaits (s.ctx h) va.toNat true false then .wait s
      else
        match s.locate (s.ctx h) va .amo false with
        | (t, .error c) => t.unplaced c va
        | (t, .ok l) =>
          let hit := (s.tile (hartVt h)).tail.any fun e =>
            e.key.place == l.place && e.key.launch == s.self.csr.launchid
          .done (t.postG d (s.tailWord h hit))

end Sys2Proof.Machine
end

