-- ==== Sys2Proof/Machine/Latency.lean ====
section
/-! DEFINITION. Latency histograms with their trigger, and the panel halt it can request (R353, R356). -/

namespace Sys2Proof.Machine

/-- The bucket of a latency (R356). -/
def bucketOf (n : Nat) : Nat := if n < 2 then 0 else min 15 (Nat.log2 n)

/-- The panel halt (R353): every hart of every in-service tile gets interrupt 0x86, and one halt tick holds for all, those that
are halted already among them. -/
def State.haltPanel (s : State) : State :=
  if s.panelHalt.isSome then s
  else
    let s := { s with panelHalt := some s.tick }
    (List.range 12288).foldl (fun s h =>
      if (s.tile (hartVt h)).cond == .lost then s
      else if (s.hart h).halted.isSome then s.onHart h fun x => { x with halted := s.panelHalt }
      else s.requestInterrupt h 6 0) s

/-- Which histogram (R356). -/
def Histograms.nth (x : Histograms) : Nat → Vector Nat 16
  | 0 => x.engine
  | 1 => x.acc
  | 2 => x.mreq
  | _ => x.array

/-- A latency counted; counts saturate. -/
def Histograms.count (x : Histograms) (which cycles : Nat) : Histograms :=
  let up (v : Vector Nat 16) : Vector Nat 16 := onAt v (bucketOf cycles) fun n => min (2 ^ 32 - 1) (n + 1)
  match which with
  | 0 => { x with engine := up x.engine }
  | 1 => { x with acc := up x.acc }
  | 2 => { x with mreq := up x.mreq }
  | _ => { x with array := up x.array }

/-- The trigger's condition: the count in buckets B and above exceeds P/256 of the total. -/
def Histograms.fires (x : Histograms) : Option Nat :=
  match x.trigger with
  | none => none
  | some (which, bucket, p, action) =>
    let l := (x.nth which).toList
    if (l.drop bucket).sum * 256 > p * l.sum then some action else none

/-- What a trigger does to each hart's encoder (R354, R356): 0 starts the trace, 1 stops it, 2 freezes it. -/
def Hart.traceAction (x : Hart) (action : Nat) : Hart :=
  let c := x.csr.tracectl
  match action with
  | 0 => x.writeTracectl (setBit c 0 true)
  | 1 => x.writeTracectl (setBit c 0 false)
  | _ => x.writeTracectl (setBit c 5 true)

/-- The trigger of a tile is looked at; it fires once (R356). -/
def State.fireTrigger (s : State) (v : Nat) : State :=
  match (s.tile v).hist.fires with
  | none => s
  | some action =>
    let s := s.onTile v fun t => { t with hist := { t.hist with trigger := none } }
    if action < 3 then
      (List.range 4).foldl (fun s i => s.onHart (v * 4 + i) fun x => x.traceAction action) s
    else s.haltPanel

/-- A latency of a tile is counted (R356). -/
def State.latency (s : State) (v which cycles : Nat) : State :=
  (s.onTile v fun t => { t with hist := t.hist.count which cycles }).fireTrigger v

end Sys2Proof.Machine
end

