-- ==== Sys2Proof/Machine/Arrive.lean ====
section
/-! DEFINITION. Items that arrive at a tile: what its condition lets in, sequence numbers, returns out of turn, and voids
(R241, R308, R315, R316, R318, R322, R327, R346). -/

namespace Sys2Proof.Machine

def State.packet (s : State) (id : Nat) : Option Packet := s.net.find? fun p => p.id == id

def State.dropPacket (s : State) (id : Nat) : State := { s with net := s.net.filter fun p => p.id != id }

/-- An item returned to its source out of turn (R318). -/
def State.returnPacket (s : State) (id : Nat) : State :=
  { s with net := s.net.map fun p => if p.id == id then { p with outOfTurn := true } else p }

/-- The verdict on an arriving item (R318); one without a number is in turn. -/
def State.verdict (s : State) (p : Packet) : SeqVerdict :=
  match p.stream, p.seq with
  | some st, some n => seqVerdict (s.seqHigh p.dst p.src.number st) n
  | _, _ => .inTurn

/-- Its number is accepted (R318). -/
def State.acceptPacket (s : State) (p : Packet) : State :=
  match p.stream, p.seq with
  | some st, some n => s.setSeqHigh p.dst p.src.number st n
  | _, _ => s

/-- A void marker for a number that its source will never send again (R318). -/
def State.sendVoid (s : State) (src dst : Node) (st : Stream) (n : Nat) : State :=
  s.inject { id := 0, src := src, dst := dst, body := .void, stream := some st, seq := some n, outOfTurn := false }

/-- OUT_OF_TURN_RESEND (R318): a returned item is sent again once the number before its own is accepted or voided. -/
def State.outOfTurnResend (s : State) (id : Nat) : State :=
  match s.packet id with
  | none => s
  | some p =>
    if p.outOfTurn && s.verdict p != .outOfTurn then
      let s := { s with net := s.net.map fun q => if q.id == id then { q with outOfTurn := false } else q }
      match p.src, p.body with
      | .tile v, .addend a => s.countIssue (vtDie v) a.key.place
      | .tile v, .switchAddend a _ => s.countIssue (vtDie v) a.key.place
      | _, _ => s
    else s

/-- VOID_MARKER (R318): H moves on to the number that is void. -/
def State.voidMarker (s : State) (id : Nat) : State :=
  match s.packet id with
  | none => s
  | some p =>
    if p.body != .void then s
    else
      match s.verdict p with
      | .inTurn => (s.acceptPacket p).dropPacket id
      | .duplicate => s.dropPacket id
      | .outOfTurn => s

/-- OUT_OF_TURN_RESEND. -/
def execOutOfTurnResend (packet : Nat) (s : State) : Host.Outcome State Fault Refusal := .next (s.outOfTurnResend packet)

/-- VOID_MARKER. -/
def execVoidMarker (packet : Nat) (s : State) : Host.Outcome State Fault Refusal := .next (s.voidMarker packet)

end Sys2Proof.Machine
end

