-- ==== Sys2Proof/Machine/AccEvents.lean ====
section
/-! DEFINITION. Accumulates on their way: arrival at a unit, application, refusal, outcome, quota windows, and the
switches' buffers (R219-R224, R227-R230, R365). -/

namespace Sys2Proof.Machine

/-- Switch deliveries name their port above every VT. -/
def switchSource (port : Nat) : Nat := 8192 + port

/-- The node an outcome or a refusal of an addend goes to. -/
def Addend.home (a : Addend) : Node := if 8192 ≤ a.srcVt then .port (a.srcVt - 8192) else .tile a.srcVt

/-- The unit refuses a normal delivery from a source (R221). -/
def Tile.refusesAcc (t : Tile) (src : Nat) : Bool :=
  let accepts := t.quota.toNat % 256
  let qth := t.quota.toNat / 256
  let limit := if qth = 0 ∨ 32 < qth then 32 else qth
  (accepts != 0 && decide (accepts ≤ t.accepted.get src 0)) || decide (limit ≤ t.unitQueue.length)

/-- A unit answers a delivery (R218, R224). -/
def State.accAnswer (s : State) (unit : Node) (a : Addend) (failed : Bool) : State :=
  s.sendFree unit a.home (.accOutcome a failed)

/-- A refused addend goes back with the number it carried (R221). -/
def State.bounceAcc (s : State) (p : Packet) (a : Addend) : State :=
  s.inject { id := 0, src := p.dst, dst := a.home, body := .accBounce a, stream := none, seq := p.seq
             outOfTurn := false }

/-- A delivery at a tile's unit (R221, R223). -/
def State.unitArrival (s : State) (v : Nat) (p : Packet) (a : Addend) : State :=
  let refuse (s : State) : State :=
    ((s.onTile v fun t => { t with accref := t.accref + 1 }).dropPacket p.id).bounceAcc p a
  let b := { p with body := .addend { a with since := s.cycle v } }
  let s := s.capture v (.item p.id)
  if a.flush then
    match (s.tile v).gate with
    | .takes =>
      if 4 ≤ (s.tile v).flushQueue.length then s
      else ((s.onTile v fun t => { t with flushQueue := t.flushQueue ++ [b] }).acceptPacket p).dropPacket p.id
    | _ => s
  else
    match (s.tile v).gate with
    | .waits => s
    | .refuses => refuse s
    | .takes =>
      let s := s.onTile v fun t => t.freshQuota (s.cycle v)
      if (s.tile v).refusesAcc a.srcVt then refuse s
      else
        ((s.onTile v fun t => { t with
          unitQueue := t.unitQueue ++ [b], accok := t.accok + 1
          accepted := t.accepted.put a.srcVt (t.accepted.get a.srcVt 0 + 1) }).acceptPacket p).dropPacket p.id

/-- A delivery at an I/O die (R219): a CXL target is never refused; what another panel's unit decides is open
(notes/assumptions/12.md). -/
def State.ioArrival (s : State) (p : Packet) (a : Addend) : State :=
  let far := match a.key.place.home with | .panel _ => !a.flush | _ => false
  let (n, s) := if far then s.freeBelow 2 else (1, s)
  if n = 0 then (s.dropPacket p.id).bounceAcc p a
  else ({ s with ioUnits := s.ioUnits ++ [p] }.acceptPacket p).dropPacket p.id

/-- Two packets have one number of one stream. -/
def Packet.sameNumber (p q : Packet) : Bool := p.src == q.src && p.dst == q.dst && p.stream == q.stream && p.seq == q.seq

/-- Deliveries that wait at the unit of a node. -/
def State.atUnit (s : State) (n : Node) : List Packet :=
  match n with
  | .tile v => (s.tile v).unitQueue ++ (s.tile v).flushQueue
  | .ioDie _ => s.ioUnits
  | _ => []

/-- A waiting delivery answers to whom its repetition names. -/
def Packet.rejoin (q p : Packet) (a : Addend) : Packet :=
  match q.body with
  | .addend b => if q.sameNumber p then { q with body := .addend { b with id := a.id, hart := a.hart } } else q
  | _ => q

/-- The repetition of a delivery that its unit has accepted (R228, R318): where that is still to be applied, its outcome answers
the repetition too, which a rollback has sent (R322); otherwise it is answered as accepted. -/
def State.repeatedAcc (s : State) (p : Packet) (a : Addend) : State :=
  if (s.atUnit p.dst).any fun q => q.sameNumber p then
    let s := { s with ioUnits := s.ioUnits.map fun q => q.rejoin p a }
    match p.dst with
    | .tile v => s.onTile v fun t => { t with
        unitQueue := t.unitQueue.map fun q => q.rejoin p a, flushQueue := t.flushQueue.map fun q => q.rejoin p a }
    | _ => s
  else s.accAnswer p.dst a false

/-- ACC_DELIVERY_ARRIVAL (R219, R221, R228). -/
def State.accArrival (s : State) (id : Nat) : State :=
  match s.packet id with
  | none => s
  | some p =>
    match p.body with
    | .addend a =>
      if p.outOfTurn then s
      else match s.verdict p with
      | .duplicate => (s.dropPacket id).repeatedAcc p a
      | .outOfTurn => s.returnPacket id
      | .inTurn =>
        match p.dst with
        | .tile v => s.unitArrival v p a
        | .ioDie _ => s.ioArrival p a
        | _ => s
    | _ => s

/-- A tile's own unit as the inbound log names it (R315). -/
def ownUnit : Nat := 65535

/-- The unit can apply a delivery now: its stack serves it (R97), and a slice's log has room for it (R315, R316). -/
def State.accServed (s : State) (source : HbmSource) (p : Place) : Bool :=
  s.hbmAdmits source p && (match p.home with
    | .slice v => !(s.tile v).logFull
    | _ => true)

/-- One delivery applied to its 64-byte target, or failed at a line that cannot be read (R220, R224); ACCFLU counts the flush
deliveries that a tile's unit applies (R223). -/
def State.applyAddend (s : State) (source : HbmSource) (unit : Node) (a : Addend) : State :=
  let p := a.key.place
  let s := (s.joinBatch source p).serveHbm p
  let s := match p.home with
    | .slice v => s.sramFix v p.off 64
    | _ => s
  if s.unreadable p then s.accAnswer unit a true
  else
    let old := bytesV (memBytes s.mem p.key 64)
    let src := if p.home == .slice a.srcVt then ownUnit else a.srcVt
    let s := match unit with
      | .tile v => if a.flush then s.onTile v fun t => { t with accflu := t.accflu + 1 } else s
      | _ => s
    (s.write (some src) p (solid (vBytes (mergeAcc a.key.cls old a.value))) none).accAnswer unit a false

/-- The unit of a tile works: its VT is neither paused nor being rebuilt (R228, R308, R322). -/
def Tile.unitRuns (t : Tile) : Bool :=
  match t.cond with
  | .running => true
  | .drain => true
  | .hold => true
  | _ => false

/-- The delivery a tile's unit applies next: its two queues by turns (R220), the normal one first after reset
(notes/assumptions/3.md). -/
def Tile.nextAddend (t : Tile) : Option (Packet × Tile) :=
  match t.unitTurn, t.unitQueue, t.flushQueue with
  | true, q, p :: ps => some (p, { t with unitQueue := q, flushQueue := ps, unitTurn := false })
  | true, p :: ps, [] => some (p, { t with unitQueue := ps, unitTurn := true })
  | false, p :: ps, _ => some (p, { t with unitQueue := ps, unitTurn := true })
  | false, [], p :: ps => some (p, { t with flushQueue := ps, unitTurn := false })
  | true, [], [] => none
  | false, [], [] => none

/-- ACC_APPLY (R220, R223): a tile's unit by its VT, the I/O dies' from 3,072 on. -/
def State.accApply (s : State) (unit : Nat) : State :=
  if unit < 3072 then
    match (s.tile unit).nextAddend with
    | none => s
    | some (p, t) =>
      match p.body with
      | .addend a =>
        if !(s.tile unit).unitRuns || !s.accServed (.tile unit) a.key.place then s
        else if s.sramStops a.key.place 64 then s.sramStop a.key.place
        else ((s.setTile unit t).applyAddend (.tile unit) (.tile unit) a).latency unit 1 (s.cycle unit - a.since)
      | _ => s.setTile unit t
  else
    match s.ioUnits.find? fun p => p.dst == .ioDie (unit - 3072) with
    | none => s
    | some p =>
      let s := { s with ioUnits := s.ioUnits.filter fun q => q.id != p.id }
      match p.body with
      | .addend a => s.applyAddend (.ioDie (unit - 3072)) p.dst a
      | _ => s

/-! ### Back at the sender -/

/-- A bounced addend merges into the tail, the oldest entry forced out for it if the tail is full (R221, R222). -/
def State.tailMerge (s : State) (v : Nat) (a : Addend) : State :=
  let t := s.tile v
  if t.tail.any fun e => e.key == a.key then
    s.setTile v { t with tail := t.tail.map fun e =>
      if e.key == a.key then { e with value := mergeAcc a.key.cls e.value a.value } else e }
  else
    let s := if 128 ≤ t.tail.length then s.forceOut v none (fun _ => true) 1 else s
    s.onTile v fun t => { t with
      tail := t.tail ++ [{ key := a.key, va := a.va, value := a.value, hart := a.hart.getD (4 * v) }] }

/-- The issuing hart has its outcome (R218). -/
def State.accDone (s : State) (a : Addend) : State :=
  match a.hart with
  | none => s
  | some h => s.onHart h fun x => { x with accs := x.accs.filter (· != a.id) }

/-- The answer to an addend is awaited: one to an item sent before a rollback is not (R322). -/
def State.awaits (s : State) (v : Nat) (a : Addend) : Bool :=
  if a.flush then (s.tile v).flushes.any fun f => f.id == a.id else a.hart.any fun h => (s.hart h).accs.contains a.id

/-- ACC_BOUNCE (R218, R221, R228, R318): the addend's number is voided, as it never goes again in that stream; a switch keeps
a refused buffer (R230). -/
def State.accBounce (s : State) (id : Nat) : State :=
  match s.packet id with
  | none => s
  | some p =>
    match p.body, p.dst with
    | .accBounce a, .tile v =>
      let s := s.capture v (.item id)
      let t := s.tile v
      let full := decide (128 ≤ t.tail.length) && !(t.tail.any fun e => e.key == a.key)
      if t.gate != .takes then s
      else if !s.awaits v a then s.dropPacket id
      else if full && !t.hasRoom 64 then s
      else
        let s := ((s.dropPacket id).logAt v v (.answer p.body)).accDone a
        let s := s.tailMerge v a
        match p.seq with
        | some n => s.sendVoid (.tile v) p.src .refusable n
        | none => s
    | .accBounce a, .port n =>
      let s := s.dropPacket id
      let s := match p.seq with
        | some k => s.sendVoid (.port n) p.src .refusable k
        | none => s
      { s with switch := s.switch.map fun (b : SwitchBuffer) =>
          if b.id == a.id then { b with refused := true, sent := false, since := s.tick } else b }
    | _, _ => s

/-- A target as a fault record names it: a window address or a PA (R224). -/
def State.targetWord (s : State) (p : Place) : Word :=
  match p.home with
  | .slice v => BitVec.ofNat 64 (0xFFFE000000000000 + v * 2 ^ 22 + p.off)
  | .panel n => BitVec.ofNat 64 (n * 2 ^ 43 + p.off)
  | _ => BitVec.ofNat 64 (s.panel * 2 ^ 43 + p.off)

/-- The FAULT record of a failed delivery (R224); a flush that no hart asked for names slot 0 (notes/assumptions/95.md). -/
def State.accFault (s : State) (v : Nat) (a : Addend) : State :=
  let slot := hartSlot (a.hart.getD (4 * v))
  let w := s.targetWord a.key.place
  s.postFault v slot (s.hart (4 * v + slot)).csr.tenant a.key.launch
    [w, 0, 0, 0, w, BitVec.ofNat 64 (v * 2 ^ 20 + slot * 2 ^ 18 + 2 ^ 16 + Cause.memError.code)]

/-- ACC_OUTCOME (R218, R222, R224): the hart or the flush that waits has its outcome; a switch passes it to each sender
whose addend the delivery held (R230). -/
def State.accOutcome (s : State) (id : Nat) : State :=
  match s.packet id with
  | none => s
  | some p =>
    match p.body, p.dst with
    | .accOutcome a failed, .tile v =>
      let s := s.capture v (.item id)
      let t := s.tile v
      if t.gate != .takes then s
      else if !s.awaits v a then s.dropPacket id
      else if failed && !t.hasRoom 64 then s
      else
        let s := (s.dropPacket id).logAt v v (.answer p.body)
        let s := if a.flush then s.onTile v fun t => { t with flushes := t.flushes.filter fun f => f.id != a.id }
          else s.accDone a
        if failed then s.accFault v a else s
    | .accOutcome a failed, .port _ =>
      let s := s.dropPacket id
      match s.switch.find? fun b => b.id == a.id with
      | none => s
      | some b =>
        let s := { s with switch := s.switch.filter fun o => o.id != b.id }
        b.addends.foldl (fun s x => s.accAnswer .switch x failed) s
    | _, _ => s

/-- QUOTA_WINDOW (R221). -/
def State.quotaWindow (s : State) (v : Nat) : State := s.onTile v fun t => t.freshQuota (s.cycle v)

/-! ### Switches (R230) -/

/-- 1 µs of the timebase. -/
def microsecond : Nat := 1050

/-- The repetition of an addend that a switch has accepted: as at a unit. -/
def State.repeatedMerge (s : State) (a : Addend) : State :=
  let same (b : Addend) : Bool :=
    b.srcVt == a.srcVt && b.flush == a.flush && b.key == a.key && b.hart.isNone && (a.flush || b.id == a.id)
  if s.switch.any fun b => b.addends.any same then
    { s with switch := s.switch.map fun (b : SwitchBuffer) =>
        { b with addends := b.addends.map fun x => if same x then { x with id := a.id, hart := a.hart } else x } }
  else s.accAnswer .switch a false

/-- SWITCH_ADDEND (R230, R365): merged into the buffer of its target, key and class; one outside every window fails. While
a delivery of that buffer is on its way, or due with 64 addends, the addend waits. -/
def State.switchArrival (s : State) (id : Nat) : State :=
  match s.packet id with
  | none => s
  | some p =>
    match p.body with
    | .switchAddend a port =>
      if p.outOfTurn then s
      else match s.verdict p with
      | .duplicate => (s.dropPacket id).repeatedMerge a
      | .outOfTurn => s.returnPacket id
      | .inTurn =>
        if port = 255 then ((s.acceptPacket p).dropPacket id).accAnswer .switch a true
        else
          match s.switch.find? fun b => b.key == a.key && b.port == port with
          | some b =>
            if b.sent || (!b.refused && decide (64 ≤ b.addends.length)) then s
            else
              let s := (s.acceptPacket p).dropPacket id
              let b := { b with value := mergeAcc a.key.cls b.value a.value, addends := b.addends ++ [a] }
              { s with switch := s.switch.map fun (o : SwitchBuffer) => if o.id == b.id then b else o }
          | none =>
            let (i, s) := ((s.acceptPacket p).dropPacket id).fresh
            { s with switch := s.switch ++
                [{ id := i, key := a.key, value := a.value, va := a.va, addends := [a], since := s.tick
                   refused := false, sent := false, port := port }] }
    | _ => s

/-- A buffer goes to the home's unit, as a normal or a flush delivery, under the next number of its port's stream. -/
def State.sendBuffer (s : State) (b : SwitchBuffer) (flush : Bool) : State :=
  let s := { s with switch := s.switch.map fun (o : SwitchBuffer) => if o.id == b.id then { o with sent := true, refused := false } else o }
  s.number { id := 0, src := .port b.port, dst := s.placeNode b.key.place
             body := .addend { id := b.id, key := b.key, va := b.va, value := b.value, flush := flush
                               srcVt := switchSource b.port, hart := none, since := 0 }
             stream := none, seq := none, outOfTurn := false } (if flush then .assured else .refusable)

/-- SWITCH_DELIVER (R230): 1 µs after its first addend, or with 64 addends. -/
def State.switchDeliver (s : State) (buffer : Nat) : State :=
  match s.switch.find? fun b => b.id == buffer with
  | none => s
  | some b =>
    if !b.sent && !b.refused && (decide (b.since + microsecond ≤ s.tick) || decide (64 ≤ b.addends.length)) then
      s.sendBuffer b false
    else s

/-- SWITCH_RESEND (R230): a refused buffer goes again after 1 µs as a flush delivery. -/
def State.switchResend (s : State) (buffer : Nat) : State :=
  match s.switch.find? fun b => b.id == buffer with
  | none => s
  | some b => if b.refused && decide (b.since + microsecond ≤ s.tick) then s.sendBuffer b true else s

/-- ACC_DELIVERY_ARRIVAL. -/
def execAccDeliveryArrival (packet : Nat) (s : State) : Answer := .next (s.accArrival packet)
/-- ACC_APPLY. -/
def execAccApply (unit : Nat) (s : State) : Answer := .next (s.accApply unit)
/-- ACC_BOUNCE. -/
def execAccBounce (packet : Nat) (s : State) : Answer := .next (s.accBounce packet)
/-- ACC_OUTCOME. -/
def execAccOutcome (packet : Nat) (s : State) : Answer := .next (s.accOutcome packet)
/-- QUOTA_WINDOW. -/
def execQuotaWindow (vt : Nat) (s : State) : Answer := .next (s.quotaWindow vt)
/-- SWITCH_ADDEND. -/
def execSwitchAddend (packet : Nat) (s : State) : Answer := .next (s.switchArrival packet)
/-- SWITCH_DELIVER. -/
def execSwitchDeliver (buffer : Nat) (s : State) : Answer := .next (s.switchDeliver buffer)
/-- SWITCH_RESEND. -/
def execSwitchResend (buffer : Nat) (s : State) : Answer := .next (s.switchResend buffer)

end Sys2Proof.Machine
end

