-- ==== Sys2Proof/Machine/Engine.lean ====
section
/-! DEFINITION. The ENGINE group: job cards, tensor maps, completion tags, MREQ and MBIND (R94-R96, R115-R118, R123-R125,
R128-R130). -/

namespace Sys2Proof.Machine

/-! ### Card fields (R115, R116) -/

def cardOpc (dw : List Word) : Nat := bits (dw.getD 0 0) 0 8
def cardTag (dw : List Word) : Nat := bits (dw.getD 0 0) 8 6
def cardSe (dw : List Word) : Bool := bit (dw.getD 0 0) 14
def cardSf (dw : List Word) : Bool := bit (dw.getD 0 0) 15
def cardMap (dw : List Word) : Nat := bits (dw.getD 0 0) 16 5
def cardRing (dw : List Word) : Nat := bits (dw.getD 0 0) 21 3
def cardLen (dw : List Word) : Nat := bits (dw.getD 0 0) 32 32
/-- Coordinate i of a TLOAD or TSTORE. -/
def cardCoord (dw : List Word) (i : Nat) : Int := (BitVec.ofNat 16 (bits (dw.getD 3 0) (16 * i) 16)).toInt

/-- The source VA, where the OPC has one. -/
def cardSrc (dw : List Word) : Option Word :=
  match cardOpc dw with
  | 1 => some (dw.getD 1 0)
  | 3 => some (dw.getD 1 0)
  | 5 => some (dw.getD 1 0)
  | _ => none

/-- The destination VA, where the OPC has one. -/
def cardDst (dw : List Word) : Option Word :=
  match cardOpc dw with
  | 1 => some (dw.getD 2 0)
  | 2 => some (dw.getD 2 0)
  | 4 => some (dw.getD 2 0)
  | _ => none

/-- The VT and offset that a slice-window or own-slice address names (R105). -/
def sliceOf (own : Nat) (va : Word) : Option (Nat × Nat) :=
  if va.toNat / 2 ^ 34 = 0xFFFE000000000000 / 2 ^ 34 then some (va.toNat / 2 ^ 22 % 4096, va.toNat % 2 ^ 22)
  else if va.toNat / 2 ^ 22 = 0xFFFF000000000000 / 2 ^ 22 then some (own, va.toNat % 2 ^ 22)
  else none

/-! ### The check of a card (R118) -/

/-- A field or dword that must be zero is not, or SE or SF stands where R116 does not allow it. -/
def cardIllegal (own : Nat) (dw : List Word) : Bool :=
  let d0 := dw.getD 0 0
  let d1 := dw.getD 1 0
  let d2 := dw.getD 2 0
  let d3 := dw.getD 3 0
  let opc := cardOpc dw
  let zero := match opc with
    | 1 => d3 == 0
    | 2 => d1 == 0
    | 3 => d2 == 0
    | 4 => d1 == 0
    | 5 => d2 == 0 && d3 == 0
    | _ => false
  let marks := cardSe dw || cardSf dw
  let inSlice := match cardDst dw with
    | some va => (sliceOf own va).isSome
    | none => false
  !zero || bits d0 24 8 != 0 || (cardRing dw != 0 && opc != 5) || (cardMap dw != 0 && opc != 2 && opc != 3)
    || (marks && !inSlice)

/-- The map entry a TLOAD or TSTORE names does not fit the card (R118). -/
def mapMisfit (dw : List Word) : Option (List Word) → Bool
  | none => true
  | some d => cardLen dw != mapBoxBytes d
      || (List.range 4).any fun i => decide (mapRank d ≤ i) && cardCoord dw i != 0

/-- A RINGFEED's ring is not enabled, not its own, or its length breaks R116. -/
def Tile.ringMisfit (t : Tile) (slot : Nat) (dw : List Word) : Bool :=
  let n := cardRing dw
  let c := entryAt t.ringcfg n 0
  let size := bits c 24 8 * 64
  let len := cardLen dw
  !bit c 39 || t.ringown.toNat / 4 ^ n % 4 != slot || len == 0 || len % size != 0 || decide (bits c 32 7 * size < len)

def cardMisaligned (dw : List Word) : Bool :=
  let src := (cardSrc dw).getD 0
  let dst := (cardDst dw).getD 0
  let len := cardLen dw
  let by_ (w : Word) (n : Nat) : Bool := w.toNat % n != 0
  (match cardOpc dw with
    | 1 => by_ src 16 || by_ dst 16 || len % 16 != 0
    | 2 => by_ dst 64
    | 3 => by_ src 64
    | 4 => by_ dst 16 || len % 16 != 0
    | _ => by_ src 64)
  || ((cardSe dw || cardSf dw) && (by_ dst 128 || len % 128 != 0))

/-- The first failing cause of R118; a slice side of TLOAD or TSTORE outside every slice fails with the range
(notes/assumptions/14.md). An empty range reaches no offset (notes/assumptions/75.md). -/
def State.cardCheck (s : State) (h : Nat) (dw : List Word) : Option Cause :=
  let v := hartVt h
  let t := s.tile v
  let opc := cardOpc dw
  let len := cardLen dw
  let sides := [((cardSrc dw).map fun va => (va, Cause.loadPf)), ((cardDst dw).map fun va => (va, Cause.storePf))].filterMap id
  let ranges := sides.filterMap fun (va, c) => (sliceOf v va).map fun (w, off) => (w, off, c)
  if cardIllegal v dw then some .illegal
  else if (opc = 2 ∨ opc = 3) ∧ mapMisfit dw (t.tmaps.find (cardMap dw)) then some .tmapFault
  else if opc = 5 ∧ t.ringMisfit (hartSlot h) dw then some .ringFault
  else if cardMisaligned dw then some .misalign
  else if ranges.any fun r => !s.inTenant (s.hart h).csr.tenant r.1 then some .tenantViol
  else
    match ranges.find? fun r => decide (len ≠ 0 ∧ sliceBytes < r.2.1 + len) with
    | some (_, _, c) => some c
    | none =>
      if (opc = 2 ∨ opc = 3) ∧ ranges.isEmpty then some (if opc = 2 then .storePf else .loadPf) else none

/-! ### SUBMIT (R117) -/

def Hart.tagUp (x : Hart) (t : Nat) (d : Int) : Hart :=
  { x with tagCount := onAt x.tagCount t fun n => ((n : Int) + d).toNat }

def Hart.tagIdle (x : Hart) (t : Nat) : Bool := entryAt x.tagCount t 0 == 0

/-- The fault record of a card (R128): `done` 0 rejected, 1 failed at access. -/
def State.cardFault (s : State) (h : Nat) (dw : List Word) (at_ : Word) (done : Nat) (c : Cause) (tenant : BitVec 6)
    (launch : BitVec 16) : State :=
  s.postFault (hartVt h) (hartSlot h) tenant launch
    (dw ++ [at_, BitVec.ofNat 64 (hartVt h * 2 ^ 20 + hartSlot h * 2 ^ 18 + done * 2 ^ 16 + c.code)])

/-- A rejected card (R117, R128). -/
def State.rejectCard (s : State) (h : Nat) (dw : List Word) (c : Cause) : State :=
  let t := cardTag dw
  let s := s.onHart h fun x => { x with csr := { x.csr with
    tagerr := setBit x.csr.tagerr t true
    tags := if x.tagIdle t then setBit x.csr.tags t true else x.csr.tags } }
  s.cardFault h dw 0 0 c (s.hart h).csr.tenant (s.hart h).csr.launchid

/-- An accepted card joins the FIFO with what it captures (R117). -/
def State.acceptCard (s : State) (h : Nat) (dw : List Word) : State :=
  let t := cardTag dw
  let id := accId h (s.hart h).seq
  let opc := cardOpc dw
  let map := if opc = 2 ∨ opc = 3 then (s.tile (hartVt h)).tmaps.find (cardMap dw) else none
  s.onHart h fun x =>
    let card : Card := { id := id, hart := h, dw := dw, iset := x.csr.iset, tenant := x.csr.tenant, mode := x.mode, map := map }
    let x := if x.tagIdle t then
        { x with csr := { x.csr with tags := setBit x.csr.tags t false, tagerr := setBit x.csr.tagerr t false } }
      else x
    { x.tagUp t 1 with fifo := x.fifo ++ [card] }

/-- SUBMIT and SUBMIT.B (R117, R123): a release at panel scope towards the card's reads. -/
def State.submit (s : State) (sc : BitVec 3) (d : Option (BitVec 5)) (a : BitVec 5) : Answer :=
  let regs := (List.range 4).map fun j => a + BitVec.ofNat 5 j
  s.run { sc := sc, reads := regs.map .g, writes := (d.map Reg.g).toList, fields := some [.g a], reach := true } fun s =>
    let h := s.cur
    let dw := regs.map fun r => s.self.g r
    let result (s : State) (v : Word) : State := match d with
      | some d => s.postG d v
      | none => s
    s.onTileHart <|
      if 16 ≤ s.self.fifo.length then
        if d.isSome then .done (result s 1) else .wait s
      else if !s.released h 3 then .wait s
      else
        match s.cardCheck h dw with
        | some c => if s.roomItems h 1 then .done (result (s.rejectCard h dw c) 2) else .wait s
        | none => .done (result (s.acceptCard h dw) 0)

/-- SUBMIT (R117). -/
def execSubmit (sc : BitVec 3) (a : BitVec 5) (s : State) : Answer := s.submit sc none a

/-- SUBMIT.B (R117). -/
def execSubmitB (sc : BitVec 3) (d a : BitVec 5) (s : State) : Answer := s.submit sc (some d) a

/-- TMAP (R125). -/
def execTmap (sc : BitVec 3) (a i : BitVec 5) (s : State) : Answer :=
  s.run { sc := sc, reads := [.g a], writes := [], reach := true } fun s =>
    let va := s.self.g a
    s.onTileHart <|
      if va.toNat % 64 ≠ 0 then .trap .misalign va else s.load .load (.tmap i va) none [(va, 64, 0)]

/-! ### Tags (R130) -/

/-- Every tag of a mask is idle. -/
def Hart.allIdle (x : Hart) (m : Word) : Bool := (List.range 64).all fun t => !bit m t || x.tagIdle t

/-- WAITANY (R130, R315): a replay repeats the logged tags once they are complete again (R259, R322). -/
def execWaitany (sc : BitVec 3) (d a : BitVec 5) (s : State) : Answer :=
  s.run { sc := sc, reads := [.g a], writes := [.g d], reach := true } fun s =>
    let x := s.self
    let hit := x.csr.tags &&& x.g a
    if (match s.replayed s.cur with
        | some r => x.csr.tags &&& r != r
        | none => hit == 0 && !x.allIdle (x.g a)) then .wait s
    else
      let r := s.loggedResult s.cur hit
      .done (r.1.postG d r.2)

/-- WAITALL (R130). -/
def execWaitall (sc : BitVec 3) (a : BitVec 5) (s : State) : Answer :=
  s.run { sc := sc, reads := [.g a], writes := [], reach := true } fun s =>
    if s.self.allIdle (s.self.g a) then .done s else .wait s

/-- FFTAG (R130, R315): a replay repeats the logged tag once it is complete again (R259, R322). -/
def execFftag (sc : BitVec 3) (d a : BitVec 5) (s : State) : Answer :=
  s.run { sc := sc, reads := [.g a], writes := [.g d], reach := true } fun s =>
    if (s.replayed s.cur).any fun r => decide (r.toNat < 64) && !bit s.self.csr.tags r.toNat then .wait s
    else
      let r := s.loggedResult s.cur (ctz (s.self.csr.tags &&& s.self.g a))
      .done (r.1.postG d r.2)

/-- CLRTAG (R130). -/
def execClrtag (sc : BitVec 3) (a : BitVec 5) (s : State) : Answer :=
  s.run { sc := sc, reads := [.g a], writes := [], reach := true } fun s =>
    .done (s.onHart s.cur fun x => { x with csr := { x.csr with
      tags := x.csr.tags &&& ~~~(x.g a), tagerr := x.csr.tagerr &&& ~~~(x.g a) } })

/-! ### MREQ and MBIND (R94, R95) -/

def mreqLines (d : Word) : Nat := bits d 22 5 + 1
def mreqOff (d : Word) : Nat := bits d 0 22

/-- The trap of an MREQ's operands that comes before its translation (R94). -/
def mreqTrap (word src d : Word) (bound : Bool) : Option (Cause × Word) :=
  let n := mreqLines d
  if bits d 36 28 ≠ 0 ∨ bound = false then some (.illegal, word)
  else if src.toNat % 128 ≠ 0 ∨ mreqOff d % 128 ≠ 0 ∨ 4096 < src.toNat % 4096 + 128 * n then some (.misalign, src)
  else if sliceBytes < mreqOff d + 128 * n then
    some (.storePf, 0xFFFF000000000000 + BitVec.ofNat 64 (mreqOff d))
  else if 2 ^ 48 ≤ src.toNat then some (.loadPf, src)
  else none

/-- The destination lines become empty at issue (R94). -/
def State.emptyLines (s : State) (v off : Nat) : Nat → State
  | 0 => s
  | n + 1 => ((s.emptyLines v off n).write (some v) (slicePlace v (off + 128 * n)) [] (some false))

/-- An MREQ goes out with its first line's place (R94, R249). -/
def State.issueMreq (s : State) (src d : Word) (b : ReplyTag) (p : Place) : State :=
  let h := s.cur
  let v := hartVt h
  let n := mreqLines d
  let id := accId h s.self.seq
  let l := s.self.csr.launchid
  let places := (List.range n).map fun j => { p with off := p.off + 128 * j, key := p.key + 128 * j }
  let m : Mreq :=
    { id := id, hart := h, cls := b.cls, dest := b.hart.toNat, desc := d, src := src, places := places
      pending := List.range n, firstBad := none, tenant := s.self.csr.tenant, launch := l, since := s.cycle v
      acked := (launchCounter l).isNone }
  let s := s.onHart (v * 4 + b.hart.toNat) fun x => { x with csr := { x.csr with replyres := x.csr.replyres + 1 } }
  let s := if bit d 35 then s.emptyLines v (mreqOff d) n else s
  let s := places.foldl (fun s q => s.countIssue (vtDie v) q) s
  (s.onTile v fun t => { t with mreqs := t.mreqs ++ [m] }).updateLaunch h l 1 (some h) none (some id)

/-- MREQ (R94, R96); a rotation that drains its VT stalls it (R307). -/
def execMreq (sc : BitVec 3) (a b : BitVec 5) (s : State) : Answer :=
  s.run { sc := sc, reads := [.g a, .g b], writes := [], reach := true } fun s =>
    let h := s.cur
    let v := hartVt h
    let src := s.self.g a
    let d := s.self.g b
    let tag := (s.tile v).replyTags.find (bits d 29 6)
    s.onTileHart <|
      match mreqTrap (s.word.zeroExtend 64) src d tag.isSome, tag with
      | some (c, tval), _ => .trap c tval
      | none, none => s.illegal
      | none, some r =>
        match s.locate (s.ctx h) src .load true with
        | (t, .error c) => t.unplaced c src
        | (t, .ok l) =>
          if (s.hart (v * 4 + r.hart.toNat)).freeReplies = 0 ∨ (s.tile v).cond = .drain ∨ !s.roomItems h 1 then .wait s
          else .done (t.issueMreq src d r l.place)

/-- MBIND (R95). -/
def execMbind (sc : BitVec 3) (a b : BitVec 5) (s : State) : Answer :=
  s.run { sc := sc, reads := [.g a, .g b], writes := [], reach := true } fun s =>
    let i := s.self.g a
    let e := s.self.g b
    let cls := bits e 0 8
    s.onTileHart <|
      if bits i 6 58 ≠ 0 ∨ bits e 11 53 ≠ 0 ∨ (bit e 10 ∧ (cls < 0x10 ∨ cls = 0xFF)) then s.illegal
      else
        .done (s.onTile (hartVt s.cur) fun t => { t with
          replyTags := if bit e 10 then t.replyTags.put i.toNat { cls := BitVec.ofNat 8 cls, hart := BitVec.ofNat 2 (bits e 8 2) }
            else t.replyTags.erase i.toNat })

end Sys2Proof.Machine
end

