-- ==== Sys2Proof/Machine/EngineEvents.lean ====
section
/-! DEFINITION. The copy engine at work: admission and edges, starts, line accesses, ring entries, completion; and MREQ lines
(R94, R96, R116, R119-R121, R123, R124, R126-R131, R141). -/

namespace Sys2Proof.Machine

/-! ### Pieces of a card: what one line access does -/

/-- Lines that a range touches. -/
def linesOf (va len : Nat) : Nat := if len = 0 then 0 else (va % 128 + len + 127) / 128

/-- The part of a range that lies in its line j: start and length. -/
def pieceOf (va len j : Nat) : Nat × Nat :=
  let lo := max va (va / 128 * 128 + 128 * j)
  let hi := min (va + len) (va / 128 * 128 + 128 * (j + 1))
  (lo, hi - lo)

/-- Rows of a box: runs along dimension 0. -/
def mapRows (d : List Word) : Nat := (mapBox d 1 + 1) * (mapBox d 2 + 1) * (mapBox d 3 + 1)

/-- Coordinates 1 to 3 of row r of a box at an origin. -/
def rowCoord (d : List Word) (dw : List Word) (r : Nat) : List Int :=
  let b1 := mapBox d 1 + 1
  let b2 := mapBox d 2 + 1
  [cardCoord dw 1 + (r % b1 : Nat), cardCoord dw 2 + (r / b1 % b2 : Nat), cardCoord dw 3 + (r / b1 / b2 : Nat)]

/-- A coordinate of a dimension is in bounds; dimensions at and above the rank always are (R124). -/
def inDim (d : List Word) (i : Nat) (c : Int) : Bool :=
  decide (mapRank d ≤ i) || (decide (0 ≤ c) && decide (c < mapDim d i))

/-- addr(c) of R124. -/
def mapAddr (d : List Word) (c0 : Int) (cs : List Int) : Nat :=
  ((mapBase d : Int) + c0 * mapEsz d + cs.getD 0 0 * mapStride d 1 + cs.getD 1 0 * mapStride d 2
    + cs.getD 2 0 * mapStride d 3).toNat

def rowInBounds (d : List Word) (cs : List Int) : Bool :=
  inDim d 1 (cs.getD 0 0) && inDim d 2 (cs.getD 1 0) && inDim d 3 (cs.getD 2 0)

/-- Pieces per row of a TSTORE, and per entry of a RINGFEED. -/
def rowPieces (d : List Word) : Nat := (mapBox d 0 + 1) * mapEsz d / 128 + 2
def entryPieces (size : Nat) : Nat := size / 128 + 2

def WindowCard.map (w : WindowCard) : List Word := w.card.map.getD []

/-- Bytes of an entry of the card's ring, and where entry i lies (R140). -/
def Tile.ringSize (t : Tile) (n : Nat) : Nat := bits (entryAt t.ringcfg n 0) 24 8 * 64
def Tile.ringEntries (t : Tile) (n : Nat) : Nat := bits (entryAt t.ringcfg n 0) 32 7
def Tile.ringOff (t : Tile) (n i : Nat) : Nat :=
  bits (entryAt t.ringcfg n 0) 12 10 * 4096 + i % max 1 (t.ringEntries n) * t.ringSize n
def Tile.ringHead (t : Tile) (n : Nat) : Nat := bits (entryAt t.ringptr n 0) 0 8
def Tile.ringTail (t : Tile) (n : Nat) : Nat := bits (entryAt t.ringptr n 0) 8 8
/-- Occupancy of a ring (R140). -/
def Tile.ringFill (t : Tile) (n : Nat) : Nat :=
  let e := 2 * max 1 (t.ringEntries n)
  (t.ringTail n + e - t.ringHead n % e) % e

/-- How many pieces a card has. -/
def WindowCard.pieces (w : WindowCard) (t : Tile) : Nat :=
  let dw := w.card.dw
  let len := cardLen dw
  if len = 0 then 0
  else
    match cardOpc dw with
    | 3 => mapRows w.map * rowPieces w.map
    | 5 =>
      let size := max 64 (t.ringSize (cardRing dw))
      len / size * entryPieces size
    | _ => linesOf ((cardDst dw).getD 0).toNat len

/-! ### Footprints and edges (R120, R121) -/

/-- A range of addresses as lines of one number space: paged ones by VA, slices by VT and offset. -/
def lineRange (own : Nat) (va : Word) (len : Nat) : Nat × Nat :=
  let a := match sliceOf own va with
    | some (v, off) => 2 ^ 60 + v * 2 ^ 22 + off
    | none => va.toNat
  if len = 0 then (0, 0) else (a / 128, (a + len + 127) / 128)

/-- The bounding range of a box, none when no element is in bounds (R124). -/
def boxRange (dw d : List Word) : Option (Nat × Nat) :=
  let lo (i : Nat) : Int := max 0 (cardCoord dw i)
  let hi (i : Nat) : Int := min ((mapDim d i : Int) - 1) (cardCoord dw i + mapBox d i)
  let dims := (List.range 4).filter fun i => decide (i < mapRank d)
  if dims.any fun i => decide (hi i < lo i) then none
  else
    let at_ (f : Nat → Int) : Nat := mapAddr d (f 0) ((List.range 3).map fun i => if i + 1 < mapRank d then f (i + 1) else 0)
    some (at_ lo, at_ hi + mapEsz d)

def boxLines (dw d : List Word) : Nat × Nat :=
  match boxRange dw d with
  | some (a, b) => (a / 128, (b + 127) / 128)
  | none => (0, 0)

/-- Read and write footprints in lines (R120). -/
def Tile.footprints (t : Tile) (own : Nat) (c : Card) : (Nat × Nat) × (Nat × Nat) :=
  let dw := c.dw
  let len := cardLen dw
  let src := lineRange own ((cardSrc dw).getD 0) len
  let dst := lineRange own ((cardDst dw).getD 0) len
  let m := c.map.getD []
  match cardOpc dw with
  | 1 => (src, dst)
  | 2 => (boxLines dw m, dst)
  | 3 => (src, boxLines dw m)
  | 4 => ((0, 0), dst)
  | _ =>
    let n := cardRing dw
    let a := 2 ^ 60 + own * 2 ^ 22 + t.ringOff n 0
    (src, (a / 128, (a + t.ringEntries n * t.ringSize n + 127) / 128))

def meets (a b : Nat × Nat) : Bool := decide (a.1 < b.2 ∧ b.1 < a.2)

/-- The later card, of read and write footprint `fy`, gains an edge from the earlier one (R121). -/
def WindowCard.edge (x : WindowCard) (fy : (Nat × Nat) × (Nat × Nat)) : Bool :=
  meets x.foot.2 fy.1 || meets x.foot.1 fy.2 || meets x.foot.2 fy.2

/-- Cards run while the VT does, and those that have started during a hold (R307, R308, R346). -/
def Tile.cardsRun (t : Tile) : Bool :=
  match t.cond with
  | .running => true
  | .drain => true
  | .replay => true
  | .hold => true
  | _ => false

/-- CARD_ADMIT (R119, R307): the head of the next non-empty FIFO enters the window with its edges. -/
def State.cardAdmit (s : State) (v : Nat) : State :=
  let t := s.tile v
  if !(t.cond == .running || t.cond == .replay) || decide (64 ≤ t.window.length) then s
  else
    match ((List.range 4).map fun i => (t.lastAdmit + 1 + i) % 4).find? fun i => !(s.hart (v * 4 + i)).fifo.isEmpty with
    | none => s
    | some i =>
      match (s.hart (v * 4 + i)).fifo with
      | [] => s
      | c :: rest =>
        let foot := t.footprints v c
        let edges := (t.window.filter (·.edge foot)).map (·.card.id)
        let w : WindowCard :=
          { card := c, edges := edges, started := false, marks := [], pending := [], outgoing := [], entries := 0
            fail := none, admitted := s.cycle v, foot := foot }
        (s.onHart (v * 4 + i) fun x => { x with fifo := rest }).setTile v { t with
          window := t.window ++ [w], lastAdmit := i }

def Tile.card (t : Tile) (id : Nat) : Option WindowCard := t.window.find? fun w => w.card.id == id

def State.setCard (s : State) (v : Nat) (w : WindowCard) : State :=
  s.onTile v fun t => { t with window := t.window.map fun o => if o.card.id == w.card.id then w else o }

/-- The ring that a RINGFEED feeds is disabled (R141). -/
def Tile.ringOff_ (t : Tile) (w : WindowCard) : Bool :=
  cardOpc w.card.dw == 5 && !bit (entryAt t.ringcfg (cardRing w.card.dw) 0) 39

/-- A card as a checkpoint of its tile records it: submitted, with its edges and not its progress (R131). What the checkpoint's own
state holds of that progress stands beside it: the entries that a ring's TAIL has, and what has been written into the own slice
(notes/assumptions/33.md). -/
def WindowCard.asSubmitted (w : WindowCard) (t : Tile) : WindowCard :=
  let pieces := ((List.range (w.pieces t)).filter fun j => !w.pending.contains j)
    ++ if cardSe w.card.dw then ((List.range (w.pieces t)).filter fun j => !w.marks.contains j).map (2 ^ 32 + ·) else []
  { w with started := false, marks := [], pending := [], outgoing := [], fail := none, fetched := [], bound := none, entries := 0
           fed := max w.fed w.entries, landed := if w.started then (w.landed ++ pieces).eraseDups else w.landed }

/-- CARD_START (R119, R121): at most 16 are in progress; every card it has an edge from has left the window. A RINGFEED that
has waited for a ring disabled meanwhile fails (R127, R141). -/
def State.cardStart (s : State) (v id : Nat) : State :=
  let t := s.tile v
  match t.card id with
  | none => s
  | some w =>
    let busy := (t.window.filter (·.started)).length
    if w.started || !t.cardsRun || t.cond == .hold || decide (16 ≤ busy)
      || w.edges.any (fun e => (t.card e).isSome) then s
    else
      let n := w.pieces t
      if t.ringOff_ w then s.setCard v { w with started := true, fail := w.fail.orElse fun _ => some (.ringFault, 0) }
      else
        s.setCard v { w with
          started := true, pending := List.range n
          marks := if cardSe w.card.dw then List.range n else [] }

/-! ### Line accesses (R123, R126, R127) -/

/-- The context in which a card translates (R127). -/
def State.cardCtx (s : State) (c : Card) : Ctx :=
  { tenant := c.tenant, mode := c.mode, ptbase := (s.hart c.hart).csr.ptbase, iset := c.iset, vt := hartVt c.hart
    die := hartDie c.hart }

/-- Another agent's access to a place is served: a slice's gate takes it (R308, R316, R322, R346). -/
def State.servesEngine (s : State) (v : Nat) (p : Place) : Bool :=
  match p.home with
  | .slice u => u == v || (s.tile u).gate == .takes
  | _ => true

/-- A card reads `n` bytes of one line, as one request (R252); none yet where the line cannot be served now (R97, R143). -/
def State.cardLine (s : State) (c : Ctx) (va n : Nat) : State × Except (Option (Cause × Word)) (List Byte) :=
  let w := BitVec.ofNat 64 va
  match s.locate c w .load true with
  | (s, .error e) => (s, .error (e.map (·, w)))
  | (s, .ok l) =>
    let p := l.place
    if !s.servesEngine c.vt p || !s.hbmAdmits (.tile c.vt) p then (s, .error none)
    else if s.sramStops p n then (s.sramStop p, .error none)
    else
      let s := (s.countIssue c.die p).serveEngine c.vt p
      let s := match p.home with
        | .slice v => s.sramFix v p.off n
        | _ => s
      if s.unreadable p then (s, .error (some (.memError, w)))
      else
        let found := s.placeBytes p n
        (found.1, .ok found.2)

/-- The source address of element i of a TLOAD's box, none out of bounds (R126). -/
def boxElement (dw d : List Word) (i : Nat) : Option Nat :=
  let b0 := mapBox d 0 + 1
  let c0 : Int := cardCoord dw 0 + (i % b0 : Nat)
  let cs := rowCoord d dw (i / b0)
  if inDim d 0 c0 && rowInBounds d cs then some (mapAddr d c0 cs) else none

/-- The slot of a ring that a RINGFEED fills next (R141): one that TAIL has passed already, where a rollback has restored TAIL
behind that entry (R131). -/
def Tile.feedSlot (t : Tile) (w : WindowCard) (n : Nat) : Nat :=
  let e := 2 * max 1 (t.ringEntries n)
  if w.entries < w.fed then (t.ringTail n + e - (w.fed - w.entries) % e) % e else t.ringTail n

/-- Where piece j of a card reads from and writes to, and its bytes; none for an empty piece. TLOAD gathers and FILL reads
nothing, so their first component means nothing. -/
def Tile.pieceWhere (t : Tile) (w : WindowCard) (j : Nat) : Option (Nat × Nat × Nat) :=
  let dw := w.card.dw
  let len := cardLen dw
  let src := ((cardSrc dw).getD 0).toNat
  let dst := ((cardDst dw).getD 0).toNat
  match cardOpc dw with
  | 1 =>
    let (at_, n) := pieceOf dst len j
    some (src + (at_ - dst), at_, n)
  | 2 =>
    let (at_, n) := pieceOf dst len j
    some (0, at_, n)
  | 3 =>
    let d := w.map
    let r := j / rowPieces d
    let cs := rowCoord d dw r
    let lo := max 0 (cardCoord dw 0)
    let hi := min ((mapDim d 0 : Int) - 1) (cardCoord dw 0 + mapBox d 0)
    if hi < lo ∨ rowInBounds d cs = false then none
    else
      let to_ := mapAddr d lo cs
      let n := ((hi - lo + 1) * mapEsz d).toNat
      let k := j % rowPieces d
      if linesOf to_ n ≤ k then none
      else
        let (at_, m) := pieceOf to_ n k
        let from_ := src + (r * (mapBox d 0 + 1) + (lo - cardCoord dw 0).toNat) * mapEsz d
        some (from_ + (at_ - to_), at_, m)
  | 4 =>
    let (at_, n) := pieceOf dst len j
    some (0, at_, n)
  | _ =>
    let n := cardRing dw
    let size := max 64 (t.ringSize n)
    let e := j / entryPieces size
    let k := j % entryPieces size
    let to_ := 0xFFFF000000000000 + t.ringOff n (t.feedSlot w n)
    if linesOf to_ size ≤ k then none
    else
      let (at_, m) := pieceOf to_ size k
      some (src + e * size + (at_ - to_), at_, m)

/-- The source address of each byte of a piece, none where it has none: FILL's, and TLOAD's out of bounds (R126). -/
def WindowCard.sources (w : WindowCard) (from_ at_ n : Nat) : List (Option Nat) :=
  let dw := w.card.dw
  let off := at_ - ((cardDst dw).getD 0).toNat
  (List.range n).map fun i =>
    match cardOpc dw with
    | 2 =>
      let z := mapEsz w.map
      (boxElement dw w.map ((off + i) / z)).map fun a => a + (off + i) % z
    | 4 => none
    | _ => some (from_ + i)

/-- The bytes of a piece of which nothing has been read: FILL's pattern, and zeros out of bounds (R116, R126). -/
def WindowCard.blank (w : WindowCard) (at_ : Nat) (src : List (Option Nat)) : List (Option Byte) :=
  let dw := w.card.dw
  let pattern := natBytes 8 (dw.getD 3 0).toNat
  src.zipIdx.map fun (a, i) =>
    if cardOpc dw = 4 then some (pattern.getD ((at_ - ((cardDst dw).getD 0).toNat + i) % 8) 0)
    else match a with
      | some _ => none
      | none => some 0

/-- What has come of a piece. -/
def WindowCard.bytesOf (w : WindowCard) (j at_ : Nat) (src : List (Option Nat)) : List (Option Byte) :=
  (w.fetched.find j).getD (w.blank at_ src)

/-- A source address is still to be read: all of them, or once the card has failed those below the address (R127). -/
def WindowCard.below (w : WindowCard) (a : Nat) : Bool := w.bound.all fun b => decide (a < b)

/-- Source lines of a piece that are still to be read, as the lowest address that the piece has in each (R127). -/
def WindowCard.missing (w : WindowCard) (src : List (Option Nat)) (bs : List (Option Byte)) : List Nat :=
  let open_ := (src.zip bs).filterMap fun (a, b) => if b.isNone then a else none
  let lows := (open_.map (· / 128)).eraseDups.filterMap fun l =>
    (open_.filter fun a => a / 128 == l).foldl (fun o a => some (match o with | some b => min a b | none => a)) (none : Option Nat)
  lows.filter w.below

/-- The bytes that a piece takes from the line of an address, from that address on. -/
def spanOf (src : List (Option Nat)) (a : Nat) : Nat :=
  (src.filterMap fun x => x.bind fun b => if b / 128 = a / 128 then some (b + 1 - a) else none).foldl max 0

/-- The bytes of a line read at an address put where the piece has them. -/
def fillBytes (src : List (Option Nat)) (bs : List (Option Byte)) (a : Nat) (xs : List Byte) : List (Option Byte) :=
  (src.zip bs).map fun (x, b) => match x with
    | some y => if a ≤ y then (match xs[y - a]? with | some v => some v | none => b) else b
    | none => b

/-- The lower of two failures. -/
def lowerFail (old : Option (Cause × Word)) (c : Cause) (va : Word) : Option (Cause × Word) :=
  match old with
  | some (c', va') => if va'.toNat ≤ va.toNat then some (c', va') else some (c, va)
  | none => some (c, va)

/-- The card fails at an address that it reads (R127): it still reads the lines below, and writes what it has read. -/
def State.failRead (s : State) (v : Nat) (w : WindowCard) (c : Cause) (va : Word) : State :=
  s.setCard v { w with fail := lowerFail w.fail c va, bound := some (match w.bound with | some b => min b va.toNat | none => va.toNat) }

/-- The card fails at an address that piece j writes (R127): of the others it still writes those below. -/
def State.failWrite (s : State) (v : Nat) (w : WindowCard) (j : Nat) (c : Cause) (va : Word) : State :=
  let t := s.tile v
  s.setCard v { w with
    fail := lowerFail w.fail c va
    pending := w.pending.filter fun k => k != j && (match t.pieceWhere w k with
      | some (_, at_, _) => decide (at_ < va.toNat)
      | none => true) }

/-- A write of the engine (R116, R123): into its own slice at once; elsewhere through the egress hold, a change of a
full/empty bit there as an item of its own behind the line it completes. It answers the numbers of the items that are out,
and nothing when the hold is full; the inbound log has its own (R315). -/
def State.engineWrite (s : State) (v card line : Nat) (p : Place) (data : List (Option Byte)) (fe : Option Bool) (logs : Bool) :
    Option (State × List Nat) :=
  if p.home = .slice v then
    some (s.writeWakes (if logs then some (v, .landing card line p.off data fe) else none) p data fe, [])
  else
    let bit_ := fe.isSome.toNat
    let body := (!data.isEmpty).toNat
    if !(s.tile v).hasRoom (128 * body + 64 * bit_) then none
    else
      let s := if data.isEmpty then s else s.hold v (.cardWrite card line p data none) 128
      let mark := if data.isEmpty then line else 2 ^ 33 + line
      let s := if fe.isSome then s.hold v (.cardWrite card mark p [] fe) 64 else s
      some (s, (if data.isEmpty then [] else [line]) ++ if fe.isSome then [mark] else [])

/-- The tile's inbound events come from its log (R322). -/
def Tile.replaying (t : Tile) : Bool := t.cond == .replay || !t.replayLog.isEmpty

/-- A write of a card into its own slice cannot take effect now: the log is full (R316), or a replay has it from the log (R322);
what was written before the checkpoint stands in no log. -/
def Tile.landingWaits (t : Tile) (w : WindowCard) (j : Nat) : Bool :=
  t.logFull || (t.replaying && !w.landed.contains j)

/-- SE marks destination line j empty before the card's writes (R116). -/
def State.markPiece (s : State) (v : Nat) (w : WindowCard) (j : Nat) : State :=
  let va := (cardDst w.card.dw).getD 0 + BitVec.ofNat 64 (128 * j)
  match sliceOf v va with
  | none => s
  | some (u, off) =>
    if u = v && (s.tile v).landingWaits w (2 ^ 32 + j) then s
    else
    match s.engineWrite v w.card.id (2 ^ 32 + j) (slicePlace u off) [] (some false) (!(s.tile v).replaying) with
    | none => s
    | some (s, out) =>
      s.setCard v { w with marks := w.marks.filter (· != j), outgoing := w.outgoing ++ out }

/-- A ring piece belongs to the entry being filled, and the ring has room for it (R141). -/
def Tile.ringTurn (t : Tile) (w : WindowCard) (j : Nat) : Bool :=
  let n := cardRing w.card.dw
  cardOpc w.card.dw != 5 ||
    (j / entryPieces (max 64 (t.ringSize n)) == w.entries &&
      (decide (w.entries < w.fed) || decide (t.ringFill n < t.ringEntries n)))

/-- A line of a card is charged to the hart that submitted it (R335). -/
def State.chargeCard (s : State) (c : Card) : State :=
  s.onHart c.hart fun x => x.charge (c.mode == .user) Config.energyOfCardLine

/-- What piece j has read is written, or sent off to be; the line is charged. SF marks a line of which all has come (R127). -/
def State.cardPut (s : State) (v : Nat) (w : WindowCard) (j at_ : Nat) (bs : List (Option Byte)) : State :=
  let va := BitVec.ofNat 64 at_
  match s.locate (s.cardCtx w.card) va .store true with
  | (_, .error none) => s
  | (t, .error (some c)) => t.failWrite v w j c va
  | (t, .ok l) =>
    if l.place.home == .slice v && (t.tile v).landingWaits w j then s
    else if l.place.home = .slice v ∧ t.sramStops l.place bs.length = true then t.sramStop l.place
    else
      let sf := if cardSf w.card.dw && bs.all (·.isSome) then some true else none
      match t.engineWrite v w.card.id j l.place bs sf (!(t.tile v).replaying) with
      | none => s
      | some (t, out) =>
        (t.chargeCard w.card).setCard v { w with
          pending := w.pending.filter (· != j), fetched := w.fetched.erase j, outgoing := w.outgoing ++ out }

/-- A RINGFEED's entry that a rollback feeds again has been overwritten since by a later one of the card (R131, R141). -/
def Tile.overfed (t : Tile) (w : WindowCard) : Bool :=
  cardOpc w.card.dw == 5 && decide (w.entries + t.ringEntries (cardRing w.card.dw) < w.fed)

/-- Piece j is read, a source line in each access, and in a later access written (R252); which of its lines comes first is open
(notes/assumptions/62.md). -/
def State.cardPiece (s : State) (v : Nat) (w : WindowCard) (j : Nat) : State :=
  let gone := s.setCard v { w with pending := w.pending.filter (· != j), fetched := w.fetched.erase j }
  match (s.tile v).pieceWhere w j with
  | none => gone
  | some (from_, at_, n) =>
    let src := w.sources from_ at_ n
    let bs := w.bytesOf j at_ src
    match w.missing src bs with
    | [] => if bs.all (·.isNone) || (s.tile v).overfed w then gone else s.cardPut v w j at_ bs
    | a :: as =>
      let (i, s) := s.freeBelow (as.length + 1)
      let a := (a :: as).getD i a
      match s.cardLine (s.cardCtx w.card) a (spanOf src a) with
      | (s, .error none) => s
      | (s, .error (some (c, va))) => s.failRead v w c va
      | (s, .ok xs) => s.setCard v { w with fetched := w.fetched.put j (fillBytes src bs a xs) }

/-- A full-line write by a card replaces a line that cannot be corrected, and it becomes correct (R93). -/
def State.mendLine (s : State) (p : Place) : State := { s with badLines := s.badLines.filter (· != p.line) }

/-- A whole line of data. -/
def wholeLine (data : List (Option Byte)) : Bool := data.length == 128 && data.all (·.isSome)

/-- No extent that the panel has accepted covers a CXL place (R102). -/
def State.noExtent (s : State) (p : Place) : Bool :=
  match p.home with
  | .cxl port => !s.extentCovers port p.off
  | _ => false

/-- No live port reaches another panel's place (R364). -/
def State.noPort (s : State) (p : Place) : Bool :=
  match p.home with
  | .panel n => (s.livePorts n).isEmpty
  | _ => false

/-- The write is performed at its home (R93, R102): a whole line mends a bad one, a part of one is dropped and logged, and
where no extent is the card fails. -/
def State.performLine (s : State) (v : Nat) (c : CardWrite) : State :=
  let slot := (((s.tile v).card c.card).map fun w => hartSlot w.card.hart).getD 0
  let s := s.serveEngine v c.place
  if s.noExtent c.place then
    match (s.tile v).card c.card with
    | some w =>
      let va := (((s.tile v).pieceWhere w c.line).map fun p => p.2.1).getD 0
      s.failWrite v w c.line .memError (BitVec.ofNat 64 va)
    | none => s
  else if wholeLine c.data && !s.noPort c.place then (s.mendLine c.place).writeAndWake (some v) c.place c.data c.fe
  else if s.unwritable c.place then s.dropWrite v slot c.place
  else s.writeAndWake (some v) c.place c.data c.fe

/-- A released write of a card reaches its home (R93, R318, R319). -/
def State.performCardWrite (s : State) (v : Nat) (c : CardWrite) : State :=
  let done (s : State) : State :=
    s.onTile v fun t => { t with
      cardWrites := t.cardWrites.filter (· != c)
      window := t.window.map fun w => if w.card.id == c.card then
        { w with outgoing := w.outgoing.filter (· != c.line) } else w }
  let s := match c.place.home with
    | .slice u => if u = v then s else s.capture u (.line c.card c.line)
    | _ => s
  if !s.servesEngine v c.place || !s.hbmAdmits (.tile v) c.place then s
  else if s.sramStops c.place c.data.length then s.sramStop c.place
  else
    let dst := c.via.getD (s.placeNode c.place)
    match seqVerdict (s.seqHigh dst v .assured) (c.seq.getD 0) with
    | .outOfTurn => s.onTile v fun t => { t with
        cardWrites := t.cardWrites.map fun o => if o == c then { c with returned := true } else o }
    | .duplicate => done (s.recount (4 * v) c.place c.returned)
    | .inTurn => done (((s.recount (4 * v) c.place c.returned).setSeqHigh dst v .assured (c.seq.getD 0)).performLine v c)

/-- CARD_LINE_ACCESS (R119, R123, R126, R127): a mark, a piece, or a released write that reaches its home. -/
def State.cardLineAccess (s : State) (v id j : Nat) : State :=
  let t := s.tile v
  match t.cardWrites.find? fun c => c.card == id && c.line == j with
  | some c => s.performCardWrite v c
  | none =>
    match t.card id with
    | none => s
    | some w =>
      if !w.started || !t.cardsRun then s
      else if 2 ^ 32 ≤ j then (if w.marks.contains (j - 2 ^ 32) then s.markPiece v w (j - 2 ^ 32) else s)
      else if !w.marks.isEmpty || w.fail.any (·.1 == .ringFault) || !w.pending.contains j || !t.ringTurn w j then s
      else s.cardPiece v w j

/-- RINGFEED_ENTRY (R141): every piece of the entry is written, so TAIL moves on, unless it holds the entry already (R131). -/
def State.ringfeedEntry (s : State) (v id : Nat) : State :=
  let t := s.tile v
  match t.card id with
  | none => s
  | some w =>
    let n := cardRing w.card.dw
    let k := entryPieces (max 64 (t.ringSize n))
    if cardOpc w.card.dw != 5 || !w.started || w.fail.isSome || !t.cardsRun
      || decide (cardLen w.card.dw / max 64 (t.ringSize n) ≤ w.entries)
      || w.pending.any (fun j => j / k == w.entries) then s
    else
      let tail := if w.entries < w.fed then t.ringTail n else (t.ringTail n + 1) % (2 * max 1 (t.ringEntries n))
      (s.setTile v { t with ringptr := onAt t.ringptr n fun p => setBits p 8 8 tail }).setCard v
        { w with entries := w.entries + 1 }

/-- Every entry of a RINGFEED has been released. -/
def Tile.entriesDone (t : Tile) (w : WindowCard) : Bool :=
  cardOpc w.card.dw != 5 || cardLen w.card.dw == 0
    || decide (cardLen w.card.dw / max 64 (t.ringSize (cardRing w.card.dw)) ≤ w.entries)

/-- The card's tag after its completion (R129). -/
def Hart.completeTag (x : Hart) (t : Nat) (failed : Bool) : Hart :=
  let x := x.tagUp t (-1)
  { x with csr := { x.csr with
      tagerr := if failed then setBit x.csr.tagerr t true else x.csr.tagerr
      tags := if x.tagIdle t then setBit x.csr.tags t true else x.csr.tags } }

/-- CARD_COMPLETE (R123, R127-R129, R356): all its writes are performed; a failure is recorded, once the record finds room
(R319), under the launch that its hart has then (notes/assumptions/86.md). -/
def State.cardComplete (s : State) (v id : Nat) : State :=
  let t := s.tile v
  match t.card id with
  | none => s
  | some w =>
    let ring := w.fail.any (·.1 == .ringFault)
    if !(w.started || ring) || !t.cardsRun || !w.outgoing.isEmpty
      || !(ring || (w.marks.isEmpty && w.pending.isEmpty && (w.fail.isSome || t.entriesDone w)))
      || (w.fail.isSome && !t.hasRoom 64) then s
    else
      let s := s.setTile v { t with window := t.window.filter fun o => o.card.id != id }
      let h := w.card.hart
      let s := s.onHart h fun x => x.completeTag (cardTag w.card.dw) w.fail.isSome
      let s := s.latency v 0 (s.cycle v - w.admitted)
      match w.fail with
      | some (c, va) => s.cardFault h w.card.dw va 1 c w.card.tenant (s.hart h).csr.launchid
      | none => s

/-! ### MREQ (R94, R249) -/

/-- The completion's second dword (R94). -/
def Mreq.status (m : Mreq) : Word :=
  let bad := match m.firstBad with
    | some j => j * 2 ^ 35 + 2 ^ 34
    | none => 0
  BitVec.ofNat 64 (bad + bits m.desc 29 6 * 2 ^ 28 + mreqOff m.desc)

/-- A message placed in a channel of a hart (R231, R315). -/
def State.place (s : State) (h c : Nat) (m : Msg) (src : Nat) : State :=
  (s.onHart h fun x => { x with
    chans := onAt x.chans c fun l => l ++ [{ msg := m, running := false, moved := none }] }).logAt (hartVt h) src
      (.placed h c m)

/-- The completion is placed in its reserved slot once every line has landed and its counter has answered, and is logged (R315);
a replay has it from the log (R322). -/
def State.finishMreq (s : State) (v id : Nat) : State :=
  match (s.tile v).mreqs.find? fun m => m.id == id with
  | none => s
  | some m =>
    if !m.pending.isEmpty || !m.acked || (s.tile v).logFull || (s.tile v).replaying then s
    else
      let h := v * 4 + m.dest
      let hd := mkHeader m.cls.toNat v (hartSlot m.hart) m.tenant.toNat 1 (bits m.desc 27 2) m.launch.toNat 2 false
      let msg : Msg := { header := hd, payload := [m.src, m.status] }
      let s := s.onTile v fun t => { t with mreqs := t.mreqs.filter fun o => o.id != id }
      (s.onHart h fun x => { x with
        chans := onAt x.chans 3 fun l => l ++ [{ msg := msg, running := false, moved := none }]
        csr := { x.csr with replyres := x.csr.replyres - 1 } }).logAt v v (.completion id h 3 msg)

/-- MREQ_LINE_LAND (R93, R94, R96): one line is read at its home, behind the hart's earlier stores to it; in a later move
it lands in the slice and is logged (R315). A line that cannot be read does not land. A replay has the lines from its log (R322).
Once none is left the completion is due. -/
def State.mreqLineLand (s : State) (v id j : Nat) : State :=
  let t := s.tile v
  match t.mreqs.find? fun m => m.id == id with
  | none => s
  | some m =>
    let set (s : State) (m' : Mreq) : State :=
      s.onTile v fun t => { t with mreqs := t.mreqs.map fun o => if o.id == id then m' else o }
    let gone : Mreq := { m with pending := m.pending.filter (· != j), fetched := m.fetched.erase j }
    let after (s : State) : State :=
      (if gone.pending.isEmpty then s.latency v 2 (s.cycle v - m.since) else s).finishMreq v id
    if !t.cardsRun || t.replaying then s
    else if m.pending.isEmpty then s.finishMreq v id
    else if !m.pending.contains j then s
    else
      match m.places[j]?, m.fetched.find j with
      | none, _ => s
      | some _, some bs =>
        let off := mreqOff m.desc + 128 * j
        let dst := slicePlace v off
        let fe := if bit m.desc 35 then some true else none
        if t.logFull then s
        else if s.sramStops dst 128 then s.sramStop dst
        else after (set (s.writeWakes (some (v, .mreqLine id j off bs fe)) dst (solid bs) fe) gone)
      | some p, none =>
        let behind := (s.hart m.hart).posted.any fun w => decide (accId m.hart w.made < id) && w.place.line == p.line
        if behind || !s.hbmAdmits (.tile v) p then s
        else
          let s := s.serveEngine v p
          if s.unreadable p then
            after (set s { gone with firstBad := some (match m.firstBad with | some b => min b j | none => j) })
          else set s { m with fetched := m.fetched.put j (memBytes s.mem p.key 128) }

/-- CARD_ADMIT. -/
def execCardAdmit (vt : Nat) (s : State) : Answer := .next (s.cardAdmit vt)
/-- CARD_START. -/
def execCardStart (vt card : Nat) (s : State) : Answer := .next (s.cardStart vt card)
/-- CARD_LINE_ACCESS. -/
def execCardLineAccess (vt card line : Nat) (s : State) : Answer := .next (s.cardLineAccess vt card line)
/-- CARD_COMPLETE. -/
def execCardComplete (vt card : Nat) (s : State) : Answer := .next (s.cardComplete vt card)
/-- RINGFEED_ENTRY. -/
def execRingfeedEntry (vt card : Nat) (s : State) : Answer := .next (s.ringfeedEntry vt card)
/-- MREQ_LINE_LAND. -/
def execMreqLineLand (vt mreq line : Nat) (s : State) : Answer := .next (s.mreqLineLand vt mreq line)

end Sys2Proof.Machine
end

