-- ==== Sys2Proof/Machine/Fp.lean ====
section
/-! DEFINITION. Scalar floating point: FP, FMA.S and FMA.D (R31, R44, R45, R63-R73, R156-R160). -/

namespace Sys2Proof.Machine

/-- What an instruction reads from an f register in a format (R31): a value without its upper ones is a NaN. -/
def Fmt.unbox (f : Fmt) (w : Word) : Nat :=
  if w.toNat / 2 ^ f.bits = 2 ^ (64 - f.bits) - 1 then w.toNat % 2 ^ f.bits else f.nan

/-- A narrower value with every upper bit set (R31). -/
def Fmt.box (f : Fmt) (x : Nat) : Word := BitVec.ofNat 64 (x % 2 ^ f.bits + (2 ^ 64 - 2 ^ f.bits))

/-- The format that P selects (R44). -/
def fmtOf (p : BitVec 1) : Fmt := if p = 1 then f64 else f32

/-- Flags are sticky (R37, R68). -/
def State.raiseFlags (s : State) (fl : Flags) : State :=
  s.onHart s.cur fun x => { x with csr := { x.csr with fflags := x.csr.fflags ||| fl } }

/-- The rounding mode read at issue (R69). -/
def State.rm (s : State) : Rm := rmOf s.self.csr.frm

def State.postF (s : State) (d : BitVec 5) (v : Word) : State :=
  s.onHart s.cur fun x => x.post (.f d) (v.zeroExtend 512)

def State.startF (s : State) (d : BitVec 5) (v : Word) : State :=
  s.onHart s.cur fun x => x.start (.f d) v 4

/-- `op fD, fA, fB` of 4 cycles (R156). -/
def State.fp4 (s : State) (sc : BitVec 3) (d : BitVec 5) (srcs : List (BitVec 5)) (p : BitVec 1)
    (f : Fmt → Rm → List Nat → Nat × Flags) : Answer :=
  s.run { sc := sc, reads := srcs.map .f, writes := [.f d], latency := 4, reach := true } fun s =>
    let m := fmtOf p
    let r := f m s.rm (srcs.map fun a => m.unbox (s.self.f a))
    .done ((s.startF d (m.box r.1)).raiseFlags r.2)

/-- `op fD, ...` that is scoreboarded (R156). -/
def State.fpBoard (s : State) (sc : BitVec 3) (d : BitVec 5) (srcs : List (BitVec 5)) (p : BitVec 1)
    (f : Fmt → Rm → List Nat → Nat × Flags) : Answer :=
  s.run { sc := sc, reads := srcs.map .f, writes := [.f d], reach := true } fun s =>
    let m := fmtOf p
    let r := f m s.rm (srcs.map fun a => m.unbox (s.self.f a))
    .done ((s.postF d (m.box r.1)).raiseFlags r.2)

/-- A comparison into a g register (R157): ordered ones signal for every NaN, FEQ for a signalling one. -/
def State.fpCompare (s : State) (sc : BitVec 3) (d a b : BitVec 5) (p : BitVec 1) (quiet : Bool)
    (f : Fp → Fp → Bool) : Answer :=
  s.run { sc := sc, reads := [.f a, .f b], writes := [.g d], reach := true } fun s =>
    let m := fmtOf p
    let x := m.value (m.unbox (s.self.f a))
    let y := m.value (m.unbox (s.self.f b))
    let invalid := if quiet then x.signals || y.signals else x.isNan || y.isNan
    .done ((s.postG d (truth (f x y))).raiseFlags (if invalid then flInvalid else 0))

/-- The sign injections (R157): the magnitude of a, a sign from both. -/
def State.fpSign (s : State) (sc : BitVec 3) (d a b : BitVec 5) (p : BitVec 1) (f : Bool → Bool → Bool) : Answer :=
  s.run { sc := sc, reads := [.f a, .f b], writes := [.f d] } fun s =>
    let m := fmtOf p
    let x := m.unbox (s.self.f a)
    let y := m.unbox (s.self.f b)
    let sign := f (decide (m.sign ≤ x)) (decide (m.sign ≤ y))
    .done (s.postF d (m.box (x % m.sign + sign.toNat * m.sign)))

/-- FMIN and FMAX (R73, R157). -/
def fpMinMax (wantMax : Bool) (m : Fmt) (l : List Nat) : Nat × Flags :=
  let x := l.getD 0 0
  let y := l.getD 1 0
  (m.minMax wantMax x y, sigFlags [m.value x, m.value y])

/-- The class code and sign of R159. -/
def Fmt.classOf (f : Fmt) (x : Nat) : Word :=
  let sign := (decide (f.sign ≤ x)).toNat * 128
  let cls := match f.value x with
    | .nan true => 6
    | .nan false => 5
    | .inf _ => 4
    | .fin _ m _ => if m = 0 then 1 else if m < 2 ^ f.fbits then 2 else 3
  BitVec.ofNat 64 (sign + cls)

/-- The forms of FCVT (R44, R158): a source in f or g, a destination in f or g. -/
inductive CvtForm where
  | float (src dst : Fmt)
  | fromInt (signed wide : Bool) (dst : Fmt)
  | toInt (src : Fmt) (signed wide : Bool)
  deriving DecidableEq, Repr

def cvtForm (c : Nat) : Option CvtForm :=
  match c with
  | 0x00 => some (.float f64 f32)
  | 0x01 => some (.float f32 f64)
  | 0x02 => some (.fromInt true false f32)
  | 0x03 => some (.fromInt true true f32)
  | 0x04 => some (.fromInt false false f32)
  | 0x05 => some (.fromInt false true f32)
  | 0x06 => some (.fromInt true false f64)
  | 0x07 => some (.fromInt true true f64)
  | 0x08 => some (.fromInt false false f64)
  | 0x09 => some (.fromInt false true f64)
  | 0x0A => some (.toInt f32 true false)
  | 0x0B => some (.toInt f32 true true)
  | 0x0C => some (.toInt f32 false false)
  | 0x0D => some (.toInt f32 false true)
  | 0x0E => some (.toInt f64 true false)
  | 0x0F => some (.toInt f64 true true)
  | 0x10 => some (.toInt f64 false false)
  | 0x11 => some (.toInt f64 false true)
  | 0x12 => some (.float f32 f16)
  | 0x13 => some (.float f16 f32)
  | 0x14 => some (.float f32 bf16)
  | 0x15 => some (.float bf16 f32)
  | _ => none

/-- The integer in a g register that a conversion reads (R158). -/
def cvtSource (signed wide : Bool) (w : Word) : Int :=
  if wide then (if signed then w.toInt else w.toNat)
  else if signed then (w.truncate 32 : Word32).toInt else (w.truncate 32 : Word32).toNat

/-- What a conversion to an integer writes (R158): a 32-bit result extended by its signedness. -/
def cvtResult (signed wide : Bool) (x : Int) : Word :=
  if wide then BitVec.ofInt 64 x
  else if signed then (BitVec.ofInt 32 x).signExtend 64 else (BitVec.ofInt 32 x).zeroExtend 64

/-- FCVT (R44, R158). -/
def execFcvt (sc : BitVec 3) (d a c : BitVec 5) (s : State) : Answer :=
  match cvtForm c.toNat with
  | none => s.run { sc := sc, reads := [], writes := [] } fun s => s.illegal
  | some (.float src dst) =>
    s.run { sc := sc, reads := [.f a], writes := [.f d], reach := true } fun s =>
      let r := convertFp src dst s.rm (src.unbox (s.self.f a))
      .done ((s.postF d (dst.box r.1)).raiseFlags r.2)
  | some (.fromInt signed wide dst) =>
    s.run { sc := sc, reads := [.g a], writes := [.f d], reach := true } fun s =>
      let r := dst.round s.rm (Fp.ofInt (cvtSource signed wide (s.self.g a)))
      .done ((s.postF d (dst.box r.1)).raiseFlags r.2)
  | some (.toInt src signed wide) =>
    s.run { sc := sc, reads := [.f a], writes := [.g d], reach := true } fun s =>
      let range := intRange signed (if wide then 64 else 32)
      let r := (src.value (src.unbox (s.self.f a))).toInt s.rm range.1 range.2
      .done ((s.postG d (cvtResult signed wide r.1)).raiseFlags r.2)

/-- FCLASS (R159). -/
def execFclass (sc : BitVec 3) (d a : BitVec 5) (p : BitVec 1) (s : State) : Answer :=
  s.run { sc := sc, reads := [.f a], writes := [.g d] } fun s =>
    .done (s.postG d ((fmtOf p).classOf ((fmtOf p).unbox (s.self.f a))))

/-- FMVG (R157): bits as they stand. -/
def execFmvg (sc : BitVec 3) (d a : BitVec 5) (p : BitVec 1) (s : State) : Answer :=
  s.run { sc := sc, reads := [.f a], writes := [.g d] } fun s =>
    .done (s.postG d (if p = 1 then s.self.f a else sext (s.self.f a) 32))

/-- FMVF (R157): bits as they stand. -/
def execFmvf (sc : BitVec 3) (d a : BitVec 5) (p : BitVec 1) (s : State) : Answer :=
  s.run { sc := sc, reads := [.g a], writes := [.f d] } fun s =>
    .done (s.postF d (if p = 1 then s.self.g a else zext (s.self.g a) 32 ||| 0xFFFFFFFF00000000))

/-- FADD (R157). -/
def execFadd (sc : BitVec 3) (d a b : BitVec 5) (p : BitVec 1) (s : State) : Answer :=
  s.fp4 sc d [a, b] p fun m rm l => m.add rm (l.getD 0 0) (l.getD 1 0)

/-- FSUB (R157). -/
def execFsub (sc : BitVec 3) (d a b : BitVec 5) (p : BitVec 1) (s : State) : Answer :=
  s.fp4 sc d [a, b] p fun m rm l => m.sub rm (l.getD 0 0) (l.getD 1 0)

/-- FMUL (R157). -/
def execFmul (sc : BitVec 3) (d a b : BitVec 5) (p : BitVec 1) (s : State) : Answer :=
  s.fp4 sc d [a, b] p fun m rm l => m.mul rm (l.getD 0 0) (l.getD 1 0)

/-- FDIV (R157). -/
def execFdiv (sc : BitVec 3) (d a b : BitVec 5) (p : BitVec 1) (s : State) : Answer :=
  s.fpBoard sc d [a, b] p fun m rm l => m.div rm (l.getD 0 0) (l.getD 1 0)

/-- FSQRT (R157). -/
def execFsqrt (sc : BitVec 3) (d a : BitVec 5) (p : BitVec 1) (s : State) : Answer :=
  s.fpBoard sc d [a] p fun m rm l => m.sqrt rm (l.getD 0 0)

/-- FMIN (R73, R157). -/
def execFmin (sc : BitVec 3) (d a b : BitVec 5) (p : BitVec 1) (s : State) : Answer :=
  s.fpBoard sc d [a, b] p fun m _ l => fpMinMax false m l

/-- FMAX (R73, R157). -/
def execFmax (sc : BitVec 3) (d a b : BitVec 5) (p : BitVec 1) (s : State) : Answer :=
  s.fpBoard sc d [a, b] p fun m _ l => fpMinMax true m l

/-- FSGNCPY (R157). -/
def execFsgncpy (sc : BitVec 3) (d a b : BitVec 5) (p : BitVec 1) (s : State) : Answer :=
  s.fpSign sc d a b p fun _ b => b

/-- FSGNNEG (R157). -/
def execFsgnneg (sc : BitVec 3) (d a b : BitVec 5) (p : BitVec 1) (s : State) : Answer :=
  s.fpSign sc d a b p fun _ b => !b

/-- FSGNXOR (R157). -/
def execFsgnxor (sc : BitVec 3) (d a b : BitVec 5) (p : BitVec 1) (s : State) : Answer :=
  s.fpSign sc d a b p fun a b => a != b

/-- FEQ (R73, R157). -/
def execFeq (sc : BitVec 3) (d a b : BitVec 5) (p : BitVec 1) (s : State) : Answer :=
  s.fpCompare sc d a b p true Fp.eq

/-- FLT (R73, R157). -/
def execFlt (sc : BitVec 3) (d a b : BitVec 5) (p : BitVec 1) (s : State) : Answer :=
  s.fpCompare sc d a b p false Fp.lt

/-- FLE (R73, R157). -/
def execFle (sc : BitVec 3) (d a b : BitVec 5) (p : BitVec 1) (s : State) : Answer :=
  s.fpCompare sc d a b p false Fp.le

/-! ### The fused forms (R160) -/

def State.fused (s : State) (sc : BitVec 3) (d a b c : BitVec 5) (p : BitVec 1) (negProduct negAddend : Bool) : Answer :=
  s.fp4 sc d [a, b, c] p fun m rm l => m.fma rm negProduct negAddend (l.getD 0 0) (l.getD 1 0) (l.getD 2 0)

/-- FMA.S (R160). -/
def execFmaS (sc : BitVec 3) (d a b c : BitVec 5) (s : State) : Answer :=
  s.fused sc d a b c 0 false false

/-- FMS.S (R160). -/
def execFmsS (sc : BitVec 3) (d a b c : BitVec 5) (s : State) : Answer :=
  s.fused sc d a b c 0 false true

/-- FNMA.S (R160). -/
def execFnmaS (sc : BitVec 3) (d a b c : BitVec 5) (s : State) : Answer :=
  s.fused sc d a b c 0 true true

/-- FNMS.S (R160). -/
def execFnmsS (sc : BitVec 3) (d a b c : BitVec 5) (s : State) : Answer :=
  s.fused sc d a b c 0 true false

/-- FMA.D (R160). -/
def execFmaD (sc : BitVec 3) (d a b c : BitVec 5) (s : State) : Answer :=
  s.fused sc d a b c 1 false false

/-- FMS.D (R160). -/
def execFmsD (sc : BitVec 3) (d a b c : BitVec 5) (s : State) : Answer :=
  s.fused sc d a b c 1 false true

/-- FNMA.D (R160). -/
def execFnmaD (sc : BitVec 3) (d a b c : BitVec 5) (s : State) : Answer :=
  s.fused sc d a b c 1 true true

/-- FNMS.D (R160). -/
def execFnmsD (sc : BitVec 3) (d a b c : BitVec 5) (s : State) : Answer :=
  s.fused sc d a b c 1 true false

end Sys2Proof.Machine
end

