-- ==== Sys2Proof/Machine/Lease.lean ====
section
/-! DEFINITION. The lease instructions of the matrix array, its slot boundaries and grants (R190-R193). -/

namespace Sys2Proof.Machine

/-- MLEASE (R192). -/
def execMlease (sc : BitVec 3) (s : State) : Answer :=
  s.run { sc := sc, reads := [], writes := [], reach := true } fun s =>
    s.onTileHart <|
      let h := s.cur
      let v := hartVt h
      let s := s.keepSlot v
      if s.self.leaseEnding then .wait s
      else if s.self.lease = .held then .done s
      else
        let s := s.onHart h fun x => { x with lease := .req }
        let s := if s.prompt then s.grantLease v else s
        if s.self.lease = .held then .done s else .wait s

/-- MLEASE.B (R192). -/
def execMleaseB (sc : BitVec 3) (d : BitVec 5) (s : State) : Answer :=
  s.run { sc := sc, reads := [], writes := [.g d], reach := true } fun s =>
    s.onTileHart <|
      let h := s.cur
      let v := hartVt h
      let s := s.keepSlot v
      if s.self.lease = .held ∧ s.self.leaseEnding = false then .done (s.postG d 0)
      else if s.leaseHolder v = none ∧ (s.leasePick v fun o => o == h || (s.hart o).lease == .req) = some h then
        .done ((s.giveLease v h).postG d 0)
      else .done (s.postG d 1)

/-- MREL (R192). -/
def execMrel (sc : BitVec 3) (s : State) : Answer :=
  s.run { sc := sc, reads := [], writes := [], reach := true } fun s =>
    .done (s.onHart s.cur fun x => { x with lease := .none, leaseEnding := false })

/-- SLOT_BOUNDARY (R190, R191). -/
def execSlotBoundary (vt : Nat) (s : State) : Answer := .next (s.keepSlot vt)

/-- LEASE_GRANT (R191). -/
def execLeaseGrant (vt : Nat) (s : State) : Answer := .next ((s.keepSlot vt).grantLease vt)

end Sys2Proof.Machine
end

