-- ==== Sys2Proof/Machine/Message.lean ====
section
/-! DEFINITION. The MSG group: SEND, SPAWN, the ends of tasks, MSGPEEK (R16, R235, R237-R245, R248, R361). -/

namespace Sys2Proof.Machine

/-! ### Operand checks (R239) -/

/-- The message header as the panel completes it (R239). -/
def Hart.header (x : Hart) (h : Nat) (hd : Word) (re : Bool) : Word :=
  let tenant := if x.mode = .firmware then hdrTenant hd else x.csr.tenant
  let launch := if x.mode = .user then x.csr.launchid else hdrLaunch hd
  let vt := if isSup h then 0xF00 + hartDie h else hartVt h
  mkHeader (hdrClass hd) vt (hartSlot h) tenant.toNat (hdrVnet hd) (bits hd 30 2) launch.toNat (hdrLen hd) re

/-- The VT of a destination word passes R16 for a message (R239), or is a supervisor's number exempt from it (R361). -/
def State.destAllowed (s : State) (h : Nat) (vnet v : Nat) (tenant : BitVec 6) : Bool :=
  let x := s.hart h
  if vnet = 2 ∧ x.mode ≠ .user ∧ isSupVt v then true
  else s.inTenant tenant v

/-- The checks of R239 in order: the trap, or none. -/
def State.sendTrap (s : State) (h : Nat) (w hd : Word) (re spawn : Bool) : Option (Cause × Word) :=
  let x := s.hart h
  let word := s.word.zeroExtend 64
  let vnet := hdrVnet hd
  let re := !spawn && (re || hdrRe hd)
  if bits w 16 48 ≠ 0 ∨ bits hd 52 12 ≠ 0 ∨ vnet = 3 then some (.illegal, word)
  else if x.mode = .user ∧ (vnet = 2 ∨ hdrClass hd < 0x10) then some (.priv, word)
  else if vnet = 1 ∧ (destChan w ≠ 3 ∨ re) then some (.illegal, word)
  else if vnet = 0 ∧ destChan w = 3 then some (.illegal, word)
  else if spawn ∧ (vnet ≠ 0 ∨ hdrClass hd = 0xFF) then some (.illegal, word)
  else if !s.destAllowed h vnet (destVt w) (hdrTenant (x.header h hd re)) then some (.tenantViol, w)
  else none

/-- The payload registers g4 to g[3 + LEN]. -/
def payloadRegs (len : Nat) : List Reg := (List.range len).map fun j => .g (BitVec.ofNat 5 (4 + j))

def Hart.payload (x : Hart) (len : Nat) : List Word := (List.range len).map fun j => x.g (BitVec.ofNat 5 (4 + j))

/-! ### SEND (R240) -/

/-- A SEND whose operands have passed R239, with a free place in the send queue. -/
def State.sendGo (s : State) (d : BitVec 5) (busy fromMem : Bool) (w hd : Word) : Act :=
  let h := s.cur
  let x := s.self
  let len := hdrLen hd
  let at_ := x.g 4
  if fromMem && at_.toNat % 8 != 0 then .trap .misalign at_
  else if !s.released h 3 then .wait s
  else if fromMem && len != 0 then
    s.load .load (.payload (if busy then some d else none) w hd) none
      ((List.range len).map fun i => (at_ + BitVec.ofNat 64 (8 * i), 8, 8 * i))
  else if (hdrRe hd && x.freeReplies == 0) || !s.roomItems h 2 then .wait s
  else
    let s := if busy then s.postG d 0 else s
    .done (s.queueSend h x.seq w { header := hd, payload := x.payload len } false)

/-- SEND (R239, R240): `r` .r, `u` .b, `p` .p. -/
def execSend (sc : BitVec 3) (d a b : BitVec 5) (r u p : BitVec 1) (s : State) : Answer :=
  let busy := u == 1
  let len := hdrLen (s.self.g b)
  s.run { sc := sc, reads := [.g a, .g b] ++ (if p = 1 then [.g 4] else payloadRegs len)
          writes := if busy then [.g d] else [], fields := some [.g a, .g b], reach := true } fun s =>
    let h := s.cur
    let w := s.self.g a
    let hd := s.self.g b
    match s.sendTrap h w hd (r == 1) false with
    | some (c, tval) => .trap c tval
    | none =>
      if 16 ≤ s.self.sendq.length then
        if busy then .done (s.postG d 1) else .trap .sendqFull w
      else s.sendGo d busy (p == 1) w (s.self.header h hd (r == 1 || hdrRe hd))

/-! ### SPAWN (R242) -/

/-- The latch of the SPAWN that ends is given up for the one that it had put aside. -/
def Hart.dropLatch (x : Hart) : Hart :=
  { x with spawn := x.spawnOuter.headD { armed := false, answered := false, accepted := false, retryAt := 0 }
           spawnOuter := x.spawnOuter.drop 1 }

/-- The child runs in the spawner: g3, the link, the depth and the PC (R242). -/
def State.runChild (s : State) (hd : Word) : Act :=
  let h := s.cur
  match s.handlerEntry h s.self.csr.tenant (hdrClass hd) with
  | (s, none) => .wait s
  | (s, some (va, e)) =>
    if (handlerPc e).isNone && !s.parkRoom h .fetchFault then .wait s
    else
    let s := s.onHart h fun x =>
      let x := x.drain
      let link := x.pc + 4
      { ((x.setG 3 hd).setG 1 link).dropLatch with csr := { x.csr with inld := x.csr.inld + 1 } }
    match handlerPc e with
    | some pc => .jump s pc
    | none => .leave ((s.onHart h fun x => { x with pc := 0 }).takeTrap h .fetchFault va 0)

/-- The latch is given up and the next instruction follows. -/
def State.spawnDone (s : State) (h : Nat) : State := s.onHart h Hart.dropLatch

/-- The latch of the SPAWN at the hart's PC, its message in the send queue under the instruction's number. -/
def SpawnLatch.arm (x : Hart) : SpawnLatch :=
  { armed := true, answered := false, accepted := false, retryAt := 0, pc := x.pc, entry := x.seq }

/-- The latch of the SPAWN at the hart's PC is the one in hand, if it was put aside (notes/assumptions/85.md). -/
def Hart.takeLatch (x : Hart) : Hart :=
  if x.spawn.armed && x.spawn.pc == x.pc then x
  else
    match x.spawnOuter.find? fun l => l.armed && l.pc == x.pc with
    | some l => { x with
        spawn := l, spawnOuter := (if x.spawn.armed then [x.spawn] else []) ++ x.spawnOuter.filter (· != l) }
    | none => x

/-- A SPAWN arms the latch; an armed one of another SPAWN is put aside. -/
def Hart.armLatch (x : Hart) : Hart :=
  { x with spawn := SpawnLatch.arm x, spawnOuter := (if x.spawn.armed then [x.spawn] else []) ++ x.spawnOuter }

/-- The message goes out again, its counter already raised (R242). -/
def State.spawnAgain (s : State) (h : Nat) (w : Word) (m : Msg) : State :=
  let e : SendEntry := { id := (s.hart h).seq, dest := w, msg := m, acked := true, state := .queued, refusals := 0, seq := none, spawn := true }
  (s.onHart h fun x => { x with
    sendq := x.sendq ++ [e], spawn := SpawnLatch.arm x }).pumpSends h 16

/-- What a SPAWN does with its answer (R242). -/
def State.spawnAnswered (s : State) (w : Word) (m : Msg) : Act :=
  let h := s.cur
  let x := s.self
  let l := hdrLaunch m.header
  if x.spawn.accepted then .done (s.spawnDone h)
  else if s.launchMarked l then
    if s.roomItems h 1 then .done ((s.spawnDone h).updateLaunch h l (-1) (some h) none none) else .wait s
  else if x.csr.inld = 255 then
    if x.spawn.retryAt = 0 then
      .wait (s.onHart h fun x => { x with
        spawn := { x.spawn with retryAt := s.cycle (hartVt h) + x.csr.retrygap.toNat } })
    else if s.cycle (hartVt h) < x.spawn.retryAt ∨ 16 ≤ x.sendq.length ∨ !s.roomItems h 1 then .wait s
    else .wait (s.spawnAgain h w m)
  else if !x.board.isEmpty then .wait s
  else s.runChild m.header

/-- SPAWN (R242). -/
def execSpawn (sc : BitVec 3) (a b : BitVec 5) (s : State) : Answer :=
  let len := hdrLen (s.self.g b)
  s.run { sc := sc, reads := [.g a, .g b] ++ payloadRegs len, writes := [], fields := some [.g a, .g b]
          reach := true } fun s =>
    let h := s.cur
    let s := s.onHart h Hart.takeLatch
    let x := s.self
    let w := x.g a
    let hd := x.g b
    match s.sendTrap h w hd false true with
    | some (c, tval) => .trap c tval
    | none =>
      let m : Msg := { header := x.header h hd false, payload := x.payload len }
      if x.spawn.armed && x.spawn.pc == x.pc then
        if x.spawn.answered then s.spawnAnswered w m else .wait s
      else if 16 ≤ x.sendq.length ∨ !s.released h 3 ∨ !s.roomItems h 2 then .wait s
      else
        .wait ((s.onHart h Hart.armLatch).queueSend h x.seq w m true)

/-! ### The end of a task (R243, R244) -/

/-- The lease is released (R192, R193). -/
def Hart.dropLease (x : Hart) : Hart := { x with lease := .none, leaseEnding := false }

/-- TEND and TEND.X (R243); a supervisor hart ends like any other, and nothing is dispatched to it (notes/assumptions/61.md). -/
def State.tend (s : State) (sc : BitVec 3) (all : Bool) : Answer :=
  let inner := s.self.csr.inld != 0 && !all
  s.run { sc := sc, reads := if inner then [.g 1] else [], writes := [], fields := some [], reach := true } fun s =>
    let h := s.cur
    let x := s.self
    let l := x.csr.launchid
    match s.taskWaits h (!inner) with
    | some t => .wait t
    | none =>
      let k : Int := if all then x.csr.inld.toNat + 1 else 1
      let s := (s.onHart h Hart.dropLease).updateLaunch h l (-k) (some h) none none
      if inner then
        .jump (s.onHart h fun x => { x with csr := { x.csr with inld := x.csr.inld - 1 } }) (x.g 1 &&& ~~~(3#64))
      else
        let s := if all then
            (s.onHart h fun x => { x with csr := { x.csr with inld := 0 } }).cancelLaunch h l
          else s
        .leave (s.freeTask h)

/-- TEND (R243). -/
def execTend (sc : BitVec 3) (s : State) : Answer := s.tend sc false

/-- TEND.X (R243). -/
def execTendX (sc : BitVec 3) (s : State) : Answer := s.tend sc true

/-- The task's own slot becomes a message at the tail of its channel (R244). -/
def Hart.requeue (x : Hart) (cls : Nat) (payload : List Word) : Hart :=
  match x.task with
  | none => x
  | some t =>
    { x with chans := onAt x.chans t.chan fun c =>
        let own := (c.filter (·.running)).map fun m =>
          let hd := setBits (setBits m.msg.header 0 8 cls) 48 3 7
          ({ msg := { header := hd, payload := payload }, running := false, moved := none } : Slot)
        c.filter (fun m => !m.running) ++ own }

/-- TYIELD (R244). -/
def execTyield (sc : BitVec 3) (s : State) : Answer :=
  s.run { sc := sc, reads := (.g 3) :: payloadRegs 7, writes := [], fields := some [], reach := true } fun s =>
    let h := s.cur
    let x := s.self
    let c := bits (x.g 3) 0 8
    if x.csr.inld ≠ 0 ∨ c = 0xFF then s.illegal
    else if x.mode = .user ∧ c < 0x10 then .trap .priv (s.word.zeroExtend 64)
    else
      match s.taskWaits h true with
      | some t => .wait t
      | none => .leave ((s.onHart h fun x => x.dropLease.requeue c (x.payload 7)).freeTask h)

/-! ### MSGPEEK (R245) -/

def Hart.peek (x : Hart) (c : Nat) : Word :=
  let waiting := (entryAt x.chans c []).filter fun m => !m.running
  let cls := match waiting with
    | m :: _ => hdrClass m.msg.header
    | [] => 0
  BitVec.ofNat 64 (cls * 256 + waiting.length % 32)

/-- MSGPEEK (R245). -/
def execMsgpeek (sc : BitVec 3) (d a : BitVec 5) (s : State) : Answer :=
  s.run { sc := sc, reads := [.g a], writes := [.g d] } fun s =>
    let c := s.self.g a
    if 3 < c.toNat then s.illegal else .done (s.postG d (s.self.peek c.toNat))

end Sys2Proof.Machine
end

