-- ==== Sys2Proof/Machine/Matrix.lean ====
section
/-! DEFINITION. Issue of matrix commands: the MMA forms, bank control, RPOP and RSTAT (R188, R189, R191, R194, R196, R197,
R202, R203, R205, R211). -/

namespace Sys2Proof.Machine

/-! ### The array queue (R189) -/

/-- A place of the queue is free for the hart, and the tile does not stop for another's checkpoint (R301). -/
def State.arrayPlace (s : State) (h : Nat) : Bool :=
  let t := s.tile (hartVt h)
  decide (t.queue.length < 16 ∧ (t.queue.filter fun c => c.hart == h).length < 8)
    && !(t.ckpting.any fun c => !c.committed && c.by_ != some h)

/-- A command enters the queue under an identifier of its own. -/
def State.enqueueArray (s : State) (h : Nat) (op : ArrayOp) (snap : Option Snapshot) : State :=
  let x := s.hart h
  let (id, s) := s.fresh
  let c : ArrayCmd := { id := id, hart := h, op := op, seq := x.seq, issued := s.cycle (hartVt h), user := x.mode == .user
                        snap := snap }
  s.onTile (hartVt h) fun t => { t with queue := t.queue ++ [c] }

/-- The lease check, the wait for the lease and a place, the count, and the queueing that `enter` does (R191, R197). While a
preempted lease waits for its running command the command waits too (R193, notes/assumptions/94.md). -/
def State.leaseCommand (s : State) (enter : State → State) : Act :=
  let h := s.cur
  let s := s.keepSlot (hartVt h)
  let x := s.self
  if x.leaseEnding then .wait s
  else if x.lease = .none then .trap .leaseFault 0
  else if x.lease = .held ∧ s.arrayPlace h then .done (enter (s.countLease h))
  else .wait s

/-- The bank named is not the hart's own (R35, R188); none is a supervisor's (log entry 61). -/
def otherBank (h : Nat) (n : BitVec 2) : Bool := isSup h || n.toNat != hartSlot h

/-- In U mode the bank must belong to the context (R197, R202, R211). -/
def Hart.bankGone (x : Hart) : Bool := x.mode == .user && !x.accValid

/-! ### MMA (R194, R196, R197) -/

def MmaForm.code : MmaForm → Nat
  | .bf => 0
  | .hf => 1
  | .e44 => 2
  | .e45 => 3
  | .e55 => 4
  | .i8 => 5
  | .nb => 6
  | .ne => 7

/-- The ESIZE that ring A must have (R194). -/
def MmaForm.sizeA : MmaForm → Nat
  | .nb => 128
  | _ => 64

/-- The ESIZE that ring B must have (R194). -/
def MmaForm.sizeB : MmaForm → Nat
  | .nb => 33
  | .ne => 33
  | _ => 64

/-- A ring is fit for its role (R197). -/
def Tile.ringFit (t : Tile) (slot n size : Nat) : Bool :=
  let c := entryAt t.ringcfg n 0
  bit c 39 && t.ringown.toNat / 4 ^ n % 4 == slot && bits c 24 8 == size

/-- The scale registers that a form reads (R81). -/
def MmaForm.scales (f : MmaForm) (fs : BitVec 5) : List (BitVec 5) :=
  match f with
  | .bf => []
  | .hf => []
  | .i8 => []
  | .nb => [fs]
  | _ => [fs, fs + 1]

/-- An MMA form (R197). -/
def State.mma (s : State) (sc : BitVec 3) (form : MmaForm) (n : BitVec 2) (r q : BitVec 3) (fs : BitVec 5)
    (z : BitVec 1) : Answer :=
  let regs := form.scales fs
  s.run { sc := sc, reads := regs.map .f, writes := [], fields := some [], reach := true } fun s =>
    let h := s.cur
    let t := s.tile (hartVt h)
    let scale (i : Nat) : Word := BitVec.ofNat 64 (f32.unbox (s.self.f (regs.getD i 0)))
    if otherBank h n then s.illegal
    else if s.self.bankGone then .trap .matrixUnavail 8
    else if r = q ∨ !t.ringFit (hartSlot h) r.toNat form.sizeA then .trap .ringFault (r.zeroExtend 64)
    else if !t.ringFit (hartSlot h) q.toNat form.sizeB then .trap .ringFault (q.zeroExtend 64)
    else s.leaseCommand fun s =>
      s.enqueueArray h (.mma form r.toNat q.toNat (z == 1) (scale 0) (scale 1)) none

/-- MMA.BF (R197). -/
def execMmaBf (sc : BitVec 3) (n : BitVec 2) (r q : BitVec 3) (z : BitVec 1) (s : State) : Answer :=
  s.mma sc .bf n r q 0 z

/-- MMA.HF (R197). -/
def execMmaHf (sc : BitVec 3) (n : BitVec 2) (r q : BitVec 3) (z : BitVec 1) (s : State) : Answer :=
  s.mma sc .hf n r q 0 z

/-- MMA.E44 (R197). -/
def execMmaE44 (sc : BitVec 3) (n : BitVec 2) (r q : BitVec 3) (f : BitVec 5) (z : BitVec 1) (s : State) : Answer :=
  s.mma sc .e44 n r q f z

/-- MMA.E45 (R197). -/
def execMmaE45 (sc : BitVec 3) (n : BitVec 2) (r q : BitVec 3) (f : BitVec 5) (z : BitVec 1) (s : State) : Answer :=
  s.mma sc .e45 n r q f z

/-- MMA.E55 (R197). -/
def execMmaE55 (sc : BitVec 3) (n : BitVec 2) (r q : BitVec 3) (f : BitVec 5) (z : BitVec 1) (s : State) : Answer :=
  s.mma sc .e55 n r q f z

/-- MMA.I8 (R197). -/
def execMmaI8 (sc : BitVec 3) (n : BitVec 2) (r q : BitVec 3) (z : BitVec 1) (s : State) : Answer :=
  s.mma sc .i8 n r q 0 z

/-- MMA.NB (R197). -/
def execMmaNb (sc : BitVec 3) (n : BitVec 2) (r q : BitVec 3) (f : BitVec 5) (z : BitVec 1) (s : State) : Answer :=
  s.mma sc .nb n r q f z

/-- MMA.NE (R197). -/
def execMmaNe (sc : BitVec 3) (n : BitVec 2) (r q : BitVec 3) (f : BitVec 5) (z : BitVec 1) (s : State) : Answer :=
  s.mma sc .ne n r q f z

/-! ### Bank control (R202, R203) -/

/-- ROWS and WIDTH in bytes of an m register (R34). -/
def Hart.mRows (x : Hart) (m : BitVec 3) : Nat := bits x.csr.mshape (8 * m.toNat) 5
def Hart.mWidth (x : Hart) (m : BitVec 3) : Nat := 8 * 2 ^ bits x.csr.mshape (8 * m.toNat + 5) 3

/-- In U mode the m register must belong to the context (R207, R211). -/
def Hart.mGone (x : Hart) (m : BitVec 3) : Bool := x.mode == .user && !x.mValid.getLsbD m.toNat

/-- MZERO (R202). -/
def execMzero (sc : BitVec 3) (n : BitVec 2) (s : State) : Answer :=
  s.run { sc := sc, reads := [], writes := [], reach := true } fun s =>
    if otherBank s.cur n then s.illegal
    else if s.self.bankGone then .trap .matrixUnavail 8
    else s.leaseCommand fun s => s.enqueueArray s.cur .mzero none

/-- MACCGET (R202). -/
def execMaccget (sc : BitVec 3) (m : BitVec 3) (n : BitVec 2) (c : BitVec 4) (s : State) : Answer :=
  s.run { sc := sc, reads := [], writes := [.m m], fields := some [], reach := true } fun s =>
    let x := s.self
    if otherBank s.cur n then s.illegal
    else if x.bankGone then .trap .matrixUnavail 8
    else if x.mGone m then .trap .matrixUnavail (m.zeroExtend 64)
    else if x.mRows m = 0 then .trap .mregUnconfig (m.zeroExtend 64)
    else if x.mRows m ≠ 16 ∨ x.mWidth m ≠ 64 then s.illegal
    else s.leaseCommand fun s => s.enqueueArray s.cur (.maccget m c) none

/-- MACCPUT (R202): the m register is read when it issues. -/
def execMaccput (sc : BitVec 3) (n : BitVec 2) (m : BitVec 3) (c : BitVec 4) (s : State) : Answer :=
  s.run { sc := sc, reads := [.m m], writes := [], reach := true } fun s =>
    let x := s.self
    let rows := (x.m[m.toNat]'m.isLt).toList
    if otherBank s.cur n then s.illegal
    else if x.bankGone then .trap .matrixUnavail 8
    else if x.mRows m = 0 then .trap .mregUnconfig (m.zeroExtend 64)
    else if x.mRows m ≠ 16 ∨ x.mWidth m ≠ 64 then s.illegal
    else s.leaseCommand fun s => s.enqueueArray s.cur (.maccput rows c) none

/-- The hart's MDRAIN has a send-queue entry while it waits (R203). -/
def Hart.keepsEntry (x : Hart) : Bool := x.sendq.any fun e => e.id == x.seq && e.state == .reserved

/-- An MDRAIN's operand checks of R203, in order. -/
def State.drainTrap (s : State) (w c : Word) : Option (Cause × Word) :=
  let h := s.cur
  let x := s.self
  let off := bits w 16 22
  if bits w 38 26 ≠ 0 ∨ bits w 14 2 = 3 then some (.illegal, s.word.zeroExtend 64)
  else if c ≠ 0 ∧ (bits c 8 56 ≠ 0 ∨ bits c 0 8 < 0x10 ∨ bits c 0 8 = 0xFF) then some (.illegal, s.word.zeroExtend 64)
  else if !s.destAllowed h 0 (destVt w) x.csr.tenant then some (.tenantViol, w)
  else if off % 256 ≠ 0 then some (.misalign, w)
  else if 0x300000 < off + 16384 then some (.storePf, w)
  else if 16 ≤ x.sendq.length ∧ ¬ x.keepsEntry then some (.sendqFull, w)
  else none

/-- The wake's header (R203). -/
def Hart.wakeHeader (x : Hart) (h : Nat) (c : Word) : Word :=
  mkHeader (if c = 0 then 8 else bits c 0 8) (hartVt h) (hartSlot h) x.csr.tenant.toNat 0 0 x.csr.launchid.toNat 1 false

/-- A place of the send queue is kept for the wake of an MDRAIN, from before its waits on (R203). -/
def State.reserveDrain (s : State) (w c : Word) : State :=
  let x := s.self
  let e : SendEntry := { id := x.seq, dest := w, msg := { header := x.wakeHeader s.cur c, payload := [w] }
                         acked := (launchCounter x.csr.launchid).isNone, state := .reserved, refusals := 0, seq := none
                         spawn := false, wake := true }
  if x.keepsEntry then s else s.onHart s.cur fun x => { x with sendq := x.sendq ++ [e] }

/-- The MDRAIN enters the queue (R203). -/
def State.enqueueDrain (s : State) (w c : Word) : State :=
  let h := s.cur
  let header := s.self.wakeHeader h c
  let (id, s) := s.fresh
  let entry := s.self.seq
  let l := s.self.csr.launchid
  let d : Drain := { id := id, hart := h, word := w, header := header, entry := entry, copy := none, needs := []
                     released := false, seqs := [], rows := List.range 128 }
  let s := s.updateLaunch h l 1 (some h) (some entry) none
  (s.onTile (hartVt h) fun t => { t with drains := t.drains ++ [d] }).enqueueArray h (.mdrain id) none

/-- MDRAIN (R203). -/
def execMdrain (sc : BitVec 3) (n : BitVec 2) (a b : BitVec 5) (s : State) : Answer :=
  s.run { sc := sc, reads := [.g a, .g b], writes := [], reach := true } fun s =>
    let w := s.self.g a
    let c := s.self.g b
    if otherBank s.cur n then s.illegal
    else if s.self.bankGone then .trap .matrixUnavail 8
    else
      match s.drainTrap w c with
      | some (cause, tval) => .trap cause tval
      | none =>
        let s := s.reserveDrain w c
        if s.roomItems s.cur 1 then s.leaseCommand fun s => s.enqueueDrain w c else .wait s

/-! ### RPOP and RSTAT (R205) -/

/-- The ring is enabled and the hart's own. -/
def Tile.ringOwned (t : Tile) (slot n : Nat) : Bool :=
  bit (entryAt t.ringcfg n 0) 39 && t.ringown.toNat / 4 ^ n % 4 == slot

/-- An enabled ring that the current hart owns; none is a supervisor's (log entry 61). -/
def State.ringMine (s : State) (r : BitVec 3) : Bool :=
  !isSup s.cur && (s.tile (hartVt s.cur)).ringOwned (hartSlot s.cur) r.toNat

/-- RPOP (R205). -/
def execRpop (sc : BitVec 3) (r : BitVec 3) (s : State) : Answer :=
  s.run { sc := sc, reads := [], writes := [], reach := true } fun s =>
    if !s.ringMine r then .trap .ringFault (r.zeroExtend 64)
    else if s.arrayPlace s.cur then .done (s.enqueueArray s.cur (.rpop r.toNat) none)
    else .wait s

/-- RSTAT (R205): abandonable until its turn comes. -/
def execRstat (sc : BitVec 3) (d : BitVec 5) (r : BitVec 3) (s : State) : Answer :=
  s.run { sc := sc, reads := [], writes := [.g d], reach := true } fun s =>
    if !s.ringMine r then .trap .ringFault (r.zeroExtend 64)
    else if s.arrayPlace s.cur then .done (s.enqueueArray s.cur (.rstat r.toNat d) (some s.self.snapshot))
    else .wait s

end Sys2Proof.Machine
end

