-- ==== Sys2Proof/Machine/ArrayMath.lean ====
section
/-! DEFINITION. The arithmetic of the matrix array: entry layouts, group sums, accumulation and the screen (R75, R76,
R80-R82, R194, R195, R198-R200). -/

namespace Sys2Proof.Machine

/-! ### Operands (R74, R75, R194, R195) -/

/-- The codebook (R74) as BF16 encodings. -/
def codebook : List Nat :=
  [0xBF80, 0xBF32, 0xBF06, 0xBECA, 0xBE94, 0xBE40, 0xBDBC, 0x0000, 0x3DA2, 0x3E24, 0x3E7C, 0x3EAC, 0x3EE2, 0x3F10, 0x3F39
   , 0x3F80]

/-- Whether B is nq4. -/
def MmaForm.quantile : MmaForm → Bool
  | .nb => true
  | .ne => true
  | _ => false

/-- K (R194). -/
def MmaForm.depth : MmaForm → Nat
  | .bf => 32
  | .hf => 32
  | _ => 64

/-- The float format of A; I8's integers are read apart. -/
def MmaForm.fmtA : MmaForm → Fmt
  | .bf => bf16
  | .hf => f16
  | .nb => bf16
  | .e55 => e5m2
  | _ => e4m3

/-- The float format of B where it is not nq4. -/
def MmaForm.fmtB : MmaForm → Fmt
  | .bf => bf16
  | .hf => f16
  | .e44 => e4m3
  | _ => e5m2

/-- Little-endian elements of `n` bytes. -/
def elements (n : Nat) : Nat → List Byte → List Nat
  | 0, _ => []
  | k + 1, bs => bytesNat (bs.take n) :: elements n k (bs.drop n)

/-- Equal pieces of a list, in order. -/
def chunks {α : Type} (n : Nat) : Nat → List α → List (List α)
  | 0, _ => []
  | k + 1, l => l.take n :: chunks n k (l.drop n)

/-- The 64 rows of A. -/
def MmaForm.rowsA (f : MmaForm) (a : List Byte) : List (List Fp) :=
  let n := f.fmtA.bits / 8
  (chunks (f.depth * n) 64 a).map fun r => (elements n f.depth r).map f.fmtA.value

/-- Codes of a block, low nibble first (R75). -/
def nibbles (bs : List Byte) : List Nat := bs.flatMap fun b => [b.toNat % 16, b.toNat / 16]

/-- The 64 columns of B; an nq4 column as codebook values (R80). -/
def MmaForm.colsB (f : MmaForm) (b : List Byte) : List (List Fp) :=
  if f.quantile then
    (chunks 32 64 b).map fun c => (nibbles c).map fun i => bf16.value (codebook.getD i 0)
  else
    let n := f.fmtB.bits / 8
    (chunks (f.depth * n) 64 b).map fun c => (elements n f.depth c).map f.fmtB.value

/-- The 64 rows of A or columns of B of MMA.I8. -/
def intRows (bs : List Byte) : List (List Int) := (chunks 64 64 bs).map fun r => r.map fun b => b.toInt

/-- The scale codes of an nq4 entry. -/
def scaleCodes (b : List Byte) : List Nat := ((b.drop 2048).take 64).map (·.toNat)

/-! ### Float sums (R80, R81) -/

/-- floor(|p| / 2^u), signed. -/
def truncAt (u : Int) : Fp → Int
  | .fin n m e =>
    let q : Nat := if u ≤ e then m * 2 ^ (e - u).toNat else m / 2 ^ (u - e).toNat
    if n then -(q : Int) else q
  | _ => 0

/-- The greatest exponent among nonzero products. -/
def groupTop (ps : List Fp) : Option Int :=
  ps.foldl (fun o p => match p with
    | .fin _ m e => if m = 0 then o else match o with
      | none => some (topExp m e)
      | some t => some (max t (topExp m e))
    | _ => o) none

/-- A group sum g (R80), from its exact products. -/
def groupSum (ps : List Fp) : Nat :=
  if ps.any Fp.isNan || (ps.contains (.inf false) && ps.contains (.inf true)) then f32.nan
  else if ps.contains (.inf false) then f32.infinity
  else if ps.contains (.inf true) then f32.sign + f32.infinity
  else
    match groupTop ps with
    | none => 0
    | some t =>
      let u := t - 39
      let sum := (ps.map (truncAt u)).sum
      if sum = 0 then 0 else f32.rne (.fin (decide (sum < 0)) sum.natAbs u)

/-- The group sums of a row and a column, ascending. -/
def groupSums (k : Nat) (row col : List Fp) : List Nat :=
  (chunks 16 (k / 16) (row.zipWith (fun x y => (x.mul y).1) col)).map groupSum

/-- The scale of an nq4 block (R76). -/
def blockScale (b : Nat) (superscale : Nat) : Nat := mul32 (mul32 (f32.rne (Fp.ofInt b)) superscale) 0x3B800000

/-- The scale that column n's sums take (R81): none for the forms without one. -/
def MmaForm.scale (f : MmaForm) (s0 s1 : Nat) (b : Nat) : Option Nat :=
  match f with
  | .bf => none
  | .hf => none
  | .i8 => none
  | .nb => some (blockScale b s0)
  | .ne => some (mul32 (blockScale b s0) s1)
  | _ => some (mul32 s0 s1)

/-- An element after a float MMA (R81). -/
def MmaForm.element (f : MmaForm) (scale : Option Nat) (code : Nat) (acc : Nat) (gs : List Nat) : Nat :=
  if f.quantile then
    if code = 0 then add32 acc 0
    else
      let p := (gs.drop 1).foldl add32 (gs.headD 0)
      add32 acc (mul32 p (scale.getD 0))
  else
    match scale with
    | none => gs.foldl add32 acc
    | some t => gs.foldl (fun x g => add32 x (mul32 g t)) acc

/-! ### MMA.I8 (R82) -/

/-- An element after the groups of MMA.I8, and whether a clamp changed it. -/
def intElement (row col : List Int) (acc : Nat) : Nat × Bool :=
  (chunks 16 4 (row.zipWith (· * ·) col)).foldl (fun (x, sat) g =>
    let v := signedOf 32 x + g.sum
    let c := satInt (intRange true 32) v
    (wrapTo 32 c, sat || c != v)) (acc, false)

/-! ### The screen (R199, R200) -/

/-- Row m of a bank. -/
def Bank.row (b : Bank) (m : Nat) : List Nat := (List.range 64).map fun n => (entryAt b.acc (64 * m + n) 0).toNat

/-- S of R200: the row's FP32 sum, ascending from +0. -/
def rowSum (r : List Nat) : Nat := r.foldl add32 0

/-- T of R200. -/
def rowAbs (r : List Nat) : Nat := r.foldl (fun x y => add32 x (y % 2 ^ 31)) 0

/-- What resynchronising sets a row's checksum to, in a class (R199). -/
def syncRow (integer : Bool) (r : List Nat) : Nat := if integer then r.sum % 2 ^ 32 else rowSum r

/-- Every checksum of a bank resynchronised in a class. -/
def Bank.resync (b : Bank) (integer : Bool) : Bank :=
  { b with chk := Vector.ofFn fun m => BitVec.ofNat 32 (syncRow integer (b.row m.val)) }

def notFinite (x : Nat) : Bool :=
  match f32.value x with
  | .fin _ _ _ => false
  | _ => true

/-- The test of a row (R200). -/
def rowPasses (integer : Bool) (r : List Nat) (chk : Nat) : Bool :=
  if integer then r.sum % 2 ^ 32 == chk
  else
    let s := rowSum r
    if notFinite s || notFinite chk then notFinite s && notFinite chk
    else
      let d := (f32.sub .rne s chk).1 % 2 ^ 31
      let lim := mul32 0x3B800000 (add32 (rowAbs r) (chk % 2 ^ 31))
      (f32.value d).le (f32.value lim)

/-- The test of an MMA: the first row that fails (R200); a row that the MMA itself resynchronised passes (R199). -/
def Bank.failing (b : Bank) (synced : Nat → Bool) : Option Nat :=
  (List.range 64).find? fun m => !(synced m || rowPasses b.integer (b.row m) (entryAt b.chk m 0).toNat)

/-- An exact sum. -/
def sumFp (xs : List Fp) : Fp := xs.foldl (fun x y => (x.add .rne y).1) (.fin false 0 0)

/-- B̂[k] for every k (R199): the columns' exact sum, each scaled exactly; a block of code 0 gives nothing. -/
def columnSums (f : MmaForm) (cols : List (List Fp)) (scales : List (Option Nat)) (codes : List Nat) : List Fp :=
  let scaled := (cols.zip (scales.zip codes)).map fun (c, s, b) =>
    if f.quantile && b == 0 then c.map fun _ => Fp.fin false 0 0
    else
      match s with
      | none => c
      | some t => c.map fun (x : Fp) => (x.mul (f32.value t)).1
  (List.range f.depth).map fun k => sumFp (scaled.map fun c => c.getD k (.fin false 0 0))

/-- A float row's contribution c[m] (R199). -/
def floatShare (row hat : List Fp) : Nat := f32.rne (sumFp (row.zipWith (fun (x y : Fp) => (x.mul y).1) hat))

/-- The contribution to the checksum of a row; an nq4 operand whose scale codes are all 0 adds +0 to this sum as to every
other, whatever A holds (R76, notes/assumptions/72.md). -/
def MmaForm.share (f : MmaForm) (codes : List Nat) (row hat : List Fp) : Nat :=
  if f.quantile && codes.all (· == 0) then 0 else floatShare row hat

/-- An integer row's contribution (R199). -/
def intShare (row : List Int) (cols : List (List Int)) : Nat :=
  let hat := (List.range 64).map fun k => (cols.map fun c => c.getD k 0).sum
  wrapTo 32 (row.zipWith (· * ·) hat).sum

/-! ### A whole MMA on a bank (R198) -/

/-- The bank as the MMA finds it: zeroed, resynchronised where the class changes, or as it stands. -/
def Bank.before (b : Bank) (z integer : Bool) : Bank :=
  if z then { b with acc := Vector.replicate 4096 0, chk := Vector.replicate 64 0, integer := integer }
  else if b.integer = integer then b
  else { b.resync integer with integer := integer }

/-- A float MMA's result. -/
def Bank.mmaFloat (b : Bank) (f : MmaForm) (s0 s1 : Nat) (ea eb : List Byte) : Bank :=
  let rows := f.rowsA ea
  let cols := f.colsB eb
  let codes := if f.quantile then scaleCodes eb else List.replicate 64 0
  let scales := codes.map (f.scale s0 s1)
  let hat := columnSums f cols scales codes
  { b with
    acc := Vector.ofFn fun i =>
      let n := i.val % 64
      let gs := groupSums f.depth (rows.getD (i.val / 64) []) (cols.getD n [])
      BitVec.ofNat 32 (f.element (scales.getD n none) (codes.getD n 0) (b.acc[i.val]).toNat gs)
    chk := Vector.ofFn fun m =>
      BitVec.ofNat 32 (add32 (b.chk[m.val]).toNat (f.share codes (rows.getD m.val []) hat)) }

/-- MMA.I8's result, and whether any clamp changed a value. -/
def Bank.mmaInt (b : Bank) (ea eb : List Byte) : Bank × Bool :=
  let rows := intRows ea
  let cols := intRows eb
  let elems := Vector.ofFn fun i : Fin 4096 =>
    intElement (rows.getD (i.val / 64) []) (cols.getD (i.val % 64) []) (b.acc[i.val]).toNat
  let clamped (m : Nat) : Bool := (List.range 64).any fun n => (entryAt elems (64 * m + n) (0, false)).2
  let c : Bank := { b with acc := elems.map fun e => BitVec.ofNat 32 e.1 }
  ({ c with chk := Vector.ofFn fun m =>
      if clamped m.val then BitVec.ofNat 32 (syncRow true (c.row m.val))
      else BitVec.ofNat 32 ((b.chk[m.val]).toNat + intShare (rows.getD m.val []) cols) }
   , (List.range 64).any clamped)

/-- An MMA's result, and whether MMA.I8 saturated. -/
def Bank.mma (b : Bank) (f : MmaForm) (z : Bool) (s0 s1 : Nat) (ea eb : List Byte) : Bank × Bool :=
  let b := b.before z (f == .i8)
  if f = .i8 then b.mmaInt ea eb else (b.mmaFloat f s0 s1 ea eb, false)

/-- The rows that an MMA resynchronises (R199): all where it changes the bank's class, else those MMA.I8 clamps. -/
def Bank.synced (b : Bank) (f : MmaForm) (z : Bool) (ea eb : List Byte) (m : Nat) : Bool :=
  (!z && b.integer != (f == .i8)) || (f == .i8 && (List.range 64).any fun n =>
    (intElement ((intRows ea).getD m []) ((intRows eb).getD n []) (entryAt (b.before z true).acc (64 * m + n) 0).toNat).2)

/-- The armed flip of DIAGINJ, applied to the next result before its test (R324). -/
def Bank.applyInject (b : Bank) : Bank :=
  match b.inject with
  | none => b
  | some (i, k) => { b with acc := onAt b.acc i fun x => x ^^^ BitVec.ofNat 32 (2 ^ k), inject := none }

/-! ### Sub-blocks (R202) -/

/-- Rows of sub-block `blk` as they stand in an m register. -/
def Bank.getBlock (b : Bank) (blk : Nat) : Vector VReg 16 :=
  Vector.ofFn fun i => ofLanes 32 ((List.range 16).map fun j =>
    (entryAt b.acc (64 * (16 * (blk / 4) + i.val) + 16 * (blk % 4) + j) 0).toNat)

/-- A bank with a sub-block replaced, and the 16 checksums resynchronised in the class flag's class (R199). -/
def Bank.putBlock (b : Bank) (blk : Nat) (rows : List VReg) : Bank :=
  let element (m n : Nat) : Word32 :=
    if m / 16 = blk / 4 ∧ n / 16 = blk % 4 then
      BitVec.ofNat 32 ((lanes 32 (rows.getD (m % 16) 0)).getD (n % 16) 0)
    else entryAt b.acc (64 * m + n) 0
  let c : Bank := { b with acc := Vector.ofFn fun e => element (e.val / 64) (e.val % 64) }
  { c with chk := Vector.ofFn fun m =>
      if m.val / 16 = blk / 4 then BitVec.ofNat 32 (syncRow c.integer (c.row m.val)) else b.chk[m.val] }

end Sys2Proof.Machine
end

