-- ==== Sys2Proof/Machine/Array.lean ====
section
/-! DEFINITION. The matrix array at work: starts, retirements, turns of ring commands, and drains (R140, R141, R189, R193,
R198, R201-R205, R335, R356). -/

namespace Sys2Proof.Machine

/-! ### Which command is next (R189) -/

/-- Cycles a command occupies the cells. -/
def ArrayOp.occupancy : ArrayOp → Nat
  | .mma .nb _ _ _ _ _ => 64
  | .mma _ _ _ _ _ _ => 32
  | .mzero => 4
  | .mdrain _ => 64
  | .maccget _ _ => 16
  | .maccput _ _ => 16
  | .rpop _ => 0
  | .rstat _ _ => 0

/-- The array may start commands (R307, R308, R322, R346). -/
def Tile.arrayStarts (t : Tile) : Bool :=
  !t.failed && (match t.cond with
    | .running => true
    | .replay => true
    | _ => false)

/-- The bytes of a ring's entry at HEAD. -/
def State.headEntry (s : State) (v n : Nat) : List Byte :=
  let t := s.tile v
  memBytes s.mem (sliceKey v (t.ringOff n (t.ringHead n))) (t.ringSize n)

/-- A ring has an entry, and its bytes can be had (R143, R198). -/
def Tile.ringReady (t : Tile) (n : Nat) : Bool :=
  decide (1 ≤ t.ringFill n) && !t.sramLost (t.ringOff n (t.ringHead n)) (t.ringSize n)

/-- What a command needs besides its turn: entries for an MMA, 16 KiB of the hold for an MDRAIN. -/
def Tile.commandReady (t : Tile) : ArrayOp → Bool
  | .mma _ ra rb _ _ _ => t.ringReady ra && t.ringReady rb
  | .mdrain _ => decide (t.heldBytes + t.drainBytes + 16384 ≤ 65536)
  | .rpop _ => false
  | .rstat _ _ => false
  | _ => true

/-- The oldest command that is ready; `seen` are the harts with an older command in the queue. -/
def Tile.oldestReady (t : Tile) (cycle : Nat) (seen : List Nat) : List ArrayCmd → Option ArrayCmd
  | [] => none
  | c :: cs =>
    if !seen.contains c.hart && decide (c.issued < cycle) && t.commandReady c.op then some c
    else t.oldestReady cycle (c.hart :: seen) cs

/-- The command that the array may start now. -/
def State.nextCommand (s : State) (v : Nat) : Option ArrayCmd :=
  let t := s.tile v
  if t.running.isSome || !t.arrayStarts || decide (s.cycle v ≤ t.lastRetire) then none
  else t.oldestReady (s.cycle v) [] t.queue

/-- A command occupies the cells from this cycle on, and its place of the queue is free (notes/assumptions/93.md). -/
def State.startCommand (s : State) (v : Nat) (c : ArrayCmd) (a b : List Byte) : State :=
  let run : RunningCmd := { cmd := c, retireAt := s.cycle v + c.op.occupancy - 1, a := a, b := b }
  s.onTile v fun t => { t with queue := t.queue.filter fun o => o.id != c.id, running := some run }

/-- The energy of an MMA or MDRAIN is charged to its hart at its start (R335). -/
def State.chargeArray (s : State) (c : ArrayCmd) (drain : Bool) : State :=
  s.onHart c.hart fun x => x.charge c.user (Config.energyOfArray drain)

/-- A command that occupies the cells has retired: the next may start from the next cycle, and a lease that only waited
for it ends (R193). -/
def State.freeCells (s : State) (v h : Nat) : State :=
  let c := s.cycle v
  (s.onTile v fun t => { t with running := none, lastRetire := c }).onHart h fun x =>
    if x.leaseEnding then { x with lease := .none, leaseEnding := false } else x

/-- A ring's HEAD moves on (R140, R141). -/
def Tile.popRing (t : Tile) (n : Nat) : Tile :=
  let head := (t.ringHead n + 1) % (2 * max 1 (t.ringEntries n))
  { t with ringptr := onAt t.ringptr n fun p => setBits p 0 8 head }

/-! ### MMA_START and MMA_RETIRE (R198) -/

def State.mmaStart (s : State) (v : Nat) : State :=
  match s.nextCommand v with
  | some c =>
    match c.op with
    | .mma _ ra rb _ _ _ =>
      let fix (s : State) (n : Nat) : State :=
        s.sramFix v ((s.tile v).ringOff n ((s.tile v).ringHead n)) ((s.tile v).ringSize n)
      let s := fix (fix s ra) rb
      (s.startCommand v c (s.headEntry v ra) (s.headEntry v rb)).chargeArray c false
    | _ => s
  | none => s

/-- The result of an MMA on its bank, with its hart's flags, its pops and its verdict to come. -/
def State.mmaResult (s : State) (v : Nat) (r : RunningCmd) (form : MmaForm) (ra rb : Nat) (z : Bool) (s0 s1 : Word) :
    State :=
  let h := r.cmd.hart
  let t := s.tile v
  let old := entryAt t.banks (hartSlot h) Bank.reset
  let (bank, sat) := old.mma form z s0.toNat s1.toNat r.a r.b
  let bank := bank.applyInject
  let bad := bank.failing (old.synced form z r.a r.b)
  let verdict : Verdict := { id := r.cmd.id, hart := h, retired := s.cycle v, pass := bad.isNone, row := bad.getD 0 }
  let t := (t.popRing ra).popRing rb
  (s.setTile v { t with
    banks := onAt t.banks (hartSlot h) fun _ => bank
    verdicts := t.verdicts ++ [verdict]
    unverified := t.unverified ++ [r.cmd.id] }).onHart h fun x =>
      { x with accDirty := true, sat := (x.sat && !z) || sat }

def State.mmaRetire (s : State) (v : Nat) : State :=
  match (s.tile v).running with
  | some r =>
    match r.cmd.op with
    | .mma form ra rb z s0 s1 =>
      if s.cycle v < r.retireAt then s
      else ((s.mmaResult v r form ra rb z s0 s1).freeCells v r.cmd.hart).latency v 3 (s.cycle v - r.cmd.issued)
    | _ => s
  | none => s

/-! ### MZERO, MACCGET, MACCPUT (R202) -/

/-- The command is one of the three. -/
def ArrayOp.isControl : ArrayOp → Bool
  | .mzero => true
  | .maccget _ _ => true
  | .maccput _ _ => true
  | _ => false

def State.arrayCommandStart (s : State) (v : Nat) : State :=
  match s.nextCommand v with
  | some c => if c.op.isControl then s.startCommand v c [] [] else s
  | none => s

/-- The effect on the bank or the m register. -/
def State.controlResult (s : State) (v : Nat) (c : ArrayCmd) : State :=
  let h := c.hart
  let bank := entryAt (s.tile v).banks (hartSlot h) Bank.reset
  let setBank (b : Bank) : State := s.onTile v fun t => { t with banks := onAt t.banks (hartSlot h) fun _ => b }
  match c.op with
  | .mzero =>
    (setBank { bank with acc := Vector.replicate 4096 0, chk := Vector.replicate 64 0 }).onHart h fun x =>
      { x with accDirty := true, sat := false }
  | .maccget m blk =>
    s.onHart h fun x => { x with
      m := x.m.set m.toNat (bank.getBlock blk.toNat) m.isLt, mDirty := x.mDirty ||| BitVec.ofNat 8 (2 ^ m.toNat) }
  | .maccput rows blk => (setBank (bank.putBlock blk.toNat rows)).onHart h fun x => { x with accDirty := true }
  | _ => s

def State.arrayCommandRetire (s : State) (v : Nat) : State :=
  match (s.tile v).running with
  | some r =>
    if r.cmd.op.isControl && decide (r.retireAt ≤ s.cycle v) then
      ((s.controlResult v r.cmd).freeCells v r.cmd.hart).latency v 3 (s.cycle v - r.cmd.issued)
    else s
  | none => s

/-! ### RPOP and RSTAT (R205) -/

/-- The command at the head of a hart's sequence: nothing of the hart runs before it. -/
def State.headCommand (s : State) (v h : Nat) : Option ArrayCmd :=
  let t := s.tile v
  if t.running.any fun r => r.cmd.hart == h then none else t.queue.find? fun c => c.hart == h

def State.ringCommandTurn (s : State) (v h : Nat) : State :=
  match s.headCommand v h with
  | none => s
  | some c =>
    let t := s.tile v
    if s.cycle v ≤ c.issued ∨ !t.arrayStarts then s
    else
      let gone : Tile := { t with queue := t.queue.filter fun o => o.id != c.id }
      let counted (s : State) : State := s.latency v 3 (s.cycle v - c.issued)
      match c.op with
      | .rpop n => counted (s.setTile v (if 1 ≤ t.ringFill n then gone.popRing n else gone))
      | .rstat n d =>
        let w := BitVec.ofNat 64 ((bit (entryAt t.ringcfg n 0) 39).toNat * 256 + t.ringFill n)
        counted ((s.setTile v gone).onHart h fun x => x.writeResult c.seq (.g d) (w.zeroExtend 512))
      | _ => s

/-! ### Drains (R203, R204) -/

/-- The copy begins: its 16 KiB of the hold are taken. -/
def State.drainStart (s : State) (v : Nat) (c : ArrayCmd) (id : Nat) : State :=
  let s := (s.startCommand v c [] []).chargeArray c true
  s.onTile v fun t => { t with egress := t.egress ++ [{ item := .drain id, needs := [], bytes := 16384 }] }

/-- The copy is complete: the item stands in the hold from now on, behind the bank's verdicts to come. -/
def State.drainCopied (s : State) (v h id : Nat) : State :=
  let t := s.tile v
  let bank := entryAt t.banks (hartSlot h) Bank.reset
  let needs := (t.verdicts.filter fun o => o.hart == h).map (·.id)
  s.setTile v { t with
    egress := (t.egress.filter fun i => i.item != .drain id)
      ++ [{ item := .drain id, needs := t.unverified, bytes := 16384 }]
    drains := t.drains.map fun d => if d.id == id then { d with copy := some bank.acc.toList, needs := needs } else d }

/-- MDRAIN_COPY: a copy begins, or the one in progress completes. -/
def State.drainCopy (s : State) (v : Nat) : State :=
  match (s.tile v).running with
  | some r =>
    match r.cmd.op with
    | .mdrain id =>
      if s.cycle v < r.retireAt then s
      else ((s.drainCopied v r.cmd.hart id).freeCells v r.cmd.hart).latency v 3 (s.cycle v - r.cmd.issued)
    | _ => s
  | none =>
    match s.nextCommand v with
    | some c =>
      match c.op with
      | .mdrain id => s.drainStart v c id
      | _ => s
    | none => s

/-- The 128 bytes of half-row `j` (R203, R204). -/
def Drain.halfRow (d : Drain) (j : Nat) : List (Option Byte) :=
  solid (((((d.copy.getD []).drop (32 * j)).take 32)).flatMap fun x => natBytes 4 x.toNat)

/-- MDRAIN_ROW_WRITE: a half-row is performed at the destination's slice. -/
def State.drainRow (s : State) (v id j : Nat) : State :=
  let t := s.tile v
  match t.drains.find? fun d => d.id == id with
  | none => s
  | some d =>
    let u := destVt d.word
    let p := slicePlace u (bits d.word 16 22 + 128 * j)
    let s := if d.released && u != v then s.capture u (.row id j) else s
    if !d.released || !d.rows.contains j || (s.tile u).gate != .takes then s
    else if s.sramStops p 128 then s.sramStop p
    else
      let known := t.numberOf (.tile u) .assured (d.rowKey j)
      let done (s : State) : State := s.onTile v fun t => { t with
        numbered := match known with
          | some _ => useNumber (d.rowKey j) (streamKey u .assured) t.numbered
          | none => t.numbered ++ [{ key := d.rowKey j, stream := streamKey u .assured, n := d.seqs.headD 0, used := true }]
        drains := t.drains.map fun o => if o.id == id then
          { o with rows := o.rows.filter (· != j), seqs := if known.isSome then o.seqs else o.seqs.drop 1 } else o }
      let n := known.getD (d.seqs.headD 0)
      match seqVerdict (s.seqHigh (.tile u) v .assured) n with
      | .outOfTurn => s
      | .duplicate => done s
      | .inTurn =>
        let s := (s.setSeqHigh (.tile u) v .assured n).writeAndWake (some v) p (d.halfRow j) none
        done (if u = v then s.logAt v v (.drainRow p.off (d.halfRow j)) else s)

/-- MDRAIN_WAKE: every row write is performed, and so is what the hart wrote before the MDRAIN (R248, R258), so the wake takes its place in the send queue and the hold's space is free. -/
def State.drainWake (s : State) (v id : Nat) : State :=
  match (s.tile v).drains.find? fun d => d.id == id with
  | none => s
  | some d =>
    if !d.released || !d.rows.isEmpty || !s.releasedBefore d.hart d.entry || !s.roomItems d.hart 1 then s
    else
      let s := s.onTile v fun t => { t with
        drains := t.drains.filter fun o => o.id != id
        egress := t.egress.filter fun i => i.item != .drain id }
      let s := s.onHart d.hart fun x => { x with sendq := x.sendq.map fun (e : SendEntry) =>
        if e.id == d.entry then { e with state := .queued } else e }
      s.pumpSends d.hart 16

/-- MMA_START. -/
def execMmaStart (vt : Nat) (s : State) : Answer := .next (s.mmaStart vt)
/-- MMA_RETIRE. -/
def execMmaRetire (vt : Nat) (s : State) : Answer := .next (s.mmaRetire vt)
/-- ARRAY_COMMAND_START. -/
def execArrayCommandStart (vt : Nat) (s : State) : Answer := .next (s.arrayCommandStart vt)
/-- ARRAY_COMMAND_RETIRE. -/
def execArrayCommandRetire (vt : Nat) (s : State) : Answer := .next (s.arrayCommandRetire vt)
/-- RING_COMMAND_TURN. -/
def execRingCommandTurn (vt hart : Nat) (s : State) : Answer :=
  .next (if hartVt hart = vt then s.ringCommandTurn vt hart else s)
/-- MDRAIN_COPY. -/
def execMdrainCopy (vt : Nat) (s : State) : Answer := .next (s.drainCopy vt)
/-- MDRAIN_ROW_WRITE. -/
def execMdrainRowWrite (vt drain row : Nat) (s : State) : Answer := .next (s.drainRow vt drain row)
/-- MDRAIN_WAKE. -/
def execMdrainWake (vt drain : Nat) (s : State) : Answer := .next (s.drainWake vt drain)

end Sys2Proof.Machine
end

