-- ==== Sys2Proof/Machine/Atomic.lean ====
section
/-! DEFINITION. The AMO family (R214-R216). -/

namespace Sys2Proof.Machine

/-- An AMO of a kind (R41): `w` 1 works on a dword; AMOCAS reads its destination for the comparison. -/
def State.amo (s : State) (sc : BitVec 3) (d a b : BitVec 5) (w : BitVec 1) (op : BitVec 3) : Answer :=
  s.run { sc := sc, reads := [.g a, .g b] ++ (if op = 7 then [.g d] else []), writes := [.g d]
          fields := some [.g a, .g b], reach := true } fun s =>
    let dword := w == 1
    s.atomic (.amo op dword (s.self.g b) (s.self.g d)) d (s.self.g a) (if dword then 8 else 4)

/-- AMOADD (R215). -/
def execAmoadd (sc : BitVec 3) (d a b : BitVec 5) (w : BitVec 1) (s : State) : Answer :=
  s.amo sc d a b w 0

/-- AMOMIN (R215). -/
def execAmomin (sc : BitVec 3) (d a b : BitVec 5) (w : BitVec 1) (s : State) : Answer :=
  s.amo sc d a b w 1

/-- AMOMAX (R215). -/
def execAmomax (sc : BitVec 3) (d a b : BitVec 5) (w : BitVec 1) (s : State) : Answer :=
  s.amo sc d a b w 2

/-- AMOAND (R215). -/
def execAmoand (sc : BitVec 3) (d a b : BitVec 5) (w : BitVec 1) (s : State) : Answer :=
  s.amo sc d a b w 3

/-- AMOOR (R215). -/
def execAmoor (sc : BitVec 3) (d a b : BitVec 5) (w : BitVec 1) (s : State) : Answer :=
  s.amo sc d a b w 4

/-- AMOXOR (R215). -/
def execAmoxor (sc : BitVec 3) (d a b : BitVec 5) (w : BitVec 1) (s : State) : Answer :=
  s.amo sc d a b w 5

/-- AMOSWAP (R215). -/
def execAmoswap (sc : BitVec 3) (d a b : BitVec 5) (w : BitVec 1) (s : State) : Answer :=
  s.amo sc d a b w 6

/-- AMOCAS (R215). -/
def execAmocas (sc : BitVec 3) (d a b : BitVec 5) (w : BitVec 1) (s : State) : Answer :=
  s.amo sc d a b w 7

end Sys2Proof.Machine
end

