-- ==== Sys2Proof/Machine/Branch.lean ====
section
/-! DEFINITION. Branches and jumps (R150, R151). -/

namespace Sys2Proof.Machine

/-- Beq (R150). -/
def execBeq (sc : BitVec 3) (a b : BitVec 5) (o : BitVec 12) (s : State) : Answer :=
  s.branch sc a b o fun a b => a == b

/-- Bne (R150). -/
def execBne (sc : BitVec 3) (a b : BitVec 5) (o : BitVec 12) (s : State) : Answer :=
  s.branch sc a b o fun a b => a != b

/-- Blt (R150). -/
def execBlt (sc : BitVec 3) (a b : BitVec 5) (o : BitVec 12) (s : State) : Answer :=
  s.branch sc a b o fun a b => slt a b

/-- Bge (R150). -/
def execBge (sc : BitVec 3) (a b : BitVec 5) (o : BitVec 12) (s : State) : Answer :=
  s.branch sc a b o fun a b => !slt a b

/-- Bltu (R150). -/
def execBltu (sc : BitVec 3) (a b : BitVec 5) (o : BitVec 12) (s : State) : Answer :=
  s.branch sc a b o fun a b => ult a b

/-- Bgeu (R150). -/
def execBgeu (sc : BitVec 3) (a b : BitVec 5) (o : BitVec 12) (s : State) : Answer :=
  s.branch sc a b o fun a b => !ult a b

/-- JAL (R151). -/
def execJal (sc : BitVec 3) (d : BitVec 5) (o : BitVec 17) (s : State) : Answer :=
  s.run { sc := sc, reads := [], writes := [.g d], latency := 1 } fun s =>
    .jump (s.startG d (s.self.pc + 4) 1) (s.self.pc + 4 * o.signExtend 64)

/-- JALR (R151): the target is formed before the link is written. -/
def execJalr (sc : BitVec 3) (d a : BitVec 5) (i : BitVec 12) (s : State) : Answer :=
  s.run { sc := sc, reads := [.g a], writes := [.g d], latency := 1 } fun s =>
    let t := s.self.g a + i.signExtend 64
    if t.toNat % 4 ≠ 0 then .trap .misalign t else .jump (s.startG d (s.self.pc + 4) 1) t

end Sys2Proof.Machine
end

