-- ==== Sys2Proof/Machine/HomeEvents.lean ====
section
/-! DEFINITION. Events at homes and on a hart's way to them: line requests and their answers, empty-line retries and
timeouts, the HBM controllers, page walks, watches, results, scrubbing; and a reserved instruction word (R28, R51, R92,
R97-R99, R110, R135, R136, R142, R143, R269, R270). -/

namespace Sys2Proof.Machine

/-- A word that names no instruction raises ILLEGAL and has no other effect (R51). -/
def execReservedEncoding (w : BitVec 32) (s : State) : Answer :=
  .next ({ s with word := w }.raise s.cur .illegal (w.zeroExtend 64))

/-- HOME_LINE_REQUEST (R92). -/
def execHomeLineRequest (hart access part : Nat) (s : State) : Answer := .next (s.lineRequest hart access part)

/-- ACCESS_ANSWER (R92). -/
def execAccessAnswer (hart access : Nat) (s : State) : Answer := .next (s.accessAnswer hart access)

/-- RESULT_WRITTEN (R28). -/
def execResultWritten (hart : Nat) (s : State) : Answer := .next (s.onHart hart Hart.resultWritten)

/-! ### Empty lines (R135, R136) -/

/-- A part told to retry is sent again once its 64 cycles have passed. -/
def State.retryPart (s : State) (h id i : Nat) : State :=
  match (s.hart h).access id with
  | none => s
  | some a =>
    match a.parts[i]? with
    | none => s
    | some p =>
      match p.status with
      | .retry at_ => if s.cycle (hartVt h) < at_ then s else s.setPart h id i .sent
      | _ => s

/-- FE_LOAD_RETRY (R135). -/
def execFeLoadRetry (hart access part : Nat) (s : State) : Answer := .next (s.retryPart hart access part)

/-- The part waits on an empty line. -/
def State.partEmpty (s : State) (p : Part) : Bool :=
  (match p.status with
    | .waiting => true
    | .retry _ => true
    | _ => false) &&
  (match p.place.home with
    | .slice v => (s.tile v).isEmpty p.place.off
    | _ => false)

/-- A load unanswered for FEWAIT cycles since its first empty reply traps with its lowest address in an empty line,
and its request is withdrawn (R136). -/
def State.feExpire (s : State) (h id : Nat) : State :=
  match (s.hart h).access id with
  | none => s
  | some a =>
    match a.since, (a.parts.filter s.partEmpty).map a.lowest with
    | some c, va :: vas =>
      if s.cycle (hartVt h) < c + (s.tile (hartVt h)).feWait then s
      else (s.withdraw h id).onHart h fun x => x.accessTrap id .feTimeout (BitVec.ofNat 64 (vas.foldl min va))
    | _, _ => s

/-- FE_TIMEOUT (R136). -/
def execFeTimeout (hart access : Nat) (s : State) : Answer := .next (s.feExpire hart access)

/-! ### SRAM scrubbing (R142, R143) -/

/-- SRAM_SCRUB (R142): one row is read. -/
def execSramScrub (vt offset : Nat) (s : State) : Answer :=
  let off := offset % 2 ^ 22 / 128 * 128
  .next (if (s.tile vt).sramLost off 128 then s.sramFail vt else s.sramFix vt off 128)

/-! ### HBM controllers (R97-R99) -/

/-- HBM_BATCH_FORM (R97). -/
def execHbmBatchForm (die channel : Nat) (s : State) : Answer :=
  .next (if 48 ≤ die ∨ 32 ≤ channel then s else s.formBatch die channel)

/-- A row's count that failed its check is logged with channel, bank and row (R98; notes/assumptions/73.md). -/
def Die.logCorrupt (x : Die) (channel bank row : Nat) : Die :=
  { x with faultLog := x.faultLog ++ [{ header := faultHeader 0 0 0 0xFFF 0
                                        payload := [channel, bank, row].map (BitVec.ofNat 64) }] }

/-- REFRESH_MANAGEMENT (R98): a row whose count reached ACTTH, or came back corrupt, is mitigated and its count returns
to 0; a corrupt one is logged. 2^20 more than the row's number says that the stack's count failed its check
(notes/assumptions/13.md). -/
def execRefreshManagement (die channel bank row : Nat) (s : State) : Answer :=
  let corrupt := decide (2 ^ 20 ≤ row)
  let row := row % 2 ^ 20
  let k := bank * 2 ^ 20 + row
  let c := (s.die die).channels.get channel default
  .next (if !corrupt && decide (c.activations.get k 0 < s.hbm.actTh) then s
    else s.onDie die fun x =>
      let x := { x with channels := x.channels.put channel { c with activations := c.activations.erase k } }
      if corrupt then x.logCorrupt channel bank row else x)

/-- The stack offset of line i of a channel, in address order (notes/assumptions/9.md). -/
def channelLine (channel i : Nat) : Nat := (i * 32 + channel) * 128

/-- Lines of a channel of a 48 GiB stack (R88). -/
def channelLines : Nat := 0xC00000000 / 4096

/-- Ticks of an hour of the timebase (R163). -/
def hourTicks : Nat := 3780000000000

/-- The tick at which the patrol's next line is due: a pass reads its lines at an even rate (R99). -/
def State.patrolDue (s : State) (c : Channel) : Nat := c.patrolled * (s.hbm.patrolPass * hourTicks) / channelLines

/-- PATROL_READ (R99): the next line in address order, once it is due and its turn in the channel; a corrected one is
counted and keeps its value (R93), an uncorrectable one is logged. -/
def execPatrolRead (die channel : Nat) (finding : PatrolFinding) (s : State) : Answer :=
  if 48 ≤ die ∨ 32 ≤ channel then .next s
  else
    let c := (s.die die).channels.get channel default
    let off := channelLine channel (c.patrolled % channelLines)
    let p := hbmPlace die off
    if s.tick < s.patrolDue c || !s.hbmAdmits .patrol p then .next s
    else
      let s := ((s.joinBatch .patrol p).openRow p).onDie die fun x =>
        let c := x.channels.get channel default
        { x with channels := x.channels.put channel { c with patrolled := c.patrolled + 1 } }
      .next (match finding with
        | .uncorrectable =>
          { s.onDie die fun x => x.logLine 0xFFF 0 off with badLines := insertNat s.badLines (hbmKey die off / 128) }
        | .corrected => s.onDie die fun x => { x with corrected := x.corrected + 1 }
        | .clean => s)

/-! ### Page walks (R110) -/

/-- PAGE_WALK (R110): the walk that an access of the hart at an address would make. -/
def execPageWalk (hart : Nat) (va : BitVec 64) (kind : AccessKind) (s : State) : Answer :=
  .next (if isSup hart then s else (s.locate (s.ctx hart) va kind true).1)

/-! ### Watches (R269, R270) -/

/-- A watch is evicted from a full directory; its hart takes a spurious wake. -/
def State.evictWatch (s : State) (h i : Nat) : State :=
  match (s.tile (hartVt h)).watches[i]? with
  | none => s
  | some w =>
    let full := match w.die with
      | some d => decide (512 ≤ s.directory d)
      | none => false
    if w.hart == h && w.registered && full then
      (s.onTile (hartVt h) fun t => { t with watches := t.watches.eraseIdx i }).onHart h fun x =>
        { x with lwaitSpurious := true }
    else s

/-- WATCH_REGISTER (R269). -/
def execWatchRegister (hart watch : Nat) (s : State) : Answer := .next (s.registerWatch hart watch)

/-- WATCH_EVICT (R270). -/
def execWatchEvict (hart watch : Nat) (s : State) : Answer := .next (s.evictWatch hart watch)

/-- LWAIT_TIMEOUT (R270): the LWAIT that runs has passed its limit and returns 1 when its hart moves. -/
def execLwaitTimeout (hart : Nat) (s : State) : Answer :=
  let x := s.hart hart
  .next (if x.lwaitSince.isSome && x.lwaitUntil.any (fun l => decide (l ≤ s.tick)) then
    s.setHart hart { x with lwaitExpired := true } else s)

end Sys2Proof.Machine
end

