-- ==== Sys2Proof/Machine/MsgEvents.lean ====
section
/-! DEFINITION. Messages on their way and back: routes, arrival, bounce, retry, acceptance, SPAWN answers; counters,
cancels, load levelling, barriers at their homes (R227, R231, R241, R242, R246-R251, R264, R266, R280, R282, R315, R318,
R361, R391). -/

namespace Sys2Proof.Machine

/-! ### Routes in virtual terms (R280, R282, R391) -/

/-- The tables of a router after reset: classes 0 and 2 route X before Y, 1 and 3 Y before X. Ports 1 N, 2 E, 3 S, 4 W. -/
def dimensionPort (yFirst : Bool) (gx gy dx dy : Nat) : Nat :=
  let x := if gx < dx then some 2 else if dx < gx then some 4 else none
  let y := if gy < dy then some 3 else if dy < gy then some 1 else none
  ((if yFirst then y.orElse fun _ => x else x.orElse fun _ => y)).getD 0

/-- The key of a router's table: its VT and the routing class. -/
def routeKey (v cls : Nat) : Nat := v * 4 + cls

/-- The port that a router's table gives for a destination VT (R282); after reset, by the destination's own coordinates
(notes/assumptions/96.md). -/
def State.routePort (s : State) (cls v dst : Nat) : Nat :=
  match (s.die (vtDie v)).routes.find (routeKey v cls) with
  | none => dimensionPort (cls % 2 == 1) (vtGx v) (vtGy v) (vtGx dst) (vtGy dst)
  | some t => (t.getD (if vtDie v = vtDie dst then 48 + dst % 64 else vtDie dst) 0).toNat

/-- The VT at a place of the grid of R273. -/
def vtAtGrid (gx gy : Nat) : Nat := (gy / 8 * 6 + gx / 8) * 64 + gy % 8 * 8 + gx % 8

/-- The next virtual position through a port; none off the mesh and for the I/O link. -/
def stepPort (v port : Nat) : Option Nat :=
  let gx := vtGx v
  let gy := vtGy v
  match port with
  | 1 => if gy = 0 then none else some (vtAtGrid gx (gy - 1))
  | 2 => if gx = 47 then none else some (vtAtGrid (gx + 1) gy)
  | 3 => if gy = 63 then none else some (vtAtGrid gx (gy + 1))
  | 4 => if gx = 0 then none else some (vtAtGrid (gx - 1) gy)
  | _ => none

/-- A message gets from a router to its destination, every router on the way letting the tenant through (R280); the
longest way in one dimension order takes 110 steps. -/
def State.routeReaches (s : State) (t : Tenant) (cls v dst : Nat) : Nat → Bool
  | 0 => false
  | n + 1 =>
    if v = dst then true
    else
      match stepPort v (s.routePort cls v dst) with
      | none => false
      | some w => t.hasVt w && s.routeReaches t cls w dst n

/-- Nothing on a message's way discards it: the own tile's messages pass no other router, those of supervisors enter
beside the destination's area (notes/assumptions/17.md). -/
def State.delivers (s : State) (src : Node) (dst : Nat) (hd : Word) : Bool :=
  match src with
  | .tile v => v == dst || (s.inTenant (hdrTenant hd) dst && (match s.tenants.find (hdrTenant hd).toNat with
      | some t => t.hasVt v && s.routeReaches t (bits hd 30 2) v dst 128
      | none => false))
  | _ => s.inTenant (hdrTenant hd) dst

/-! ### Arrival (R231, R241, R247) -/

/-- The sender of a message learns that it was accepted (R240, R242). -/
def State.acceptAnswer (s : State) (p : Packet) (hart entry : Option Nat) (spawn : Bool) : State :=
  match hart, entry with
  | some h, some e => s.sendFree p.dst p.src (if spawn then .spawnAnswer h e true else .acceptance h e)
  | _, _ => s

/-- A request refused: its sender learns it at once (R241, R242). -/
def State.refuseAnswer (s : State) (p : Packet) (hart entry : Option Nat) (spawn : Bool) : State :=
  match hart, entry with
  | some h, some e => s.sendFree p.dst p.src (if spawn then .spawnAnswer h e false else .bounce h e)
  | _, _ => s

/-- The message takes a slot, its number is accepted and its sender told (R231, R241, R315). -/
def State.placeArrived (s : State) (p : Packet) (h c : Nat) (m : Msg) (hart entry : Option Nat) (spawn : Bool) : State :=
  (((s.acceptPacket p).dropPacket p.id).place h c m p.src.number).acceptAnswer p hart entry spawn

/-- A reply to a hart with nothing reserved (R241): discarded, with a FAULT record of the destination tile. -/
def State.strayReply (s : State) (p : Packet) (v slot : Nat) (m : Msg) (hart entry : Option Nat) : State :=
  (((s.acceptPacket p).dropPacket p.id).postFault v slot (hdrTenant m.header) (hdrLaunch m.header)
    [m.header, 0, 0, 0, 0, kind3 v slot Cause.undeliverable.code]).acceptAnswer p hart entry false

/-- How a tile meets messages: a VT in clock-loss hold takes them while slots remain (R241), but a request, which R346 and
R308 let it refuse too, by a choice that is left open (notes/assumptions/18.md). -/
def Tile.mailGate (t : Tile) : Gate :=
  match t.cond with
  | .hold => if t.logFull then .refuses else .takes
  | _ => t.gate

/-- A system message that the network holds for a full channel: its number is accepted, so that nothing else of its stream
waits behind it (R246), and it keeps its place before later ones of its sender to the channel (R247). -/
def State.heldBefore (s : State) (p : Packet) (dest : Word) : Bool :=
  s.net.any fun q => decide (q.id < p.id) && q.src == p.src && q.seq.isNone && (match q.body with
    | .message d m (some _) _ _ => hdrVnet m.header == 2 && bits d 0 16 == bits dest 0 16
    | _ => false)

def State.holdMail (s : State) (p : Packet) : State :=
  let s := s.acceptPacket p
  { s with net := s.net.map fun q => if q.id == p.id then { q with stream := none, seq := none } else q }

/-- A message that is in turn reaches its hart (R241). -/
def State.messageDecided (s : State) (p : Packet) (dest : Word) (m : Msg) (hart entry : Option Nat) (spawn : Bool) :
    State :=
  let v := destVt dest
  let h := v * 4 + destHart dest
  let x := s.hart h
  let c := destChan dest
  let full := decide (8 ≤ (entryAt x.chans c []).length)
  -- what the panel itself places is a system delivery (R278)
  match (if hart.isNone then 2 else hdrVnet m.header) with
  | 0 =>
    match (s.tile v).mailGate with
    | .waits => s
    | .refuses => (s.dropPacket p.id).refuseAnswer p hart entry spawn
    | .takes =>
      let (refuses, s) := if (s.tile v).cond == .hold then s.freeBelow 2 else (0, s)
      if full || refuses == 1 then (s.dropPacket p.id).refuseAnswer p hart entry spawn
      else s.placeArrived p h c m hart entry spawn
  | 1 =>
    if (s.tile v).mailGate != .takes then s
    else if x.csr.replyres = 0 then
      if (s.tile v).hasRoom 64 then s.strayReply p v (destHart dest) m hart entry else s
    else
      (s.setHart h { x with csr := { x.csr with replyres := x.csr.replyres - 1 } }).placeArrived p h 3 m hart entry spawn
  | _ =>
    let size := if c = 3 then decide (16 ≤ (entryAt x.chans 3 []).length + x.csr.replyres) else full
    if (s.tile v).mailGate != .takes then s
    else if size || s.heldBefore p dest then s.holdMail p
    else s.placeArrived p h c m hart entry spawn

/-- A message that a router discards (R280): the supervisor of the destination's die posts the record. -/
def State.discardMessage (s : State) (p : Packet) (dest : Word) (m : Msg) : State :=
  ((s.acceptPacket p).dropPacket p.id).postPanelEvent (vtDie (destVt dest)) (hdrTenant m.header) (hdrLaunch m.header)
    [m.header, 0, 0, 0, 0] (kind3 (hdrVt m.header) (hdrHart m.header) Cause.tenantViol.code)

/-- A supervisor's hart of origin as its mailbox keeps it. -/
def senderHart (m : Msg) : Nat := hdrVt m.header * 4 + hdrHart m.header

/-- A system message at a die supervisor's mailbox: a FAULT record that finds it full is dropped and counted (R128), which
leaves a dump in progress incomplete (R304); any other message waits in the network. -/
def State.dieMail (s : State) (d : Nat) (p : Packet) (m : Msg) (hart entry : Option Nat) : State :=
  let room := decide ((s.die d).mailbox.length < Config.mailboxSlots)
  let taken (s : State) : State := ((s.acceptPacket p).dropPacket p.id).acceptAnswer p hart entry false
  if room then
    (taken s).onDie d fun x => { x with mailbox := x.mailbox ++ [(p.src, senderHart m, m)] }
  else if hdrClass m.header = 0x0F then (taken s).onDie d fun x => { x with
    lostRecords := x.lostRecords + 1
    dumps := x.dumps.map fun (o : Dump) => if o.started then { o with incomplete := true } else o }
  else s

/-- A system message at the panel supervisor: LAUNCH, CANCEL and MGMT wait to be served; another class, a COMPLETE that it
listens for among them, is taken at once and has no further effect (R361; notes/assumptions/21.md). -/
def State.panelMail (s : State) (p : Packet) (m : Msg) (hart entry : Option Nat) : State :=
  let s := ((s.acceptPacket p).dropPacket p.id).acceptAnswer p hart entry false
  if [0, 1, 7].contains (hdrClass m.header) then { s with supMailbox := s.supMailbox ++ [(p.src, senderHart m, m)] } else s

/-- MESSAGE_ARRIVAL (R241, R246, R280, R318). -/
def State.messageArrival (s : State) (id : Nat) : State :=
  match s.packet id with
  | none => s
  | some p =>
    match p.body with
    | .message dest m hart entry spawn =>
      if p.outOfTurn then s
      else
        match p.dst with
        | .tile v =>
          let s := s.capture v (.item id)
          let through := s.delivers p.src v m.header
          if through && (s.tile v).mailGate == .waits then s
          else
            match s.verdict p with
            | .duplicate => (s.dropPacket id).acceptAnswer p hart entry spawn
            | .outOfTurn => s.returnPacket id
            | .inTurn => if through then s.messageDecided p dest m hart entry spawn else s.discardMessage p dest m
        | .dieSup d =>
          match s.verdict p with
          | .duplicate => (s.dropPacket id).acceptAnswer p hart entry false
          | .outOfTurn => s.returnPacket id
          | .inTurn => s.dieMail d p m hart entry
        | .panelSup =>
          match s.verdict p with
          | .duplicate => (s.dropPacket id).acceptAnswer p hart entry false
          | .outOfTurn => s.returnPacket id
          | .inTurn => s.panelMail p m hart entry
        | _ => s
    | _ => s

/-! ### Answers at the sender (R240-R242, R247, R318) -/

/-- The entry's number will never be sent again (R318). -/
def State.voidEntry (s : State) (h : Nat) (e : SendEntry) : State :=
  match e.seq with
  | some n => s.sendVoid (hartNode h) (destNode e.dest) (msgStream e.msg) n
  | none => s

/-- UNDELIVERABLE (R241): the entry goes, with its reservation, its count and its number. -/
def State.undeliverable (s : State) (h : Nat) (e : SendEntry) : State :=
  let tval := BitVec.ofNat 64 (hdrClass e.msg.header * 2 ^ 56 + bits e.dest 0 38)
  let s := s.onHart h fun x => { x with
    csr := { x.csr with replyres := x.csr.replyres - (hdrRe e.msg.header).toNat }
    pendTraps := x.pendTraps ++ [{ cause := .undeliverable, tval := tval, access := none }] }
  ((s.updateLaunch h (hdrLaunch e.msg.header) (-1) (some h) none none).voidEntry h e).dropSend h e.id

/-- One more refusal of an entry (R241). -/
def State.refused (s : State) (h : Nat) (e : SendEntry) : State :=
  let n := e.refusals + 1
  if (s.hart h).csr.retrymax.toNat < n then s.undeliverable h e
  else
    let at_ := s.cycle (hartVt h) + (s.hart h).csr.retrygap.toNat
    s.onHart h fun x => { x with
      sendq := x.sendq.map fun (o : SendEntry) => if o.id == e.id then { o with state := .bounced at_, refusals := n } else o }

/-- The record that a parked hart's frame keeps for a barrier word learns the phase too (R265, R296). -/
def State.framePhase (s : State) (h : Nat) (w : BitVec 17) (ph : BitVec 16) (i : Nat) : State :=
  let r := s.frameWord h (354 + i)
  let bytes := solid (natBytes 8 (setBits r 20 16 ph.toNat).toNat)
  let a := sliceKey (hartVt h) (frameOff h + 8 * (354 + i))
  if bit r 19 && bits r 0 17 == w.toNat then { s with mem := memWrite s.mem a bytes }
  else s

/-- The arrival's record learns the phase it arrived in (R266), wherever the context is (R265). -/
def State.recordPhase (s : State) (h : Nat) (w : BitVec 17) (ph : BitVec 16) : State :=
  let s := if (s.hart h).parked.isSome && !isSup h then (List.range 4).foldl (fun s i => s.framePhase h w ph i) s else s
  s.onHart h fun x => { x with
    barriers := x.barriers.map fun r => if r.inUse && r.word == w then { r with phase := ph } else r }

/-- What an answer does to its hart; the log keeps the phase of an arrival as a BARINIT of it. An entry that is gone has had its answer (R322). -/
def State.applyAnswer (s : State) (body : PacketBody) : State :=
  match body with
  | .bounce h id =>
    match (s.hart h).sendq.find? fun e => e.id == id with
    | none => s
    | some e => s.refused h e
  | .acceptance h id => s.dropSend h id
  | .barrier w (.init ph) h => s.recordPhase h w ph
  | .spawnAnswer h id accepted =>
    match (s.hart h).sendq.find? fun e => e.id == id with
    | none => s
    | some e =>
      let s := if accepted then s else s.voidEntry h e
      let answer (l : SpawnLatch) : SpawnLatch :=
        if l.armed && l.entry == id then { l with answered := true, accepted := accepted } else l
      (s.onHart h fun x => { x with spawn := answer x.spawn, spawnOuter := x.spawnOuter.map answer }).dropSend h id
  | _ => s

/-- An answer reaches its hart, and its tile's log (R315); a stopped VT leaves it in the network. -/
def State.answerArrival (s : State) (p : Packet) : State :=
  match p.dst with
  | .tile v =>
    let s := s.capture v (.item p.id)
    if (s.tile v).gate != .takes || !(s.tile v).hasRoom 64 then s
    else ((s.dropPacket p.id).logAt v v (.answer p.body)).applyAnswer p.body
  | _ => (s.dropPacket p.id).applyAnswer p.body

/-- BOUNCE_RETURN (R241). -/
def execBounceReturn (packet : Nat) (s : State) : Answer :=
  .next (match s.packet packet with
    | some p => match p.body with
      | .bounce _ _ => s.answerArrival p
      | _ => s
    | none => s)

/-- SEND_ACCEPTANCE (R240). -/
def execSendAcceptance (packet : Nat) (s : State) : Answer :=
  .next (match s.packet packet with
    | some p => match p.body with
      | .acceptance _ _ => s.answerArrival p
      | _ => s
    | none => s)

/-- SPAWN_ANSWER (R242). -/
def execSpawnAnswer (packet : Nat) (s : State) : Answer :=
  .next (match s.packet packet with
    | some p => match p.body with
      | .spawnAnswer _ _ _ => s.answerArrival p
      | _ => s
    | none => s)

/-- MESSAGE_ARRIVAL (R241). -/
def execMessageArrival (packet : Nat) (s : State) : Answer := .next (s.messageArrival packet)

/-- The tile sends what waits in it: it runs, drains or replays, and no failure stops it (R307, R322). -/
def Tile.sends (t : Tile) : Bool :=
  !t.failed && (match t.cond with
    | .running => true
    | .drain => true
    | .replay => true
    | _ => false)

/-- SEND_RETRY (R241, R247): the request goes again under its number. -/
def State.sendRetry (s : State) (h id : Nat) : State :=
  match (s.hart h).sendq.find? fun e => e.id == id with
  | none => s
  | some e =>
    match e.state with
    | .bounced t =>
      if decide (t ≤ s.cycle (hartVt h)) && (isSup h || (s.tile (hartVt h)).sends) then
        let s := s.onHart h fun x => { x with
          sendq := x.sendq.map fun (o : SendEntry) => if o.id == id then { o with state := .sent } else o }
        s.inject { id := 0, src := hartNode h, dst := destNode e.dest, body := e.packet h
                   stream := e.seq.map fun _ => msgStream e.msg, seq := e.seq, outOfTurn := false }
      else s
    | _ => s

/-- SEND_RETRY. -/
def execSendRetry (hart entry : Nat) (s : State) : Answer := .next (s.sendRetry hart entry)

/-- DISPATCH (R234): a free hart takes the head of its next channel. -/
def execDispatch (hart : Nat) (s : State) : Answer :=
  .next (if s.mayDispatch hart then s.dispatchLoop hart 64 else s)

/-! ### Counters (R227, R249, R278) -/

/-- COMPLETE of a counter (R236, R249). -/
def State.completeMsg (s : State) (id : Nat) : Msg :=
  let c := s.counter id
  { header := mkHeader 3 0xFFF 0 (c.tenant.getD 0).toNat 2 0 0 2 false
    payload := [BitVec.ofNat 64 (id / 4096 * 4096 + id % 4096), flag (s.isMarked id)] }

/-- A pending launch no longer waits for a predecessor whose counter holds 0 (R278): its number leaves dword 2. -/
def Launch.satisfy (l : Launch) (id : Nat) : Launch :=
  let w := l.record.getD 2 0
  let kept (i : Nat) : Nat :=
    let p := bits w (16 * i) 16
    if launchCounter (BitVec.ofNat 16 p) = some id then 0 else p
  { l with record := l.record.set 2 (BitVec.ofNat 64 (kept 0 + kept 1 * 2 ^ 16 + kept 2 * 2 ^ 32 + kept 3 * 2 ^ 48)) }

/-- A counter has reached 0: COMPLETE to every listener, then the parent's count (R249); launches that wait for it no
longer do (R278). -/
def State.counterZero (s : State) (id : Nat) : State :=
  let s := { s with launches := s.launches.map fun (l : Launch) => if l.injecting then l else l.satisfy id }
  let c := s.counter id
  let src : Node := .dieSup (id / 4096)
  let m := s.completeMsg id
  let s := c.listeners.foldl (fun s h =>
    s.sendFree src (.tile (hartVt h)) (.message (BitVec.ofNat 64 (hartSlot h * 4096 + hartVt h)) m none none false)) s
  let s := if c.panelListens then s.sendFree src .panelSup (.message 0xFFF m none none false) else s
  match c.parent with
  | some p => s.sendFree src (.dieSup (p / 4096)) (.counterUpdate p (-1) 0 none none none)
  | none => s

/-- The record of an update out of range (R249). -/
def State.counterFault (s : State) (id : Nat) (delta : Int) (l : BitVec 16) (hart : Option Nat) : State :=
  let c := s.counter id
  let (vt, slot) := match hart with
    | some h => if isSup h then (0xFFF, 0) else (hartVt h, hartSlot h)
    | none => (0xFFF, 0)
  s.postPanelEvent (id / 4096) (c.tenant.getD 0) l
    [BitVec.ofNat 64 id, BitVec.ofInt 64 delta, c.value.zeroExtend 64, BitVec.ofNat 64 (l.toNat * 2 ^ 32), 0]
    (kind3 vt slot 2)

/-- An update applied, or left with a record when it leaves the range (R249). -/
def State.counterAdd (s : State) (id : Nat) (delta : Int) (l : BitVec 16) (hart : Option Nat) : State :=
  let c := s.counter id
  let n := (c.value.toNat : Int) + delta
  if n < 0 ∨ 2 ^ 32 ≤ n then s.counterFault id delta l hart
  else
    let s := s.setCounter id { c with value := BitVec.ofInt 32 n }
    if n = 0 ∧ c.value ≠ 0 then s.counterZero id else s

/-- The launch whose counter this is. -/
def counterLaunch (id : Nat) : BitVec 16 :=
  if id % 4096 < 1024 then BitVec.ofNat 16 (id / 4096 * 1024 + id % 4096) else 0

/-- A launch counter about to reach 0 waits until the launch's addends have outcomes: its tails are forced out (R222,
R227). -/
def State.forceLaunch (s : State) (l : BitVec 16) : State :=
  s.tiles.foldl (fun s (v, _) => s.forceOut v none (fun e => e.key.launch == l) 128) s

/-- The acknowledgement of an update that a message or a completion waits for (R249). -/
def State.counterReply (s : State) (p : Packet) (hart entry mreq : Option Nat) : State :=
  if entry.isSome || mreq.isSome then
    let vt := match p.src with | .tile v => v | _ => 0
    s.sendFree p.dst p.src (.counterAck hart entry mreq vt)
  else s

/-- COUNTER_UPDATE (R249, R384). -/
def State.counterUpdate (s : State) (id : Nat) : State :=
  match s.packet id with
  | none => s
  | some p =>
    match p.body with
    | .counterUpdate c delta l hart entry mreq =>
      if p.outOfTurn then s
      else
        match s.verdict p with
        | .duplicate => (s.dropPacket id).counterReply p hart entry mreq
        | .outOfTurn => s.returnPacket id
        | .inTurn =>
          let own := counterLaunch c
          if own != 0 && ((s.counter c).value.toNat : Int) + delta == 0 && !s.launchQuiet own then s.forceLaunch own
          else (((s.acceptPacket p).dropPacket id).counterAdd c delta l hart).counterReply p hart entry mreq
    | .cancel c _ =>
      if p.outOfTurn then s
      else
        match s.verdict p with
        | .duplicate => s.dropPacket id
        | .outOfTurn => s.returnPacket id
        | .inTurn => ((s.acceptPacket p).dropPacket id).markLevel c
    | _ => s

/-- COUNTER_UPDATE. -/
def execCounterUpdate (packet : Nat) (s : State) : Answer := .next (s.counterUpdate packet)

/-- A stopped VT leaves answers in the network; an acknowledgement is not logged, so a replay takes it as it comes. -/
def State.holdsAnswers (s : State) (n : Node) : Bool :=
  match n with
  | .tile v => (s.tile v).gate != .takes && (s.tile v).cond != .replay
  | _ => false

/-- COUNTER_UPDATE_ACK (R249): the message may leave the send queue, the completion may be posted. -/
def State.counterUpdateAck (s : State) (id : Nat) : State :=
  match s.packet id with
  | none => s
  | some p =>
    match p.body with
    | .counterAck hart entry mreq vt =>
      if s.holdsAnswers p.dst then s
      else
        let s := s.dropPacket id
        let s := match hart, entry with
          | some h, some e =>
            (s.onHart h fun x => { x with
              sendq := x.sendq.map fun (o : SendEntry) => if o.id == e then { o with acked := true } else o }).pumpSends h 16
          | _, _ => s
        match mreq with
        | some m => (s.onTile vt fun t => { t with
            mreqs := t.mreqs.map fun (o : Mreq) => if o.id == m then { o with acked := true } else o }).finishMreq vt m
        | none => s
    | _ => s

/-- COUNTER_UPDATE_ACK. -/
def execCounterUpdateAck (packet : Nat) (s : State) : Answer := .next (s.counterUpdateAck packet)

/-! ### Load levelling (R251) -/

/-- Waiting messages of c1. -/
def Hart.shared (x : Hart) : Nat := ((entryAt x.chans 1 []).filter fun m => !m.running).length

def State.sharedOf (s : State) (v : Nat) : Nat := ((List.range 4).map fun i => (s.hart (v * 4 + i)).shared).sum

/-- The VT takes part in an exchange: it runs or drains. -/
def State.levels (s : State) (v : Nat) : Bool :=
  !(s.tile v).failed && (match (s.tile v).cond with
    | .running => true
    | .drain => true
    | _ => false)

/-- The neighbours on the virtual mesh of the die, in the same tenant, lowest VT first; a lost VT is in none (R327). -/
def State.levelNeighbours (s : State) (v : Nat) : List Nat :=
  let i := v % 64
  let near := [if 8 ≤ i then some (v - 8) else none, if i % 8 = 0 then none else some (v - 1)
    , if i % 8 = 7 then none else some (v + 1), if i < 56 then some (v + 8) else none].filterMap id
  near.filter fun w => s.tenants.any fun (t, _) =>
    s.inTenant (BitVec.ofNat 6 t) v && s.inTenant (BitVec.ofNat 6 t) w

/-- The first of a list whose count is greatest. -/
def mostOf (f : Nat → Nat) : List Nat → Option Nat
  | [] => none
  | a :: as => match mostOf f as with
    | none => some a
    | some b => if f b ≤ f a then some a else some b

/-- The youngest waiting c1 message that has not moved in this interval, with the others. -/
def takeShared (turn : Nat) (l : List Slot) : Option (Slot × List Slot) :=
  let r := l.reverse
  let stays (m : Slot) : Bool := m.running || m.moved == some turn
  match r.dropWhile stays with
  | [] => none
  | m :: rest => some (m, rest.reverse ++ (r.takeWhile stays).reverse)

/-- One move of an exchange; a message stays where the receiving channel has no free slot. -/
def State.levelMove (s : State) (v w turn : Nat) : State :=
  let slots (u : Nat) : List Nat := (List.range 4).map fun i => u * 4 + i
  match mostOf (fun h => (s.hart h).shared) (slots v), leastOf (fun h => (s.hart h).shared) (slots w) with
  | some a, some b =>
    match takeShared turn (entryAt (s.hart a).chans 1 []) with
    | none => s
    | some (m, rest) =>
      if 8 ≤ (entryAt (s.hart b).chans 1 []).length then s
      else
        let s := (s.onHart a fun x => { x with chans := onAt x.chans 1 fun _ => rest }).logAt v w (.dispatch a movedAway)
        (s.onHart b fun x => { x with
          chans := onAt x.chans 1 fun l => l ++ [{ m with moved := some turn }] }).logAt w v (.placed b 1 m.msg)
  | _, _ => s

/-- LOAD_LEVEL (R251): one exchange in an interval, with the neighbour whose count is smallest, if that takes part. -/
def State.loadLevel (s : State) (v : Nat) : State :=
  let t := s.tile v
  let n := t.llint.toNat
  if n = 0 ∨ s.cycle v % n ≠ 0 ∨ !s.levels v ∨ t.levelled = some (s.cycle v) then s
  else
    let turn := s.cycle v / n
    let s := s.onTile v fun t => { t with levelled := some (s.cycle v) }
    match leastOf s.sharedOf (s.levelNeighbours v) with
    | none => s
    | some w =>
      let d := s.sharedOf v
      let e := s.sharedOf w
      if d < e + 2 || !s.levels w then s
      else (List.range (min 4 ((d - e) / 2))).foldl (fun s _ => s.levelMove v w turn) s

/-- LOAD_LEVEL. -/
def execLoadLevel (vt : Nat) (s : State) : Answer := .next (s.loadLevel vt)

/-! ### Barriers at their homes (R264, R266) -/

/-- complete(b) of R266: the phase completes, the members that leave are gone and the next phase begins; a second round
would find no arrivals and none that leave. -/
def Barrier.complete (b : Barrier) : Barrier :=
  if b.members ≤ b.arr ∧ (b.arr ≠ 0 ∨ b.pend ≠ 0) then
    { members := b.members - b.pend, arr := 0, pend := 0, ph := b.ph + 1 }
  else b

/-- An operation at its home (R266). -/
def Barrier.apply (b : Barrier) (op : BarrierOp) : Barrier :=
  match op with
  | .init n => ({ members := n, arr := 0, pend := 0, ph := b.ph + 1 } : Barrier).complete
  | .join => ({ b with members := if b.members = 65535 then b.members else b.members + 1 }).complete
  | .arrive => ({ b with arr := b.arr + 1 }).complete
  | .drop arrives => ({ b with arr := if arrives then b.arr + 1 else b.arr, pend := b.pend + 1 }).complete

/-- The tile with the operation applied to its entry. -/
def Tile.barrierOp (t : Tile) (w : BitVec 17) (op : BarrierOp) : Tile :=
  let i := w.toNat / 4096
  { t with barriers := t.barriers.put i ((t.barriers.get i { members := 0, arr := 0, pend := 0, ph := 0 }).apply op) }

/-- BARRIER_OP_APPLY (R264, R266): a stopped home holds the operation in the network. -/
def State.barrierOp (s : State) (id : Nat) : State :=
  match s.packet id with
  | none => s
  | some p =>
    match p.body, p.dst with
    | .barrier w op h, .tile v =>
      if p.outOfTurn || (s.tile v).gate != .takes then s
      else
        match s.verdict p with
        | .duplicate => s.dropPacket id
        | .outOfTurn => s.returnPacket id
        | .inTurn =>
          let b := (s.tile v).barriers.get (w.toNat / 4096) { members := 0, arr := 0, pend := 0, ph := 0 }
          let s := (((s.acceptPacket p).dropPacket id).onTile v fun t => t.barrierOp w op).logAt v (hartVt h) (.barrierOp w op)
          match op with
          | .arrive => (s.logAt (hartVt h) v (.answer (.barrier w (.init b.ph) h))).recordPhase h w b.ph
          | _ => s
    | _, _ => s

/-- BARRIER_OP_APPLY. -/
def execBarrierOpApply (packet : Nat) (s : State) : Answer := .next (s.barrierOp packet)

end Sys2Proof.Machine
end

