-- ==== Sys2Proof/Machine/DieSup.lean ====
section
/-! DEFINITION. What the die supervisors do with their mailboxes and with parked harts, and the steps that take a pending
trap or interrupt (R128, R267, R283, R288, R292-R294, R304, R388, R397). -/

namespace Sys2Proof.Machine

/-! ### Mailboxes (R293, R361) -/

/-- The oldest message of a class, with the others. -/
def takeMail (f : Msg → Bool) : List (Node × Nat × Msg) → Option ((Node × Nat × Msg) × List (Node × Nat × Msg))
  | [] => none
  | e :: es =>
    if f e.2.2 then some (e, es)
    else
      match takeMail f es with
      | none => none
      | some (m, rest) => some (m, e :: rest)

def Msg.word (m : Msg) (i : Nat) : Word := m.payload.getD i 0

/-- A kind-3 record whose a0 and cause the spec does not state, for a message that failed its supervisor's checks
(notes/assumptions/19.md). -/
def State.postOpen (s : State) (d : Nat) (m : Msg) : State :=
  let (a0, s) := s.freeWord
  let (code, s) := s.freeBelow 256
  s.postPanelEvent d (hdrTenant m.header) (hdrLaunch m.header) [a0, 0, 0, 0, 0]
    (kind3 (hdrVt m.header) (hdrHart m.header) code)

/-- The sender is a supervisor hart (R292). -/
def fromSupervisor (n : Node) : Bool :=
  match n with
  | .tile _ => false
  | _ => true

/-! ### TIMERSET (R292) -/

/-- What a TIMERSET must satisfy. -/
def State.timerAllowed (s : State) (d : Nat) (src : Node) (m : Msg) : Bool :=
  let h := (m.word 0).toNat
  decide (h < 12288) && hartDie h == d && (fromSupervisor src || s.inTenant (hdrTenant m.header) (hartVt h))

/-- TIMERSET (R292). -/
def execTimerset (die : Nat) (s : State) : Answer :=
  .next (match takeMail (fun m => hdrClass m.header == 6) (s.die die).mailbox with
    | none => s
    | some ((src, _, m), rest) =>
      let s := s.onDie die fun x => { x with mailbox := rest }
      if s.timerAllowed die src m then
        s.onHart (m.word 0).toNat fun x => { x with timer := if m.word 1 = 0 then none else some (m.word 1).toNat }
      else s.postOpen die m)

/-- TIMER_DEADLINE (R292): the deadline is forgotten and the interrupt requested. -/
def execTimerDeadline (hart : Nat) (s : State) : Answer :=
  let x := s.hart hart
  .next (if x.timer.any (fun t => decide (t ≤ s.tick)) then
    (s.setHart hart { x with timer := none }).requestInterrupt hart 0 0
    else s)

/-! ### ROUTESET (R283) -/

/-- The tables a ROUTESET carries: entry i in dword a1 + (i div 21). -/
def Msg.routeTable (m : Msg) : List (BitVec 3) :=
  (List.range 112).map fun i => BitVec.ofNat 3 (bits (m.word (1 + i / 21)) (3 * (i % 21)) 3)

/-- The ports of a route, with new tables on one die for the area's routers of one class; none where it leaves the area or
has no end. -/
def State.routePorts (s : State) (t : Tenant) (cls d : Nat) (table : List (BitVec 3)) (v dst : Nat) :
    Nat → Option (List Nat)
  | 0 => none
  | n + 1 =>
    if v = dst then some []
    else
      let port := if vtDie v = d then
          (table.getD (if vtDie dst = d then 48 + dst % 64 else vtDie dst) 0).toNat
        else s.routePort cls v dst
      match stepPort v port with
      | none => none
      | some w => if t.hasVt w then (s.routePorts t cls d table w dst n).map (port :: ·) else none

/-- All moves of one dimension come before all of the other: X moves are ports 2 and 4. -/
def ordered (yFirst : Bool) (ports : List Nat) : Bool :=
  let first (p : Nat) : Bool := if yFirst then p == 1 || p == 3 else p == 2 || p == 4
  !((ports.dropWhile first).any first)

/-- The supervisor accepts the tables (R283). -/
def State.routesAccepted (s : State) (t : Tenant) (cls d : Nat) (table : List (BitVec 3)) : Bool :=
  let area := (List.range 3072).filter t.hasVt
  let routes := (area.filter fun v => vtDie v == d).flatMap fun v => area.map fun w => s.routePorts t cls d table v w 128
  let ports := routes.filterMap id
  routes.all (·.isSome) && (ports.all (ordered false) || ports.all (ordered true))

/-- ROUTESET (R283). -/
def execRouteset (die : Nat) (s : State) : Answer :=
  .next (match takeMail (fun m => hdrClass m.header == 4) (s.die die).mailbox with
    | none => s
    | some ((_, _, m), rest) =>
      let s := s.onDie die fun x => { x with mailbox := rest }
      let cls := bits (m.word 0) 0 2
      match s.tenants.find (hdrTenant m.header).toNat with
      | none => s.postOpen die m
      | some t =>
        if bits (m.word 0) 2 62 = 0 ∧ hdrLen m.header = 7 ∧ s.routesAccepted t cls die m.routeTable then
          let own := (List.range 64).map (die * 64 + ·) |>.filter t.hasVt
          s.onDie die fun x => { x with routes := own.foldl (fun r v => r.put (routeKey v cls) m.routeTable) x.routes }
        else s.postOpen die m)

/-! ### PARKCTL (R294) -/

/-- The oldest PARKCTL of an action. -/
def State.parkctl (s : State) (d : Nat) (f : Nat → Bool) :
    Option ((Node × Nat × Msg) × List (Node × Nat × Msg)) :=
  match takeMail (fun m => hdrClass m.header == 5) (s.die d).mailbox with
  | some (e, rest) => if f (bits (e.2.2.word 0) 0 8) then some (e, rest) else none
  | none => none

/-- The parked hart that a PARKCTL names (R294): on this die, and of the sender's tenant. -/
def State.parkedHart (s : State) (d : Nat) (m : Msg) : Option (Nat × ParkState) :=
  let h := (m.word 1).toNat
  if bits (m.word 0) 8 56 = 0 ∧ h < 12288 ∧ hartDie h = d ∧ (s.hart h).csr.tenant = hdrTenant m.header then
    (s.hart h).parked.map fun p => (h, p)
  else none

/-- PARKCTL action 0 (R294); an action that the rule does not name is answered like a failed one. -/
def execParkctlRegister (die : Nat) (s : State) : Answer :=
  .next (match s.parkctl die (fun a => a != 1 && a != 2) with
    | none => s
    | some ((_, _, m), rest) =>
      let s := s.onDie die fun x => { x with mailbox := rest }
      let h := (m.word 1).toNat
      let tenant := hdrTenant m.header
      let own := decide (h = 0xFFFFFFFF) || (decide (h < 12288) && s.inTenant tenant (hartVt h))
      if m.word 0 = 0 ∧ own ∧ (m.word 2).toNat % 16384 = 0 then
        let r : FaultReg := { hart := if h = 0xFFFFFFFF then none else some h, dump := (m.word 2).toNat }
        s.onDie die fun x => { x with faultRegs := x.faultRegs.put tenant.toNat r }
      else s.postOpen die m)

/-- A park ends with its frame reloaded and the parking trap taken at K as though KDELEG allowed it (R294). -/
def State.resumeParked (s : State) (h : Nat) (p : ParkState) : State :=
  if s.frameWord h 336 &&& ~~~(3#64) = 0 then s.postPark h (s.hart h) p.cause.toNat p.tval p.word p.mode 0
  else
    let s := s.reloadFrame h
    (s.onHart h fun x => x.enterK p.cause.toNat p.tval x.pc).trace h 2 (s.hart h).csr.ktvec

/-- PARKCTL action 1 RESUME (R294). -/
def execParkctlResume (die : Nat) (s : State) : Answer :=
  .next (match s.parkctl die (· == 1) with
    | none => s
    | some ((_, _, m), rest) =>
      let s := s.onDie die fun x => { x with mailbox := rest }
      match s.parkedHart die m with
      | some (h, p) => if p.cause.toNat = Cause.ecallK.code then s.postOpen die m else s.resumeParked h p
      | none => s.postOpen die m)

/-- The mark of a DISCARD whose frame has been loaded and whose barriers have been dropped. -/
def discardBegun : Nat := 2 ^ 32

/-- The end of a discarded task: its count goes down by every child it holds, and the hart returns to dispatch (R243,
R294). -/
def State.finishDiscard (s : State) (h : Nat) : State :=
  let x := s.hart h
  let s := s.updateLaunch h x.csr.launchid (-(x.csr.inld.toNat + 1 : Int)) (some h) none none
  (s.onHart h fun x => { x with parked := none, csr := { x.csr with inld := 0 }, withdrawnSfu := [] }).freeTask h

/-- One look at a DISCARD (R243, R267, R294): it waits as TEND does, drops the barriers of the frame, then ends the task. -/
def State.discard (s : State) (d h : Nat) (p : ParkState) (e : Node × Nat × Msg) (rest : List (Node × Nat × Msg)) : State :=
  if !s.drained h || !s.roomItems h 4 then s
  else if !s.zeroFlushed h then s.forceOut (hartVt h) none (fun t => t.key.launch == 0) 128
  else if e.2.1 < discardBegun then
    let s := (s.reloadFrame h).onHart h fun x => { x with parked := some p }
    (s.dropBarriers h).onDie d fun x => { x with mailbox := (e.1, e.2.1 + discardBegun, e.2.2) :: rest }
  else if s.barrierOpsOut h then s
  else (s.onDie d fun x => { x with mailbox := rest }).finishDiscard h

/-- PARKCTL action 2 DISCARD (R294). -/
def execParkctlDiscard (die : Nat) (s : State) : Answer :=
  .next (match s.parkctl die (· == 2) with
    | none => s
    | some (e, rest) =>
      match s.parkedHart die e.2.2 with
      | some (h, p) => s.discard die h p e rest
      | none => (s.onDie die fun x => { x with mailbox := rest }).postOpen die e.2.2)

/-- FRAME_RELOAD (R294): firmware lets a parked hart go on. -/
def execFrameReload (hart : Nat) (s : State) : Answer :=
  .next (if (s.hart hart).parked.isSome then s.reloadFrame hart else s)

/-! ### ECALL_K (R397) -/

/-- The results a0-a6 of a call. -/
def State.kService (s : State) (d : Nat) (a7 : Nat) (args : List Word) : List Word :=
  let none_ : List Word := [0xFFFFFFFFFFFFFFFF, 0, 0, 0, 0, 0, 0]
  match a7 with
  | 0 => [Config.firmwareVersion, BitVec.ofNat 64 s.panel, BitVec.ofNat 64 d, 0, 0, 0, 0]
  | 1 => [BitVec.ofNat 64 (s.die d).lostRecords, 0, 0, 0, 0, 0, 0]
  | n => if n < 256 then (Config.firmwareCall n args).getD none_ else none_

/-- Dwords written into a hart's frame. -/
def State.writeFrame (s : State) (h i : Nat) (ws : List Word) : State :=
  { s with mem := memWrite s.mem (sliceKey (hartVt h) (frameOff h + 8 * i)) (solid (ws.flatMap fun w => natBytes 8 w.toNat)) }

/-- ECALL_K_SERVICE (R294, R397): results into the frame, its PC past the call, and the frame reloaded. -/
def execEcallKService (hart : Nat) (s : State) : Answer :=
  .next (match (s.hart hart).parked with
    | none => s
    | some p =>
      if p.cause.toNat ≠ Cause.ecallK.code then s
      else
        let args := (List.range 7).map fun i => s.frameWord hart (4 + i)
        let r := s.kService (hartDie hart) (s.frameWord hart 11).toNat args
        let pc := s.frameWord hart 328
        (((s.writeFrame hart 4 ((List.range 7).map fun i => r.getD i 0)).writeFrame hart 328 [pc + 4]).reloadFrame hart))

/-! ### Fault records and dumps (R293, R304) -/

/-- Who a record speaks of: its VT and hart, kind, and launch. -/
def recordHart (m : Msg) : Nat := bits (m.word 5) 20 12 * 4 + bits (m.word 5) 18 2
def recordKind (m : Msg) : Nat := bits (m.word 5) 16 2

/-- A record goes to its tenant's fault hart, or stays in the log that the host reads (R293, R359, R360). -/
def State.forwardRecord (s : State) (d : Nat) (m : Msg) : State :=
  let tenant := hdrTenant m.header
  match ((s.die d).faultRegs.find tenant.toNat).bind (·.hart) with
  | some h =>
    s.sendFree (.dieSup d) (.tile (hartVt h)) (.message (BitVec.ofNat 64 (hartSlot h * 4096 + hartVt h)) m none none false)
  | none =>
    let s := s.onDie d fun x => { x with faultLog := x.faultLog ++ [m] }
    let record := m.header :: (List.range 7).map m.word
    let b := s.host
    { s with host := { b with
      faultLog := if b.faultLog.length < 1024 then b.faultLog ++ [record] else b.faultLog.set b.flogHead record
      flogHead := (b.flogHead + 1) % 1024, msix := b.msix ++ [1] } }

/-- A physical address as a supervisor names it (R388): a stack offset of a die. -/
def State.supPlace (s : State) (pa : Nat) : Option Place :=
  let d := pa / 2 ^ 36 % 128
  if pa / 2 ^ 43 = s.panel ∧ d < 48 ∧ pa % 2 ^ 36 < stackBytes then some (hbmPlace d (pa % 2 ^ 36)) else none

/-- The record belongs to the context that is being dumped (R304). -/
def Dump.matches (x : Dump) (m : Msg) : Bool := recordHart m == x.hart && hdrLaunch m.header == x.launch

/-- A record that arrives while its context is dumped (R304). -/
def Dump.append (x : Dump) (m : Msg) : Dump :=
  if x.records.length < 63 then { x with records := x.records ++ [(List.range 6).map m.word] } else { x with incomplete := true }

/-- The record that the supervisor takes next: during a dump only one of the same context, others wait (R304). -/
def State.nextRecord (s : State) (d : Nat) : Option ((Node × Nat × Msg) × List (Node × Nat × Msg)) :=
  let fault (m : Msg) : Bool := hdrClass m.header == 0x0F
  match ((s.die d).dumps.find? (·.started)) with
  | some x => takeMail (fun m => fault m && x.matches m && recordKind m != 2) (s.die d).mailbox
  | none => takeMail fault (s.die d).mailbox

/-- The dump area that a tenant registered with a die supervisor; 0 for none. -/
def State.dumpArea (s : State) (d : Nat) (t : BitVec 6) : Nat := ((s.die d).faultRegs.get t.toNat { hart := none, dump := 0 }).dump

/-- A record is appended to the first dump of its context (R304). -/
def appendRecord (m : Msg) : List Dump → List Dump
  | [] => []
  | x :: xs => if x.matches m then x.append m :: xs else x :: appendRecord m xs

/-- A record is taken from the mailbox: a park of a tenant with a dump area is dumped before its record goes on; any other
is appended to the dump of its context, which is under way or to come, and goes on (R293, R304). -/
def State.takeRecord (s : State) (die : Nat) (m : Msg) (rest : List (Node × Nat × Msg)) : State :=
  let s := s.onDie die fun x => { x with mailbox := rest }
  let area := s.dumpArea die (hdrTenant m.header)
  if recordKind m = 2 ∧ area ≠ 0 then
    s.onDie die fun x => { x with dumps := x.dumps ++
      [{ hart := recordHart m, launch := hdrLaunch m.header, tenant := hdrTenant m.header, record := m, area := area, records := []
         incomplete := false, started := false }] }
  else
    (s.onDie die fun x => { x with dumps := if recordKind m = 2 then x.dumps else appendRecord m x.dumps }).forwardRecord die m

/-- FAULT_RECORD (R293, R304). -/
def execFaultRecord (die : Nat) (s : State) : Answer :=
  .next (match s.nextRecord die with
    | none => s
    | some ((_, _, m), rest) => s.takeRecord die m rest)

/-- A copy of a die supervisor to the dump area (R304), whose lines count (R100), and whether the area takes it. -/
def State.dumpWrite (s : State) (d area off : Nat) (ws : List Word) : State × Bool :=
  match s.supPlace (area + off) with
  | none => (s, false)
  | some p =>
    let s := s.serveLines d p (8 * ws.length)
    if s.badLines.any (fun l => decide (p.line ≤ l ∧ l * 128 < p.key + 8 * ws.length)) then (s, false)
    else (s.write (some (3840 + d)) p (solid (ws.flatMap fun w => natBytes 8 w.toNat)) none, true)

/-- The status dword (R304). -/
def Dump.status (x : Dump) (incomplete : Bool) : Word :=
  BitVec.ofNat 64 (x.hart * 2 ^ 32 + x.records.length * 2 ^ 8 + incomplete.toNat * 2 + 1)

/-- The dump's secondary records and status, then the record, with the area's PA once VALID is written (R293, R304). -/
def State.finishDump (s : State) (d area : Nat) (x : Dump) (rest : List Dump) : State :=
  let (s, taken) := if x.records.isEmpty then (s, true) else s.dumpWrite d area 0x1000 (x.records.flatMap (· ++ [0, 0]))
  let (s, valid) := s.dumpWrite d area 0x3FF8 [x.status (x.incomplete || !taken)]
  let s := s.onDie d fun y => { y with dumps := rest }
  s.forwardRecord d (if valid then { x.record with payload := x.record.payload.set 4 (BitVec.ofNat 64 area) } else x.record)

/-- PARK_DUMP (R304): the frame is copied, or the dump in progress is completed, a record of its context that waits in the
mailbox first. -/
def execParkDump (die : Nat) (s : State) : Answer :=
  .next (match (s.die die).dumps with
    | [] => s
    | x :: rest =>
      if x.started then
        match s.nextRecord die with
        | some ((_, _, m), mail) => s.takeRecord die m mail
        | none => s.finishDump die x.area x rest
      else
        let frame := (List.range 512).map fun i => s.frameWord x.hart i
        let (s, taken) := s.dumpWrite die x.area 0 frame
        s.onDie die fun y => { y with dumps := { x with started := true, incomplete := x.incomplete || !taken } :: rest })

/-! ### Traps and interrupts as steps (R288, R292) -/

/-- TRAP_ENTRY (R288): a trap that waits for the hart's boundary is taken there. -/
def execTrapEntry (hart : Nat) (s : State) : Answer :=
  .next (if s.stopped hart || s.inCkpt hart || (s.hart hart).lwaitSince.isSome || (s.interruptDue hart).isSome then s
    else if s.trapDue hart then { s.pendingTrap hart with cur := hart }.afterIssue hart
    else s.pendingTrap hart)

/-- INTERRUPT_ENTRY (R292, R351): the interrupt due at the hart's boundary is taken; 0x86 is a debug halt. -/
def execInterruptEntry (hart : Nat) (s : State) : Answer :=
  let x := s.hart hart
  .next (if x.csr.kip.getLsbD 6 && x.halted.isNone && x.lwaitSince.isNone && !s.inCkpt hart then s.debugHalt hart
    else if (s.interruptDue hart).isSome then { s.interrupt hart with cur := hart }.afterIssue hart
    else s)

end Sys2Proof.Machine
end

