-- ==== Sys2Proof/Machine/System.lean ====
section
/-! DEFINITION. The SYSTEM group: calls, returns, waits, the instruction cache, TLBINV, SAVEPT, CKPT, TSTAMP (R42, R113,
R163, R164, R183, R213, R298-R303, R315). -/

namespace Sys2Proof.Machine

/-- ECALL (R298). -/
def execEcall (sc : BitVec 3) (s : State) : Answer :=
  s.run { sc := sc, reads := [], writes := [], reach := true } fun s =>
    match s.self.mode with
    | .user => .trap .ecallU 0
    | .kernel => .trap .ecallK 0
    | .firmware => s.illegal

/-- EBREAK (R298, R351). -/
def execEbreak (sc : BitVec 3) (s : State) : Answer :=
  s.run { sc := sc, reads := [], writes := [], reach := true } fun s =>
    if bit s.self.csr.dbgctl 5 then .halt else .trap .brk s.self.pc

/-- URET (R164, R321). -/
def execUret (sc : BitVec 3) (s : State) : Answer :=
  s.run { sc := sc, reads := [], writes := [], reach := true } fun s =>
    let x := s.self
    if x.mode ≠ .user ∨ x.csr.uh = false then s.illegal
    else .jump (s.setHart s.cur { x with
      csr := { x.csr with uh := false }, checker := { x.checker with resync := true } }) (x.csr.uepc &&& ~~~(3#64))

/-- KRET (R299, R321). -/
def execKret (sc : BitVec 3) (s : State) : Answer :=
  s.run { sc := sc, reads := [], writes := [], reach := true, low := .kernel } fun s =>
    let x := s.self
    if x.mode ≠ .kernel ∨ 1 < x.csr.pm.toNat then s.illegal
    else
      .leave (s.setHart s.cur { x.drain with
        mode := if x.csr.pm = 0 then .user else .kernel
        pc := x.csr.kepc &&& ~~~(3#64)
        csr := { x.csr with ie := x.csr.pie }
        checker := { x.checker with resync := x.checker.resync || x.csr.pm == 0 } })

/-- FRET (R299). -/
def execFret (sc : BitVec 3) (s : State) : Answer :=
  s.run { sc := sc, reads := [], writes := [], reach := true, low := .firmware } fun s =>
    let x := s.self
    .leave (s.setHart s.cur { x.drain with
      pc := x.csr.fepc &&& ~~~(3#64)
      csr := { x.csr with fIe := x.csr.fPie } })

/-- Something to wake a WFI (R302): an enabled pending interrupt, or a waiting message. -/
def State.awake (s : State) (h : Nat) : Bool :=
  let x := s.hart h
  (x.csr.kip.zeroExtend 64 &&& x.csr.kie) != 0 || (x.chans.toList.any fun c => c.any fun m => !m.running)
    || (isSup h && !(s.die (hartDie h)).mailbox.isEmpty)

/-- WFI (R302): once it waits, an interrupt that ends it is taken after it has retired. -/
def execWfi (sc : BitVec 3) (s : State) : Answer :=
  s.run { sc := sc, reads := [], writes := [], reach := true, low := .kernel } fun s =>
    if s.awake s.cur then .done s else .wait (s.onHart s.cur fun x => { x with wfi := some x.seq })

/-- FENCE.I (R303). -/
def execFenceI (sc : BitVec 3) (s : State) : Answer :=
  s.run { sc := sc, reads := [], writes := [], reach := true } fun s =>
    if s.self.posted.isEmpty then .done (s.onTile (hartVt s.cur) fun t => { t with icache := [] }) else .wait s

/-! ### TLBINV (R113) -/

/-- An entry of a TLB stays. -/
def TlbEntry.stays (t : TlbEntry) (tenant : BitVec 6) (kind va : Nat) : Bool :=
  t.tenant != tenant || (match kind with
    | 0 => va / t.size != t.va / t.size
    | 1 => bit t.entry 5
    | _ => false)

/-- The VTs whose translations a TLBINV removes: a supervisor has no tile of its own. -/
def State.invScope (s : State) (h : Nat) (wide : Bool) : List Nat :=
  if wide then (List.range 3072).filter (s.inTenant (s.hart h).csr.tenant) else if isSup h then [] else [hartVt h]

/-- The VTs whose accesses a TLBINV waits for: those that its structures serve. -/
def State.invServes (s : State) (h : Nat) (wide : Bool) : List Nat :=
  ((List.range 64).map fun i => hartDie h * 64 + i)
    ++ if wide then (List.range 3072).filter (s.inTenant (s.hart h).csr.tenant) else []

/-- Removal from a die's TLB and from its walk cache. -/
def State.invalidateDie (s : State) (d : Nat) (tenant : BitVec 6) (kind va : Nat) : State :=
  s.onDie d fun x => { x with
    tlb := x.tlb.filter fun e => e.stays tenant kind va
    walks := x.walks.filter fun w => w.tenant != tenant }

/-- Removal from the TLBs of a tile and of its die, and from the die's walk cache. -/
def State.invalidate (s : State) (v : Nat) (tenant : BitVec 6) (kind va : Nat) : State :=
  (s.onTile v fun t => { t with tlb := t.tlb.filter fun e => e.stays tenant kind va }).invalidateDie (vtDie v) tenant kind va

/-- A card's line write through a page of the tenant stands in the tile's hold or has left it (R113). -/
def Tile.pagedCards (t : Tile) (tenant : BitVec 6) : Bool :=
  let mine (card : Nat) (p : Place) : Bool := !p.isSlice && t.window.any fun w => w.card.id == card && w.card.tenant == tenant
  (t.cardWrites.any fun c => mine c.card c.place) || t.egress.any fun i => match i.item with
    | .cardWrite card _ p _ _ => mine card p
    | _ => false

/-- A paged access of the tenant made from a VT before a TLBINV began is still to be performed (R113, R114): writes, reads,
MREQ lines, card writes already translated, and accumulates without an outcome. One that its unit refused has one, and its
later delivery is waited for no more than the hart's own are (notes/assumptions/39.md). -/
def State.pagedOut (s : State) (v : Nat) (tenant : BitVec 6) (b : TlbinvWait) : Bool :=
  let since := b.since
  let paged (va : Word) : Bool := decide (va.toNat < 2 ^ 48)
  ((List.range 4).any fun i =>
    let x := s.hart (v * 4 + i)
    x.csr.tenant == tenant && ((x.posted.any fun w => decide (w.id < since) && paged w.va) || (x.accs.any fun a => b.names.contains a) ||
      x.flights.any fun a => decide (a.id < since) && a.parts.any fun p => paged p.va && !p.status.performed)) ||
    (s.tile v).mreqs.any (fun m => b.names.contains m.id && m.tenant == tenant && paged m.src && !m.pending.isEmpty) ||
    (s.tile v).pagedCards tenant

/-- The removal that a TLBINV begins with. -/
def State.invalidateAll (s : State) (h : Nat) (wide : Bool) (kind va : Nat) : State :=
  let tenant := (s.hart h).csr.tenant
  ((s.invScope h wide).foldl (fun s v => s.invalidate v tenant kind va) s).invalidateDie (hartDie h) tenant kind va

/-- What a TLBINV that begins now waits for. -/
def State.tlbinvStart (s : State) (h : Nat) (wide : Bool) : TlbinvWait :=
  { seq := (s.hart h).seq, since := s.nextId
    names := (s.invServes h wide).flatMap fun v =>
      ((s.tile v).mreqs.map (·.id)) ++ (List.range 4).flatMap fun i => (s.hart (v * 4 + i)).accs }

/-- TLBINV (R113): the removal once, then the wait for what was under way at that time. -/
def execTlbinv (sc : BitVec 3) (a b : BitVec 5) (s : State) : Answer :=
  s.run { sc := sc, reads := [.g a, .g b], writes := [], reach := true, low := .kernel } fun s =>
    let h := s.cur
    let c := s.self.g b
    let kind := bits c 0 2
    if bits c 9 55 ≠ 0 ∨ bits c 2 6 ≠ 0 ∨ kind = 3 then s.illegal
    else if !s.drained h then .wait s
    else
      let begun := s.self.tlbinv.filter fun b => b.seq == s.self.seq
      let s := if begun.isSome then s else s.invalidateAll h (bit c 8) kind (s.self.g a).toNat
      let b := begun.getD (s.tlbinvStart h (bit c 8))
      if (s.invServes h (bit c 8)).any fun v => s.pagedOut v s.self.csr.tenant b then
        .wait (s.onHart h fun x => { x with tlbinv := some b })
      else .done (s.onHart h fun x => { x with tlbinv := none })

/-! ### SAVEPT and CKPT (R183, R213, R300, R301) -/

/-- Interrupt 0x81 is pending and takeable (R292, R300). -/
def Hart.preemptable (x : Hart) : Bool :=
  x.csr.kip.getLsbD 1 && bit x.csr.kie 1 && x.csr.ktvec != 0 && x.mode != .firmware && (x.mode == .user || x.csr.ie)
    && x.task.isSome

/-- The bound of R295 has run out for the pending preemption. -/
def State.preemptLate (s : State) (h : Nat) : Bool :=
  decide ((s.hart h).irq.preemptAt + 210 ≤ s.cycle (hartVt h))

/-- SAVEPT (R300). -/
def execSavept (sc : BitVec 3) (s : State) : Answer :=
  s.run { sc := sc, reads := [], writes := [], reach := true } fun s =>
    let h := s.cur
    let x := s.self
    if s.sfuClear h && s.arrayClear h then
      if x.preemptable && x.board.isEmpty && !s.sfuBusy h then .leave (s.takeInterrupt h 1 (x.pc + 4) true)
      else if x.preemptable then .wait s
      else .done s
    else if x.preemptable && x.board.isEmpty && !s.sfuBusy h && s.preemptLate h then .wait (s.takeInterrupt h 1 x.pc false)
    else .wait s

/-- What the first wait of CKPT waits for (R301). -/
def State.ckptReady (s : State) (h : Nat) : Bool :=
  s.drained h && s.sfuClear h && s.arrayClear h && (s.tile (hartVt h)).ckpting.isNone

/-- CKPT (R301): from its first wait's end the tile stops; it retires once CKPT_COMMIT has written the commit dword. -/
def execCkpt (sc : BitVec 3) (s : State) : Answer :=
  s.run { sc := sc, reads := [], writes := [], reach := true } fun s =>
    let h := s.cur
    s.onTileHart <|
      if s.inCkpt h then
        if (s.tile (hartVt h)).ckpting.any (·.committed) then
          .done (s.onTile (hartVt h) fun t => { t with ckpting := none })
        else .wait s
      else if s.ckptReady h then
        .wait (s.onTile (hartVt h) fun t => { t with
          ckpting := some { by_ := some h, whole := false, committed := false } })
      else .wait s

/-- TSTAMP (R163, R315): one tick for every tile (notes/assumptions/92.md). -/
def execTstamp (sc : BitVec 3) (d : BitVec 5) (s : State) : Answer :=
  s.run { sc := sc, reads := [], writes := [.g d], reach := true } fun s =>
    let r := s.loggedResult s.cur (BitVec.ofNat 64 s.tick)
    .done (r.1.postG d r.2)

end Sys2Proof.Machine
end

