-- ==== Sys2Proof/Machine/Recover.lean ====
section
/-! DEFINITION. Verdicts and checks as they come, the egress gate's turn, checkpoints, rollback and replay (R201, R301, R305,
R308, R311-R319, R321, R322, R325, R327, R328). -/

namespace Sys2Proof.Machine

/-! ### Verdicts and checks (R201, R321, R325) -/

/-- A failure reaches the die supervisor as a trap in F mode (R201, R287, R321); which of its two harts takes it, and the
TVAL, are open (notes/assumptions/22.md). -/
def State.reportFailure (s : State) (v : Nat) (c : Cause) : State :=
  let (i, s) := s.freeBelow 2
  let (w, s) := s.freeWord
  s.onHart (12288 + 2 * vtDie v + i) fun x =>
    { x with pendTraps := x.pendTraps ++ [{ cause := c, tval := w, access := none }] }

/-- A failure of a VT is detected: it stops, its physical tile counts it, and the supervisor is told (R322, R325). -/
def State.failVt (s : State) (v : Nat) (c : Cause) : State :=
  if (s.tile v).failed then s
  else ((s.onTile v fun t => { t with failed := true }).countError v).reportFailure v c

/-- A check or verdict has passed: it holds back no item any more (R319). -/
def Tile.verified (t : Tile) (id : Nat) : Tile := { t with unverified := t.unverified.filter (· != id) }

/-- SCREEN_VERDICT (R201, R385): four cycles after an MMA retired. -/
def execScreenVerdict (vt : Nat) (s : State) : Answer :=
  .next (match (s.tile vt).verdicts with
    | [] => s
    | d :: rest =>
      if s.cycle vt < d.retired + 4 then s
      else
        let s := s.onTile vt fun t => { t with verdicts := rest }
        if d.pass then s.onTile vt fun t => t.verified d.id
        else (s.logNote (vtDie vt) (.screenFail (s.ptOf vt) (hartSlot d.hart) d.row)).failVt vt .screenFail)

/-- BLOCK_CHECK (R321): four cycles after a block's last retirement. -/
def execBlockCheck (hart : Nat) (s : State) : Answer :=
  let v := hartVt hart
  .next (match (s.hart hart).checker.pending with
    | [] => s
    | c :: rest =>
      if s.cycle v < c.retired + 4 then s
      else
        let s := s.onHart hart fun x => { x with checker := { x.checker with pending := rest } }
        if c.pass then s.onTile v fun t => t.verified c.checkId else s.failVt v .sigMismatch)

/-- EGRESS_RELEASE (R319). -/
def execEgressRelease (vt : Nat) (s : State) : Answer := .next (s.release vt)

/-! ### Checkpoints (R301, R313, R314, R316, R317) -/

/-- The moon of a VT, and the VT whose moon it is (R312). -/
def moonOf (v : Nat) : Nat := v ^^^ 1

/-- The harts of a tile. -/
def tileHarts (v : Nat) : List Nat := (List.range 4).map fun i => v * 4 + i

/-- CKPT_INTERVAL (R314). -/
def execCkptInterval (hart : Nat) (s : State) : Answer :=
  let x := s.hart hart
  let n := x.csr.ckptctl.toNat
  .next (if isSup hart || n == 0 || decide (s.tick < x.ckptDue) then s
    else (s.setHart hart { x with ckptDue := x.ckptDue + n }).requestInterrupt hart 3 0)

/-- A checkpoint of the tile may begin: it runs or drains, and none is in progress (R307, R328). -/
def Tile.mayCkpt (t : Tile) : Bool :=
  !t.failed && t.ckpting.isNone && (match t.cond with
    | .running => true
    | .drain => true
    | _ => false)

/-- A checkpoint that firmware forces begins, and the die's log says so (R316, R317, R385). -/
def State.forceCkpt (s : State) (v : Nat) (whole : Bool) : State :=
  (s.onTile v fun t => { t with ckpting := some { by_ := none, whole := whole, committed := false } }).logNote (vtDie v)
    (.forcedCkpt v)

/-- The forced checkpoint of R317 begins as soon as the tile may take one. -/
def State.forceDue (s : State) (v : Nat) : State :=
  if decide (v < 3072) && !(s.tile v).hasCkpt && (s.tile v).mayCkpt then s.forceCkpt v true else s

/-- LOG_FORCED_CKPT (R316). -/
def execLogForcedCkpt (vt : Nat) (s : State) : Answer :=
  .next (if (s.tile vt).logFull && (s.tile vt).mayCkpt then s.forceCkpt vt false else s)

/-- MOON_FORCED_CKPT (R317). -/
def execMoonForcedCkpt (vt : Nat) (s : State) : Answer :=
  .next (s.forceDue vt)

/-- A hart is at a boundary with nothing that a checkpoint must wait for: R183, R213, and abandoning reaches it (R301). The
SFU entries of a parked or halted hart are copied as they are. -/
def State.hartQuiet (s : State) (h : Nat) : Bool :=
  let x := s.hart h
  (x.halted.isSome || x.parked.isSome || s.sfuClear h) && s.arrayClear h && s.mayAbandon h && x.board.isEmpty
    && !(s.abandon h).sfuBusy h

/-- No instruction of the tile is unchecked (R313): a block that nothing has retired in holds none. -/
def State.tileChecked (s : State) (v : Nat) : Bool :=
  let t := s.tile v
  t.verdicts.isEmpty && t.unverified.all fun id => (tileHarts v).any fun h =>
    (s.hart h).checker.block.any fun b => b.checkId == id && b.folded == 0

/-- The copy of a checkpoint that has begun can complete (R301, R313); not at a tile without a clock (R348). -/
def State.ckptDone (s : State) (v : Nat) : Bool :=
  let t := s.tile v
  t.ckpting.any (fun c => !c.committed) && !t.failed && (t.cond == .running || t.cond == .drain) && !s.unclocked v
    && (tileHarts v).all s.hartQuiet && t.egress.isEmpty && s.tileChecked v

/-- Lines that an increment of the tile takes in the moon region: those written, and the state image of 64 KiB (R313). -/
def Tile.incrementLines (t : Tile) : Nat := t.dirty.length + 512

/-- Lines that the moon region holds as increments (R313). -/
def incrementLimit : Nat := 4608

/-- The next checkpoint would pass the limit of the increments, so those that are pending are merged first (R313). -/
def Tile.mustMerge (t : Tile) : Bool :=
  t.increments != 0 && !t.ckpting.any (·.whole) && decide (incrementLimit < t.increments + t.incrementLines)

/-- A word of the SRAM is copied by the checkpoint: its line was written, or it lies above the moon region (R313). -/
def Tile.copies (t : Tile) (o : Nat) : Bool :=
  t.ckpting.any (·.whole) || decide (0x3C0000 ≤ o) || t.dirty.contains (o / 128)

/-- The cells of a tile's SRAM. -/
def State.sramCells (s : State) (v : Nat) : List Host.Cell :=
  s.mem.filter fun c => decide (sliceKey v 0 ≤ c.1 ∧ c.1 < sliceKey (v + 1) 0)

/-- The number is that of a line of a card that still stands in the window: the card runs again from its beginning (R131). -/
def Tile.cardNumber (t : Tile) (n : Numbered) : Bool :=
  match n.key with
  | 10 :: card :: _ => t.window.any fun w => w.card.id == card
  | _ => false

/-- A checkpoint image; the one that bring-up commits holds the state at reset (R313, R387). -/
def State.imageOf (s : State) (v : Nat) : Image :=
  (s.ckpt.find v).getD { tile := s.blob.tile, harts := (tileHarts v).map s.blob.hart, sram := [] }

/-- The bytes of a slice go to the base image in the checkpoint area of the die's stack (R312, R313). -/
def State.baseWrite (s : State) (v : Nat) (sram : List Host.Cell) : State :=
  let area := hbmKey (vtDie v) (0xBF0000000 + v % 64 * 2 ^ 22)
  let kept := s.mem.filter fun c => !decide (area ≤ c.1 ∧ c.1 < area + sliceBytes)
  let slice := sram.filter fun c => decide (sliceKey v 0 ≤ c.1 ∧ c.1 < sliceKey v 0 + sliceBytes)
  { s with mem := slice.foldl (fun m c => memPut m (area + (c.1 - sliceKey v 0)) c.2) kept }

/-- The next checkpoint goes to the base image: it counts every line as written, or is more than the moon region holds
(R313, R317). -/
def Tile.toBase (t : Tile) : Bool :=
  t.ckpting.any (·.whole) || decide (incrementLimit < t.increments + t.incrementLines)

/-- The tile as a checkpoint commits: log and dirty lines empty, one generation more; an increment that the moon region cannot
hold, or a checkpoint that counts every line as written, goes to the base image (R313-R317; notes/assumptions/32.md). -/
def Tile.committed (t : Tile) (tick : Nat) : Tile :=
  let n := if t.toBase then 0 else t.increments + t.incrementLines
  { t with
    log := [], dirty := [], hasCkpt := true, lastCkpt := tick, increments := n, generation := t.generation + 1
    recent := [], numbered := t.numbered.filter t.cardNumber
    ckpting := t.ckpting.bind fun c => if c.by_.isSome then some { c with committed := true } else none }

/-- The state that a checkpoint of a tile stores: cards as submitted, and without flips of lines that it does not copy (R131,
R143, R305, R313). -/
def State.imageNow (s : State) (v : Nat) : Image :=
  let t := s.tile v
  let clean := (t.flips.filter fun f => !t.copies f.1).foldl (fun s f => s.flipBit v f) s
  { tile := { t with window := t.window.map fun w => w.asSubmitted t, cardWrites := [] }
    harts := (tileHarts v).map s.hart, sram := clean.sramCells v }

/-- The generation is committed: harts at their boundaries, log and dirty lines empty, the intervals restarted, and the
state stored; the CKPT that asked for it retires from it, now or in a replay (R301, R305, R313-R316). -/
def State.storeCkpt (s : State) (v : Nat) : State :=
  let s := (tileHarts v).foldl State.abandon s
  let now := s.tick
  let s := (tileHarts v).foldl (fun s h => s.onHart h fun x => { x with ckptDue := now + x.csr.ckptctl.toNat }) s
  let clean := (s.imageNow v).sram
  let s := if (s.tile v).toBase then s.baseWrite v clean else s
  let s := s.onTile v fun t => t.committed now
  { s with ckpt := s.ckpt.put v { s.imageNow v with sram := clean } }

/-- What the checkpoint copies is read behind the SRAM's protection: it is rebuilt, or the VT rolls back (R143). -/
def State.commitCkpt (s : State) (v : Nat) : State :=
  let t := s.tile v
  let ws := (t.flips.map (·.1)).eraseDups.filter t.copies
  if ws.any fun o => t.sramLost o 8 then s.sramFail v
  else (ws.foldl (fun s o => s.sramFix v o 8) s).storeCkpt v

/-- A checkpoint that can complete commits, behind a merge of the pending increments if it needs one: 128 bytes in each cycle
(R313). -/
def State.ckptStep (s : State) (v : Nat) : State :=
  let t := s.tile v
  if !s.ckptDone v then s
  else
    match t.ckpting.bind (·.merge) with
    | some c =>
      if s.cycle v < c then s
      else ((s.baseWrite v (s.imageOf v).sram).onTile v fun t => { t with increments := 0 }).commitCkpt v
    | none =>
      if t.mustMerge then s.onTile v fun t => { t with
        ckpting := t.ckpting.map fun k => { k with merge := some (s.cycle v + t.increments) } }
      else s.commitCkpt v

/-- CKPT_COMMIT (R301, R313). -/
def execCkptCommit (vt : Nat) (s : State) : Answer := .next (s.ckptStep vt)

/-! ### Regulator groups and spares (R311, R326) -/

/-- The regulator group of a PT. -/
def groupOf (pt : Nat) : Nat :=
  if pt % 9 < 8 then pt % 9 / 2 + 4 * (pt / 9 / 2) else 16 + pt / 9 / 4

/-- The spare is already taken by a VT that is being rebuilt, or by one that a rotation has paused. -/
def State.claimed (s : State) (d p : Nat) : Bool :=
  ((List.range 64).any fun i => (s.tile (d * 64 + i)).cond == .rebuilding p)
    || (s.die d).rotation.any fun r => r.to_ == p && (s.tile r.vt).cond == .pause

/-- Ready spares that may be taken, lowest PT first (R311); one without a clock that no re-rooting will give one to cannot wake
(R341, R347). -/
def State.freeSpares (s : State) (d : Nat) : List Nat :=
  (s.readySpares d).filter fun p => !(s.pt d p).marked && !s.claimed d p && (!(s.pt d p).clockLost || (s.die d).rerooting)

/-- The spare that a rotation or replay of a VT takes (R311). -/
def State.pickSpare (s : State) (v : Nat) : Option Nat :=
  let d := vtDie v
  let spares := s.freeSpares d
  let apart (p : Nat) : Bool :=
    groupOf p != groupOf (s.ptOf (moonOf v)) && (s.die d).phasesFailed.get (groupOf p) 0 == 0
  (spares.find? apart).orElse fun _ => spares.head?

/-- At most 8 tiles of a die are in a wake at once (R331). -/
def State.wakeRoom (s : State) (d : Nat) : Bool :=
  decide (((List.range 72).filter fun p => (s.pt d p).waking).length < 8)

/-- A spare is claimed: its header switches turn on, as soon as fewer than 8 tiles of its die are in a wake (R331). -/
def State.wakeSpare (s : State) (d p : Nat) : State :=
  if s.wakeRoom d then s.onPt d p fun x => { x with waking := true, wakeWaits := false, since := s.tick }
  else s.onPt d p fun x => { x with wakeWaits := true }

/-- A claimed spare is awake. -/
def Pt.awake (p : Pt) : Bool := !p.waking && !p.wakeWaits

/-- A physical tile is released (R307, R322, R325): eclipse, or retired where it is marked or dark. -/
def State.releasePt (s : State) (d p : Nat) : State :=
  let now := s.tick
  if (s.pt d p).marked || (s.pt d p).dark then (s.onPt d p fun x => { x with since := now }).retirePt d p
  else s.onPt d p fun x => { x with state := .eclipse, since := now, waking := false, wakeWaits := false }

/-- A VT moves to a spare: every router's map names it (R307, R322). -/
def State.remap (s : State) (v q : Nat) : State :=
  (s.onDie (vtDie v) fun x => { x with vmap := x.vmap.put (v % 64) q }).onPt (vtDie v) q fun x =>
    { x with state := .inService, waking := false, wakeWaits := false }

/-! ### Lost VTs (R327) -/

/-- The counter reached by following PARENT. -/
def State.topLevel (s : State) (id : Nat) : Nat → Nat
  | 0 => id
  | n + 1 => match (s.counter id).parent with
    | some p => s.topLevel p n
    | none => id

/-- Launches with tasks on a hart: its own task's, and those of the messages in its channels. -/
def Hart.launches (x : Hart) : List (BitVec 16) :=
  (if x.task.isSome then [x.csr.launchid] else []) ++ x.chans.toList.flatMap fun c => c.map fun m => hdrLaunch m.msg.header

/-- Launches that had tasks on a VT: on its harts, in its checkpoint, or placed since (notes/assumptions/65.md). -/
def State.launchesOf (s : State) (v : Nat) : List (BitVec 16) :=
  (tileHarts v).flatMap (fun h => (s.hart h).launches) ++ (s.imageOf v).harts.flatMap Hart.launches ++ (s.tile v).recent

/-- The topmost level of a launch is cancelled. -/
def State.cancelTop (s : State) (l : BitVec 16) : State :=
  match launchCounter l with
  | some id => s.markLevel (s.topLevel id 196608)
  | none => s

/-- A kind-3 record of the panel about a VT: it exposes the physical tile (R12); the rules give neither its place in a0 nor
a cause (notes/assumptions/19.md). -/
def State.postVtRecord (s : State) (v : Nat) : State :=
  let (a0, s) := s.freeWord
  let (code, s) := s.freeBelow 256
  s.postPanelEvent (vtDie v) 0 0 [setBits a0 0 7 (s.ptOf v), 0, 0, 0, 0] (kind3 0xFFF 0 code)

/-- A VT is lost (R327); its record names the physical tile that it leaves. -/
def State.loseOne (s : State) (v : Nat) : State :=
  if (s.tile v).cond == .lost then s
  else
    let d := vtDie v
    let s := s.postVtRecord v
    let s := (s.releasePt d (s.ptOf v)).onDie d fun x => { x with lost := x.lost + 1, vmap := x.vmap.put (v % 64) 127 }
    let launches := s.launchesOf v
    let s := s.onTile v fun t => { t with cond := .lost, ckpting := none, egress := [] }
    launches.foldl State.cancelTop s

/-- The moon's checkpoint and log lay in the tile that failed (R317, R322 step 7): a moon that is itself being rebuilt
or replayed is lost (R327); another takes its forced checkpoint at once, in the place of one from which its CKPT has still to
retire. -/
def State.moonGone (s : State) (m : Nat) : State :=
  let s := match (s.tile m).cond with
    | .rebuilding _ => s.loseOne m
    | .replay => s.loseOne m
    | _ => s
  let again := (s.tile m).ckpting.bind fun c =>
    if c.committed then some ({ by_ := c.by_, whole := true, committed := false } : CkptPhase) else none
  let s := s.onTile m fun t => { t with hasCkpt := false, log := [], increments := 0, ckpting := again }
  if again.isSome then s.logNote (vtDie m) (.forcedCkpt m) else s.forceDue m

/-- A VT is lost, and with it what its tile held of its moon's checkpoint (R317, R327). -/
def State.loseVt (s : State) (v : Nat) : State :=
  if (s.tile v).cond == .lost then s else (s.loseOne v).moonGone (moonOf v)

/-! ### Rollback (R322) -/

/-- An answer that the rollback of a VT makes stale: what it answers was sent after the checkpoint (R322). -/
def Image.stale (i : Image) (v : Nat) (p : Packet) : Bool :=
  let hart (h : Nat) : Hart := i.harts.getD (hartSlot h) (Hart.reset h)
  let entry (h e : Nat) : Bool := (hart h).sendq.any fun o => o.id == e
  p.dst == .tile v && (match p.body with
    | .bounce h e => !entry h e
    | .acceptance h e => !entry h e
    | .spawnAnswer h e _ => !entry h e
    | .accBounce a => !(a.hart.any fun h => (hart h).accs.contains a.id)
    | .accOutcome a _ => !((a.hart.any fun h => (hart h).accs.contains a.id) || i.tile.flushes.any fun f => f.id == a.id)
    | .counterAck h e m _ =>
      !((match h, e with
          | some h, some e => entry h e
          | _, _ => false) || (m.any fun n => i.tile.mreqs.any fun o => o.id == n))
    | _ => false)

/-- An addend that a VT sent after the checkpoint answers to no hart. -/
def Image.forgetAddend (i : Image) (v : Nat) (a : Addend) : Addend :=
  if a.srcVt = v then
    { a with hart := a.hart.filter fun h => (i.harts.getD (hartSlot h) (Hart.reset h)).accs.contains a.id }
  else a

/-- What a VT sent after the checkpoint that its rollback restores is answered to nobody: the replay sends it again, and
the answer to the first copy is discarded (R322). -/
def Image.forget (i : Image) (v : Nat) (p : Packet) : Packet :=
  let kept (h : Option Nat) (e : Nat) : Bool := h.any fun h =>
    (i.harts.getD (hartSlot h) (Hart.reset h)).sendq.any fun o => o.id == e
  if p.src = .tile v then
    { p with body := match p.body with
      | .message d m h e spawn => .message d m h (e.filter (kept h)) spawn
      | .counterUpdate c n l h e m => .counterUpdate c n l h (e.filter (kept h))
          (m.filter fun n => i.tile.mreqs.any fun o => o.id == n)
      | .addend a => .addend (i.forgetAddend v a)
      | .switchAddend a port => .switchAddend (i.forgetAddend v a) port
      | b => b }
  else p

/-- What a VT sent before its rollback, wherever it is: on its way, at a unit, or in a switch. -/
def State.forgetSent (s : State) (v : Nat) : State :=
  let i := s.imageOf v
  { s with
    net := s.net.map (i.forget v)
    ioUnits := s.ioUnits.map (i.forget v)
    switch := s.switch.map fun b => { b with addends := b.addends.map (i.forgetAddend v) }
    tiles := s.tiles.map fun (k, t) =>
      (k, { t with unitQueue := t.unitQueue.map (i.forget v), flushQueue := t.flushQueue.map (i.forget v) }) }

/-- Requests of other harts at a VT that stops: those that wait at it, and reads whose answers it held, are sent again
(R135, R322), and so is an AMO that wrote nothing; the answers of the other atomics and of LDTAKEs come again with the
replay. An answer that has left the tile is on its way. -/
def Part.resent (p : Part) (v : Nat) (op : HomeOp) (onWay : Bool) (now : Nat) : Part :=
  if p.place.home == .slice v && !onWay then
    match p.status, op with
    | .waiting, _ => { p with status := .retry (now + 64) }
    | .held _, .load => { p with status := .sent }
    | .held _, .festat => { p with status := .sent }
    | .held old, .amo op dword operand compare =>
      if (amoNew op dword operand compare (bytesNat old)).isNone then { p with status := .sent } else p
    | _, _ => p
  else p

/-- The last number of a stream that a VT's rollback keeps: what its receiver has accepted, and what was sent at the checkpoint
(R318; notes/assumptions/84.md). -/
def State.keptNumber (s : State) (v k : Nat) : Nat :=
  max ((s.tile (k / 2)).seqIn.get (2 * v + k % 2) 0) ((s.imageOf v).tile.seqOut.get k 0)

/-- An item that a VT sent since its checkpoint and that nothing has accepted: the replay sends it, and numbers it, again
(notes/assumptions/84.md). -/
def State.recalled (s : State) (v : Nat) (p : Packet) : Bool :=
  p.src == .tile v && (match p.stream, p.seq with
    | some st, some n => decide (s.keptNumber v (streamKey p.dst.number st) < n)
    | _, _ => false)

/-- The data answer of a part is on its way. -/
def State.answerOnWay (s : State) (h id i : Nat) : Bool :=
  (s.answersOf h id).any fun p => match p.body with
    | .data _ _ j _ => j == i
    | _ => false

/-- A VT stops for its rollback (R322 steps 1 and 2): its hold is discarded, its requests are withdrawn. -/
def State.stopVt (s : State) (v : Nat) : State :=
  let s := (tileHarts v).foldl (fun s h => (s.hart h).flights.foldl (fun s a => s.withdraw h a.id) s) s
  let image := s.imageOf v
  let s := { s with net := s.net.filter fun p => !s.recalled v p }
  let access (h : Nat) (a : Access) : Access :=
    { a with parts := a.parts.zipIdx.map fun (p, i) => p.resent v a.op (s.answerOnWay h a.id i) (s.cycle (hartVt h)) }
  let hart (h : Nat) (x : Hart) : Hart := { x with flights := x.flights.map (access h) }
  let s := { s with net := s.net.filter fun p => !image.stale v p, harts := s.harts.map fun (h, x) => (h, hart h x) }
  let s := (tileHarts v).foldl (fun s h => s.onHart h fun x => { x with flights := [] }) s
  (s.forgetSent v).onTile v fun t => { t with egress := [], lineWait := [], ckpting := none }

/-- A drain or pause given up: the VT goes on where it is. -/
def Tile.admits (t : Tile) : Tile :=
  match t.cond with
  | .drain => { t with cond := .running }
  | .pause => { t with cond := .running }
  | _ => t

/-- A rotation of a VT, or one that a spare was for, is abandoned (R311, R328, R348); the fourth in a row of one VT is
reported (R307). -/
def State.dropRotation (s : State) (d : Nat) (hit : Rotation → Bool) : State :=
  match (s.die d).rotation with
  | some r =>
    if hit r then
      let n := (s.tile r.vt).abandoned + 1
      let s := s.onDie d fun x => { x with rotation := none }
      let s := s.onPt d r.to_ fun x => { x with waking := false, wakeWaits := false }
      let s := (s.onTile r.vt fun t => { t.admits with abandoned := if n = 4 then 0 else n }).forceDue r.vt
      if n = 4 then s.postVtRecord r.vt else s
    else s
  | none => s

/-- The VT has a checkpoint and a spare to be rebuilt in, or it is lost (R322 step 3, R327). -/
def State.claimSpare (s : State) (v : Nat) : State :=
  if (s.tile v).hasCkpt then
    match s.pickSpare v with
    | some q =>
      let s := s.dropRotation (vtDie v) fun r => r.to_ == q
      (s.wakeSpare (vtDie v) q).onTile v fun t => { t with cond := .rebuilding q }
    | none => s.loseVt v
  else s.loseVt v

/-- The VT rolls back: the failure counts where it was detected (R325). -/
def State.rollback (s : State) (v : Nat) : State :=
  let t := s.tile v
  if decide (3072 ≤ v) || t.cond == .lost || (match t.cond with | .rebuilding _ => true | _ => false) then s
  else
    let s := if t.failed then s else (s.onTile v fun t => { t with failed := true }).countError v
    let s := (s.dropRotation (vtDie v) fun r => r.vt == v).stopVt v
    (s.moonGone (moonOf v)).claimSpare v

/-- ROLLBACK (R322): a failure that was detected, or a tile that is found dead. -/
def execRollback (vt : Nat) (s : State) : Answer := .next (s.rollback vt)

/-! ### Replay (R322) -/

/-- The tile as the checkpoint has it (R305, R322): CYCLE and the slots counted from it go on; the log, what the unit had
accepted, and the numbers it had accepted stay (notes/assumptions/78.md); TLBs and instruction cache are empty. -/
def Tile.restored (t : Tile) (i : Tile) : Tile :=
  { i with
    lag := t.lag, slotAt := t.slotAt, log := t.log, logged := t.logged, hist := t.hist, seqIn := t.seqIn
    unitQueue := t.unitQueue, flushQueue := t.flushQueue, seqOut := t.seqOut, numbered := t.numbered
    lastCkpt := t.lastCkpt, increments := t.increments, generation := t.generation, recent := t.recent
    abandoned := t.abandoned, lineWait := [], egress := [], tlb := [], icache := [], flips := [], stretch := none
    halve := none, half := false, banks := i.banks.map fun b => { b with inject := none }, failed := false
    hasCkpt := t.hasCkpt, feWait := t.feWait, cond := .replay, replayLog := t.log }

/-- The numbers that a rollback leaves a VT: its streams go on behind those kept, and an item of the replay that had one of
them has it again (R318, R322; notes/assumptions/84.md). -/
def State.renumbered (s : State) (v : Nat) (t : Tile) : Tile :=
  { t with
    seqOut := t.seqOut.map fun (k, _) => (k, s.keptNumber v k)
    numbered := (t.numbered.filter fun e => decide (e.n ≤ s.keptNumber v e.stream)).map fun e => { e with used := false } }

/-- A hart as the checkpoint has it; its timer and interval are the supervisor's, its debug halt stands (R292, R314,
R328), and what DIAGINJ armed stays with the old physical tile (R305). -/
def Hart.restored (x i : Hart) (watching : Bool) : Hart :=
  { i with timer := x.timer, ckptDue := x.ckptDue, halted := x.halted, lwaitSpurious := i.lwaitSpurious || watching
           checker := { i.checker with corrupt := false }, waits := none }

/-- Bytes of a tile's SRAM replaced by those of an image. -/
def restoreCells (m : List Host.Cell) (v : Nat) (cells : List Host.Cell) : List Host.Cell :=
  let kept := m.filter fun c => !decide (sliceKey v 0 ≤ c.1 ∧ c.1 < sliceKey (v + 1) 0)
  cells.foldl (fun m c => memPut m c.1 c.2) kept

/-- The VT resumes on its spare (R322 steps 3 to 6). -/
def State.resumeOn (s : State) (v q : Nat) : State :=
  let image := s.imageOf v
  let tile := s.renumbered v ((s.tile v).restored image.tile)
  let s := { s with mem := restoreCells s.mem v image.sram }
  let s := (tileHarts v).foldl (fun s h => s.onHart h fun x =>
    x.restored (image.harts.getD (hartSlot h) (Hart.reset h))
      (s.hasWatch h || tile.watches.any fun w => w.hart == h)) s
  (((s.setTile v tile).releasePt (vtDie v) (s.ptOf v)).remap v q).logNote (vtDie v) (.replay v q)

/-- REPLAY_RESUME (R322): the spare is awake and the checkpoint built in it. -/
def execReplayResume (vt : Nat) (s : State) : Answer :=
  .next (match (s.tile vt).cond with
    | .rebuilding q =>
      let p := s.pt (vtDie vt) q
      if p.state != .readySpare then s.claimSpare vt
      else if !p.awake || p.clockLost then s
      else s.resumeOn vt q
    | _ => s)

/-- Every hart that runs a task has reached the INSTRET that the entry records. -/
def State.reached (s : State) (v : Nat) (counts : List Nat) : Bool :=
  (tileHarts v).all fun h => (s.hart h).task.isNone || decide (counts.getD (hartSlot h) 0 ≤ (s.hart h).csr.instret)

/-- The hart's instruction waits, with nothing that it issued on its way, short of a count that the log records: the order of
the tile's own units, which is free, is not that of the first run (R323; notes/assumptions/33.md). -/
def State.standsShort (s : State) (h : Nat) : Bool :=
  let x := s.hart h
  x.waits == some (x.seq, x.pc) && x.flights.isEmpty && x.board.isEmpty && x.posted.isEmpty && x.accs.isEmpty && x.lease != .req

/-- Every hart has reached the count that an entry records for it, or can go no further without what the log still holds; data
waits for its own hart all the same. -/
def State.reachable (s : State) (v : Nat) (e : LogEntry) : Bool :=
  let there (h : Nat) : Bool := decide (e.instret.getD (hartSlot h) 0 ≤ (s.hart h).csr.instret)
  (match e.body with
    | .data h _ _ _ => there h
    | _ => true) && (tileHarts v).all fun h => (s.hart h).task.isNone || there h || s.standsShort h

/-- A hart has passed the INSTRET that an entry records. -/
def State.passed (s : State) (h : Nat) (e : LogEntry) : Bool :=
  decide (e.instret.getD (hartSlot h) 0 < (s.hart h).csr.instret)

/-- The hart that an answer is for. -/
def PacketBody.subject : PacketBody → Option Nat
  | .bounce h _ => some h
  | .acceptance h _ => some h
  | .spawnAnswer h _ _ => some h
  | .barrier _ _ h => some h
  | .accBounce a => a.hart
  | .accOutcome a _ => a.hart
  | _ => none

/-- The first flush of a launch has its outcome. -/
def dropFlush (l : BitVec 16) : List FlushWait → List FlushWait
  | [] => []
  | f :: fs => if f.launch == l then fs else f :: dropFlush l fs

/-- The item is the message of a send-queue entry. -/
def HeldItem.carries (i : HeldItem) (h id : Nat) : Bool :=
  match i with
  | .packet p => (match p.body with
    | .message _ _ (some h') (some id') _ => h' == h && id' == id
    | _ => false)
  | _ => false

/-- A message whose refusal the log holds has its number, and does not leave for it again (R241, R318, R322). -/
def State.recallSend (s : State) (v h id : Nat) : State :=
  match (s.hart h).sendq.find? fun e => e.id == id with
  | none => s
  | some e =>
    if e.seq.isSome then s
    else
      let (s, n) := s.takeSeqFor v (destNode e.dest) (msgStream e.msg) [0, h, id]
      (s.onHart h fun x => { x with
        sendq := x.sendq.map fun (q : SendEntry) => if q.id == id then { q with seq := some n } else q }).onTile v fun t =>
          { t with egress := t.egress.filter fun i => !i.item.carries h id }

/-- An addend whose refusal the log holds leaves the hold, and the number that it had is used (R228, R322). -/
def State.recallAddend (s : State) (v : Nat) (a : Addend) : State :=
  (s.tile v).egress.foldl (fun s i => match i.item with
    | .packet p => if p.body.addend?.any fun b => b.id == a.id then
        (s.voidAddend v p).onTile v fun t => { t with egress := t.egress.filter (· != i) }
      else s
    | _ => s) s

/-- A flush whose outcome the log holds though the replay has not forced it out: what asked for it came from outside the tile
(R222, R227, R322). Its entry leaves the tail, and the number that it had is used. -/
def State.flushAgain (s : State) (v : Nat) (a : Addend) : State :=
  let p : Packet := { id := 0, src := .tile v, dst := s.accNode a.key, body := s.addendBody a, stream := some .assured
                      seq := none, outOfTurn := false }
  if (s.tile v).flushes.any fun f => f.launch == a.key.launch then
    s.onTile v fun t => { t with flushes := dropFlush a.key.launch t.flushes }
  else s.onTile v fun t => { t with
    tail := t.tail.filter fun e => e.key != a.key
    numbered := useNumber p.body.key (streamKey p.dst.number .assured) t.numbered }

/-- A logged answer takes effect once more (R218, R222, R241, R266, R322). -/
def State.answerAgain (s : State) (v : Nat) (body : PacketBody) : State :=
  match body with
  | .accBounce a => ((s.recallAddend v a).accDone a).tailMerge v a
  | .accOutcome a failed =>
    let s := if a.flush then s.flushAgain v a else s.accDone a
    if failed then s.accFault v a else s
  | .bounce h id => (s.recallSend v h id).applyAnswer body
  | .spawnAnswer h id accepted => (if accepted then s else s.recallSend v h id).applyAnswer body
  | b => s.applyAnswer b

/-- A logged answer is taken: once what it answers exists; one whose hart has gone by without it goes (R322). -/
def State.answerTurn (s : State) (v : Nat) (e : LogEntry) (body : PacketBody) : Option State :=
  let flush := match body with
    | .accOutcome a _ => a.flush
    | _ => false
  if s.asked v body || flush then some (s.answerAgain v body)
  else if body.subject.all fun h => s.passed h e then some s else none

/-- The answer of another tile's atomic or LDTAKE was discarded with the hold: it is still to be made (R322). -/
def State.owesAnswer (s : State) (v h id i : Nat) : Bool :=
  (s.heldAnswer h id i).isSome && !s.answerOnWay h id i && !((s.tile v).egress.any fun e => e.item == .answer h id i)

/-- The logged write of an atomic or LDTAKE takes effect once more, and with it the answer that was discarded (R319, R322); none
while that finds no room. -/
def State.takenAgain (s : State) (v h id i off : Nat) (data : List (Option Byte)) (fe : Option Bool) : Option State :=
  let t := s.writeAndWake none (slicePlace v off) data fe
  if !t.owesAnswer v h id i then some t
  else if (t.tile v).hasRoom 128 then some (t.hold v (.answer h id i) 128) else none

/-- A logged placement takes effect once more (R231, R322). -/
def State.placeAgain (s : State) (h c : Nat) (m : Msg) : State :=
  s.onHart h fun x => { x with
    chans := onAt x.chans c fun l => l ++ [{ msg := m, running := false, moved := none }]
    csr := { x.csr with replyres := if c = 3 ∧ hdrVnet m.header = 1 then x.csr.replyres - 1 else x.csr.replyres } }

/-- A logged write of a card into its own slice takes effect once more (R116, R141, R322); none while the card has not begun or
its ring has no place. -/
def State.landingAgain (s : State) (v card j off : Nat) (data : List (Option Byte)) (fe : Option Bool) : Option State :=
  let t := s.writeAndWake none (slicePlace v off) data fe
  match (s.tile v).card card with
  | none => if (tileHarts v).any fun h => (s.hart h).fifo.any fun c => c.id == card then none else some t
  | some w =>
    if !w.started || (decide (j < 2 ^ 32) && !(s.tile v).ringTurn w j) then none
    else if j < 2 ^ 32 then
      some ((t.chargeCard w.card).setCard v { w with pending := w.pending.filter (· != j), fetched := w.fetched.erase j })
    else some (t.setCard v { w with marks := w.marks.filter (· != j - 2 ^ 32) })

/-- A logged line of an MREQ lands once more (R94, R322). -/
def State.mreqLineAgain (s : State) (v id j off : Nat) (data : List Byte) (fe : Option Bool) : Option State :=
  if !(s.tile v).mreqs.any fun m => m.id == id then none
  else
    some ((s.writeAndWake none (slicePlace v off) (solid data) fe).onTile v fun t => { t with
      mreqs := t.mreqs.map fun m =>
        if m.id == id then { m with pending := m.pending.filter (· != j), fetched := m.fetched.erase j } else m })

/-- The logged completion of an MREQ is placed once more (R249, R322). -/
def State.completionAgain (s : State) (v id h c : Nat) (m : Msg) : Option State :=
  if !(s.tile v).mreqs.any fun m => m.id == id then none
  else some ((s.onTile v fun t => { t with mreqs := t.mreqs.filter fun o => o.id != id }).placeAgain h c m)

/-- A logged dispatch takes effect once more: a task started, a message discarded, or one moved away (R234, R251, R322);
none while it cannot. -/
def State.dispatchAgain (s : State) (h c : Nat) : Option State :=
  let x := s.hart h
  if c = movedAway then
    match takeShared 0 ((entryAt x.chans 1 []).map fun m => { m with moved := none }) with
    | some (_, rest) => some (s.setHart h { x with chans := onAt x.chans 1 fun _ => rest })
    | none => none
  else
    match (entryAt x.chans (c % 4) []).find? (!·.running) with
    | none => none
    | some m =>
      if 4 ≤ c then
        if s.roomItems h 1 then
          some ((s.setHart h { x.dropHead (c % 4) with lastChan := c % 4 }).updateLaunch h (hdrLaunch m.msg.header) (-1)
            none none none)
        else none
      else if x.task.isSome || !x.board.isEmpty then none
      else
        let t := s.startTask h c m.msg
        if (t.hart h).task.isSome then some t else none

/-- One logged event takes effect; none while it must wait. Data and results are taken by the instructions that they are
for; one whose instruction the replay has passed without it goes. -/
def State.logEvent (s : State) (v : Nat) (e : LogEntry) : Option State :=
  match e.body with
  | .placed h c m => some (s.placeAgain h c m)
  | .answer b => s.answerTurn v e b
  | .sliceWrite off data fe => some (s.writeAndWake none (slicePlace v off) data fe)
  | .drainRow off data => some (s.writeAndWake none (slicePlace v off) data none)
  | .data h seq _ _ => if (s.hart h).flights.any fun a => a.seq == seq then none else some s
  | .result h _ => if s.passed h e then some s else none
  | .dispatch h c => s.dispatchAgain h c
  | .barrierOp w op => some (s.onTile v fun t => t.barrierOp w op)
  | .taken h id i off data fe => s.takenAgain v h id i off data fe
  | .landing card j off data fe => s.landingAgain v card j off data fe
  | .mreqLine id j off data fe => s.mreqLineAgain v id j off data fe
  | .completion id h c m => s.completionAgain v id h c m

/-- The logged event takes effect once more, if it can. -/
def State.feedEvent (s : State) (v : Nat) (e : LogEntry) (rest : List LogEntry) : State :=
  match s.logEvent v e with
  | some t => t.onTile v fun u => { u with log := (s.tile v).log, replayLog := rest }
  | none => s

/-- The oldest logged event takes effect when its time has come; after the last the VT runs (R322). Where a hart of the
replay waits short of the recorded count it may take effect then (notes/assumptions/33.md). -/
def State.replayStep (s : State) (v : Nat) : State :=
  let t := s.tile v
  if t.cond != .replay then s
  else
    match t.replayLog with
    | [] => s.onTile v fun t => { t with cond := .running }
    | e :: rest =>
      if s.reached v e.instret then s.feedEvent v e rest
      else if s.reachable v e then
        let (n, s) := s.freeBelow 2
        if n = 0 then s.feedEvent v e rest else s
      else s

/-- REPLAY_LOG_EVENT (R322). -/
def execReplayLogEvent (vt : Nat) (s : State) : Answer := .next (s.replayStep vt)

end Sys2Proof.Machine
end

