-- ==== Sys2Proof/Machine/Rotate.lean ====
section
/-! DEFINITION. Rotation through the spares, self-test, waking, ageing and regulator phases (R306-R311, R325-R328, R331). -/

namespace Sys2Proof.Machine

/-! ### Rotation (R306, R307) -/

/-- Ticks from one rotation to the next: 20 ms (R306). -/
def rotationPeriod : Nat := 21000000

/-- The VTs of a die that may be moved, as their PTs in ascending order. -/
def State.movable (s : State) (d : Nat) : List Nat :=
  (List.range 72).filter fun p => match s.vtOf d p with
    | some v => (s.tile v).cond == .running && !(s.tile v).failed
    | none => false

/-- The PT whose VT moves (R306, R310): the one that VMAP asked for, a marked one, or the one longest untested. -/
def State.rotationPick (s : State) (d : Nat) : Option Nat :=
  let ps := s.movable d
  let asked := (s.die d).rotateNext.bind fun v => ps.find? fun p => s.vtOf d p == some v
  (asked.orElse fun _ => ps.find? fun p => (s.pt d p).marked).orElse fun _ => leastOf (fun p => (s.pt d p).sinceTest) ps

/-- Pre-copy begins on the spare that R311 gives; a skipped rotation is counted. -/
def State.rotationStart (s : State) (d : Nat) : State :=
  let skip (s : State) : State := s.onDie d fun x => { x with skipped := x.skipped + 1 }
  let s := s.onDie d fun x => { x with nextRotation := x.nextRotation + rotationPeriod }
  if (s.die d).rotation.isSome || s.panelHalt.isSome then s
  else if (s.freeSpares d).length < 2 then skip s
  else
    match s.rotationPick d with
    | none => skip s
    | some p =>
      match s.vtOf d p with
      | none => skip s
      | some v =>
        match s.pickSpare v with
        | none => skip s
        | some q =>
          let r : Rotation := { vt := v, from_ := p, to_ := q, phase := .preCopy, since := s.tick }
          (s.wakeSpare d q).onDie d fun x => { x with rotation := some r, rotateNext := none }

/-- ROTATION_START (R306, R328). -/
def execRotationStart (die : Nat) (s : State) : Answer :=
  .next (if die < 48 ∧ (s.die die).nextRotation ≤ s.tick then s.rotationStart die else s)

/-- ROTATION_DRAIN (R307): the spare is awake and 4 MiB have been copied at 128 bytes per cycle. -/
def execRotationDrain (die : Nat) (s : State) : Answer :=
  .next (match (s.die die).rotation with
    | none => s
    | some r =>
      let t := s.tile r.vt
      if (s.pt die r.to_).state != .readySpare then s.dropRotation die fun _ => true
      else if r.phase == .preCopy && (s.pt die r.to_).awake && decide ((s.pt die r.to_).since + 525 + 32768 ≤ s.tick)
          && t.cond == .running && !t.failed then
        (s.onTile r.vt fun t => { t with cond := .drain }).onDie die fun x =>
          { x with rotation := some { r with phase := .drain, since := s.tick } }
      else s)

/-- The drain has finished (R307): nothing started is unfinished, the log has room (R328), and every hart can be brought to
a boundary. -/
def State.hasDrained (s : State) (v : Nat) : Bool :=
  let t := s.tile v
  t.window.isEmpty && t.running.isNone && t.verdicts.isEmpty && t.mreqs.isEmpty && t.ckpting.isNone && !t.failed
    && !t.logFull && (tileHarts v).all fun h =>
      (s.hart h).accs.isEmpty && (s.hart h).checker.pending.isEmpty && s.mayAbandon h && (s.hart h).board.isEmpty && !(s.abandon h).sfuBusy h

/-- The pause begins: harts at their boundaries, SFU entries withdrawn (R183, R307). -/
def State.pauseVt (s : State) (v : Nat) : State :=
  let s := (tileHarts v).foldl (fun s h => (s.abandon h).withdrawSfu h) s
  s.onTile v fun t => { t with cond := .pause, captured := [] }

/-- The copied tile: TLBs and caches are not moved, a stretch and what was armed on the old PT stay behind (R305). -/
def Tile.moved (t : Tile) : Tile :=
  { t with
    cond := .running, tlb := [], icache := [], stretch := none, half := false, halve := none, abandoned := 0
    banks := t.banks.map fun b => { b with inject := none } }

/-- The copy is complete and the VT resumes on its spare, behind the traffic captured meanwhile; watches take a spurious
wake (R270, R307, R308). -/
def State.moveVt (s : State) (d : Nat) (r : Rotation) : State :=
  let v := r.vt
  let s := s.sramFix v 0 (2 ^ 22)
  let s := (tileHarts v).foldl (fun s h =>
    let armed := s.hasWatch h
    s.onHart h fun x => { x with
      lwaitSpurious := x.lwaitSpurious || armed, checker := { x.checker with corrupt := false } }) s
  let s := (s.onTile v Tile.moved).onDie d fun x => { x with rotation := none }
  ((s.releasePt d r.from_).remap v r.to_).forceDue v

/-- ROTATION_PAUSE (R307, R308): the drained VT stops, and moves when the copy is complete; a copy that meets an SRAM
error of the second row of R143 fails the VT, and a VT that has failed waits for its rollback (R328). -/
def execRotationPause (die : Nat) (s : State) : Answer :=
  .next (match (s.die die).rotation with
    | none => s
    | some r =>
      match (s.tile r.vt).cond with
      | .drain =>
        if (s.pt die r.to_).state != .readySpare then s.dropRotation die fun _ => true
        else if s.hasDrained r.vt then s.pauseVt r.vt
        else s
      | .pause =>
        if (s.tile r.vt).failed then s
        else if (s.tile r.vt).sramLost 0 (2 ^ 22) then s.sramFail r.vt
        else if (s.pt die r.to_).state != .readySpare then s.dropRotation die fun _ => true
        else if (s.pt die r.to_).clockLost then s.rollback r.vt
        else s.moveVt die r
      | _ => s)

/-- ROTATION_ABANDON (R307): 2 ms after the drain began. -/
def execRotationAbandon (die : Nat) (s : State) : Answer :=
  .next (match (s.die die).rotation with
    | none => s
    | some r =>
      if (s.tile r.vt).cond != .pause && r.phase == .drain && decide (r.since + 2100000 ≤ s.tick) then
        s.dropRotation die fun _ => true
      else s)

/-! ### Self-test and waking (R309, R331) -/

/-- A failed test is logged with its PT, a part that the spec does not number, and the timebase. -/
def State.logTest (s : State) (d p : Nat) : State :=
  let (part, s) := s.freeWord
  s.logNote d (.testFail p part s.tick)

/-- SELF_TEST_END (R309, R325): no pass comes before 15 ms, nor without a clock. -/
def execSelfTestEnd (die pt : Nat) (pass : Bool) (s : State) : Answer :=
  let p := s.pt die pt
  let tested := s.onPt die pt fun x => { x with sinceTest := s.tick }
  .next (if p.state != .eclipse then s
    else if !pass then (tested.logTest die pt).retirePt die pt
    else if p.clockLost || decide (s.tick < p.since + 15750000) then s
    else if p.marked || p.dark then tested.retirePt die pt
    else tested.onPt die pt fun x => { x with state := .readySpare })

/-- The next wake that waits begins, lowest PT first. -/
def State.nextWake (s : State) (d : Nat) : State :=
  match (List.range 72).find? fun p => (s.pt d p).wakeWaits && (s.pt d p).state == .readySpare with
  | some p => s.wakeSpare d p
  | none => s

/-- TILE_WAKE_DONE (R331): 500 ns after the wake began, with a clock to lock to (R341); a wake that waits begins once there
is room. -/
def execTileWakeDone (die pt : Nat) (s : State) : Answer :=
  let p := s.pt die pt
  .next (if p.state != .readySpare then s
    else if p.waking && !p.clockLost && decide (p.since + 525 ≤ s.tick) then
      (s.onPt die pt fun x => { x with waking := false }).nextWake die
    else if p.wakeWaits && s.wakeRoom die then s.wakeSpare die pt
    else s)

/-! ### Ageing and regulators (R325-R327) -/

/-- The stress weight table (R325, R392). -/
def ageWeight (voltageBin temperatureBin : Nat) : BitVec 8 :=
  if Config.nominalBin voltageBin temperatureBin then 1 else Config.stressWeight voltageBin temperatureBin

/-- AGE_STRESS_TICK (R325). -/
def execAgeStressTick (die pt voltageBin temperatureBin : Nat) (s : State) : Answer :=
  .next (if (s.pt die pt).state == .inService && decide (voltageBin < 8) && decide (temperatureBin < 8) then
    (s.onPt die pt fun x => { x with
      stress := x.stress + (ageWeight voltageBin temperatureBin).zeroExtend 48 }).checkAge die pt
    else s)

/-- The PTs of a group. -/
def groupPts (g : Nat) : List Nat := (List.range 72).filter fun p => groupOf p == g

/-- A spare or eclipsed tile of a dark group is retired; one that was claimed is replaced (R326). -/
def State.darkSpare (s : State) (d p : Nat) : State :=
  let s := if (s.pt d p).state == .inService || (s.pt d p).state == .retired then s else s.retirePt d p
  let s := s.dropRotation d fun r => r.to_ == p
  (List.range 64).foldl (fun s i =>
    if (s.tile (d * 64 + i)).cond == .rebuilding p then s.claimSpare (d * 64 + i) else s) s

/-- A group goes dark (R326, R327): its forwarders have no power (R331), a VT whose moon is in it too is lost, the others roll
back. -/
def State.darken (s : State) (d g : Nat) : State :=
  let ps := groupPts g
  let vts := ps.filterMap fun p => s.vtOf d p
  let s := ps.foldl (fun s p => s.onPt d p fun x => { x with dark := true }) s
  let below := (ps.flatMap (s.tilesUnder d)).filter fun q => !ps.contains q && !(s.pt d q).clockLost
  let s := if below.isEmpty then s else (s.unclock d below).onDie d fun x => { x with rerooting := true }
  let s := ps.foldl (fun s p => s.darkSpare d p) s
  vts.foldl (fun s v => if vts.contains (moonOf v) then s.loseVt v else s.rollback v) s

/-- REGULATOR_PHASE_FAIL (R326). -/
def execRegulatorPhaseFail (die group : Nat) (s : State) : Answer :=
  let n := (s.die die).phasesFailed.get group 0 + 1
  .next (if 48 ≤ die ∨ 18 ≤ group ∨ 6 < n then s
    else
      let s := s.onDie die fun x => { x with phasesFailed := x.phasesFailed.put group n }
      if n = 2 then s.darken die group else s)

end Sys2Proof.Machine
end

