-- ==== Sys2Proof/Machine/Clock.lean ====
section
/-! DEFINITION. The forwarded clock: loss and hold, re-rooting, hubs and roots (R341, R345-R348). -/

namespace Sys2Proof.Machine

/-! ### Loss and hold (R345, R346, R348) -/

/-- The harts of a VT can be carried to their boundaries. -/
def State.canHold (s : State) (v : Nat) : Bool :=
  (tileHarts v).all fun h => s.mayAbandon h && (s.hart h).board.isEmpty && !(s.abandon h).sfuBusy h

/-- A checkpoint that is not committed is discarded (R313, R348). -/
def Tile.dropCkpt (t : Tile) : Tile :=
  { t with ckpting := t.ckpting.bind fun c => if c.committed then some c else none }

/-- A VT enters hold: harts at boundaries with their fixed-latency results written (R26), SFU entries withdrawn, watches woken, a
checkpoint that is not committed discarded; the oscillator's count begins unless it runs already (R345, R346, R348). -/
def State.enterHold (s : State) (v : Nat) : State :=
  let s := (tileHarts v).foldl (fun s h => ((s.abandon h).onHart h Hart.drain).withdrawSfu h) s
  let s := (tileHarts v).foldl (fun s h =>
    let armed := s.hasWatch h
    s.onHart h fun x => { x with lwaitSpurious := x.lwaitSpurious || armed }) s
  let runs := s.unclocked v
  s.onTile v fun t => { t.dropCkpt with
    cond := .hold, oscTicks := if runs then t.oscTicks else 0, oscCycles := if runs then t.oscCycles else 0 }

/-- The VT issues, so a hold would stop it. -/
def Tile.holdable (t : Tile) : Bool :=
  match t.cond with
  | .running => true
  | .drain => true
  | .replay => true
  | _ => false

/-- A VT that issues enters hold, once its harts can be carried to their boundaries. -/
def State.holdVt (s : State) (v : Nat) : State := if (s.tile v).holdable && s.canHold v then s.enterHold v else s

/-- The VT of a physical tile enters hold. -/
def State.holdPt (s : State) (d p : Nat) : State :=
  match s.vtOf d p with
  | some v => s.holdVt v
  | none => s

/-- The VT of a physical tile that had a clock runs on its oscillator from now on, and its checkpoint is discarded (R345, R348). -/
def State.oscillate (s : State) (d p : Nat) : State :=
  match s.vtOf d p with
  | some v => if (s.pt d p).clockLost then s else s.onTile v fun t => { t.dropCkpt with oscTicks := 0, oscCycles := 0 }
  | none => s

/-- Tiles of a die have lost their clock: the supervisor is told, a rotation of one that is not yet paused is abandoned,
and their VTs stop issuing and enter hold (R345, R348). -/
def State.loseTiles (s : State) (d : Nat) (ps : List Nat) : State :=
  let s := ps.foldl (fun s p => s.oscillate d p) s
  let s := (s.unclock d ps).onDie d fun x => { x with rerooting := true }
  let s := s.dropRotation d fun r => (ps.contains r.from_ || ps.contains r.to_) && (s.tile r.vt).cond != .pause
  ps.foldl (fun s p => s.holdPt d p) s

/-- Every tile fed through a hub has lost its clock. -/
def State.loseHub (s : State) (d : Nat) : State :=
  (s.diesUnder d).foldl (fun s e => s.loseTiles e (List.range 72)) s

/-- The lane that feeds a hub has died: neither of the hubs that it joins takes its clock over it again (R347). -/
def State.loseLane (s : State) (d : Nat) : State :=
  let lane := s.laneOf d
  let s := s.onDie d fun x => { x with laneDown := true, deadLanes := lane :: x.deadLanes }
  match lane with
  | .io => s
  | .die e => s.onDie e fun x => { x with deadLanes := .die d :: x.deadLanes }

/-- A physical tile loses its clock, and with it every tile that it forwards to; a centre tile that the hub drives loses
it with its hub's lane (R345, R347). -/
def State.loseClock (s : State) (d p : Nat) : State :=
  if (s.pt d p).parent.isNone then (s.loseLane d).loseHub d else s.loseTiles d (s.tilesUnder d p)

/-- CLOCK_LOSS (R345): 64 ns without an edge from the parent; at a tile that knows of the loss already, its harts reach
their boundaries. -/
def execClockLoss (die pt : Nat) (s : State) : Answer :=
  .next (if 48 ≤ die ∨ 72 ≤ pt then s else if (s.pt die pt).clockLost then s.holdPt die pt else s.loseClock die pt)

/-- A VT leaves hold for what it was in: its replay, the drain of its rotation, or its run. -/
def State.afterHold (s : State) (v : Nat) : VtCondition :=
  if !(s.tile v).replayLog.isEmpty then .replay
  else if (s.die (vtDie v)).rotation.any fun r => r.vt == v && r.phase == .drain then .drain
  else .running

/-- CLOCK_LOCK (R347): a held tile whose parent drives it locks, and leaves hold. -/
def execClockLock (die pt : Nat) (s : State) : Answer :=
  .next (match s.vtOf die pt with
    | some v =>
      if (s.tile v).cond == .hold && !(s.pt die pt).clockLost then
        let c := s.afterHold v
        (s.onTile v fun t => { t with cond := c }).forceDue v
      else s
    | none => s)

/-! ### Re-rooting (R347) -/

/-- The PT is powered, so its forwarder works or has died (R331). -/
def Pt.powered (x : Pt) : Bool := x.state != .retired && !x.dark

/-- Forwarders that have died: powered parents of powered orphans, with a clock of their own. -/
def State.deadForwarders (s : State) (d : Nat) : List Nat :=
  (List.range 72).filter fun q => (s.pt d q).powered && !(s.pt d q).clockLost && !(s.pt d q).forwarderDead &&
    (List.range 72).any fun p => (s.pt d p).powered && (s.pt d p).clockLost && (s.pt d p).parent == some q

/-- A forwarder has died: whatever it fed has lost its clock. -/
def State.killForwarder (s : State) (d q : Nat) : State :=
  (s.onPt d q fun x => { x with forwarderDead := true }).loseTiles d
    ((s.tilesUnder d q).filter fun p => p != q && !(s.pt d p).clockLost)

/-- A dead forwarder's PT is retired and its VT replayed (R347 step 4). -/
def State.buryForwarder (s : State) (d q : Nat) : State :=
  let v := s.vtOf d q
  let s := s.onPt d q fun x => { x with marked := true }
  let s := if (s.pt d q).state == .inService || (s.pt d q).state == .retired then s else s.retirePt d q
  match v with
  | some v => s.rollback v
  | none => s

/-- The VTs of a die whose tiles no tree of depth 32 reaches are lost (R347); one that a rotation has paused goes on to
its spare (R348). -/
def State.loseOrphans (s : State) (d : Nat) : State :=
  (s.orphans d).foldl (fun s p =>
    match s.vtOf d p with
    | some v => if (s.tile v).cond == .pause then s else s.loseVt v
    | none => s) s

/-- Dies beside a die on the grid of 6 by 8 (R10, R11). -/
def dieNeighbours (d : Nat) : List Nat :=
  [if 6 ≤ d then some (d - 6) else none, if d % 6 = 0 then none else some (d - 1), if d % 6 = 5 then none else some (d + 1),
    if d < 42 then some (d + 6) else none].filterMap id

/-- A hub without a clock takes it over another die link, which the panel supervisor chooses: which one is open
(notes/assumptions/25.md); none while no neighbour has a clock. -/
def State.newLane (s : State) (d : Nat) : State :=
  if s.hubClocked d || (s.die d).hubLost then s
  else
    let ds := (dieNeighbours d).filter fun e => s.hubClocked e && !(s.die d).deadLanes.contains (.die e)
    let (i, s) := s.freeBelow ds.length
    match ds[i]? with
    | some e => s.onDie d fun x => { x with lane := some (.die e), laneDown := false }
    | none => s

/-- The orphans of a die are given parents, and the live tiles that forward to them now hold for it (R347 steps 1, 2). -/
def State.regraft (s : State) (d : Nat) : State :=
  let before := s.orphans d
  let s := s.adopt d 72
  let above := before.filterMap fun p => if (s.pt d p).clockLost then none else (s.pt d p).parent
  (above.filter fun q => !before.contains q).foldl (fun s q => s.holdPt d q) s

/-- One die re-rooted: its hub's lane, the dead forwarders, the orphans in hold (R345), then parents for them. -/
def State.rerootDie (s : State) (d : Nat) : State :=
  let s := s.newLane d
  if !s.hubClocked d && !(s.die d).hubLost then s
  else
    let dead := s.deadForwarders d
    let s := dead.foldl (fun s q => s.killForwarder d q) s
    let s := (s.orphans d).foldl (fun s p => s.holdPt d p) s
    let s := s.regraft d
    let s := dead.foldl (fun s q => s.buryForwarder d q) s
    (s.loseOrphans d).onDie d fun x => { x with rerooting := false }

/-- The harts of a die's VTs that issue can be carried to their boundaries. -/
def State.dieCanHold (s : State) (d : Nat) : Bool :=
  (List.range 64).all fun i => !(s.tile (d * 64 + i)).holdable || s.canHold (d * 64 + i)

/-- REROOT (R347). -/
def execReroot (die : Nat) (s : State) : Answer :=
  .next (if die < 48 ∧ (s.die die).rerooting ∧ s.dieCanHold die then s.rerootDie die else s)

/-! ### Hubs and roots (R341, R347) -/

/-- Every tile of a die holds, its VTs are lost, and the dies fed through it lose their clock (R327, R347). -/
def State.loseDie (s : State) (d : Nat) : State :=
  let s := (s.onDie d fun x => { x with hubLost := true }).loseHub d
  (List.range 64).foldl (fun s i => s.loseVt (d * 64 + i)) s

/-- HUB_FAILOVER (R341, R347): the standby hub takes over without a hold; with both gone the die is lost. -/
def execHubFailover (die : Nat) (s : State) : Answer :=
  .next (if 48 ≤ die ∨ (s.die die).hubLost then s
    else if (s.die die).standbyHub then s.onDie die fun x => { x with standbyHub := false }
    else s.loseDie die)

/-- The harts of every VT that issues can be carried to their boundaries. -/
def State.allCanHold (s : State) : Bool := (List.range 48).all s.dieCanHold

/-- The working hub without a clock that can be given the least depth, with its lane; ties to the lowest die. -/
def State.nextHub (s : State) : Option (Nat × Nat) :=
  let found := (List.range 48).filterMap fun d =>
    if (s.die d).hubLost || s.hubClocked d then none
    else (leastOf s.hubDepthOf ((dieNeighbours d).filter fun e =>
      s.hubClocked e && !(s.die d).deadLanes.contains (.die e))).map fun e => (d, e)
  found.foldl (fun b x => match b with
    | none => some x
    | some (y : Nat × Nat) => if s.hubDepthOf x.2 < s.hubDepthOf y.2 then some x else some y) none

/-- Hubs are given lanes one after another, the least deep first. -/
def State.adoptHubs (s : State) : Nat → State
  | 0 => s
  | n + 1 =>
    match s.nextHub with
    | none => s
    | some (d, e) => (s.onDie d fun x => { x with lane := some (.die e), laneDown := false }).adoptHubs n

/-- The panel's tree from the alternate root, which drives die 42 (R341, R347): every hub and every tile counts as
orphaned. -/
def State.altTree (s : State) : State :=
  let s := (List.range 48).foldl (fun s d => (s.loseTiles d (List.range 72)).onDie d fun x => { x with laneDown := true }) s
  let s := (s.onDie 42 fun x => { x with lane := some .io, laneDown := false }).adoptHubs 48
  (List.range 48).foldl (fun s d => ((s.regraft d).loseOrphans d).onDie d fun x => { x with rerooting := false }) s

/-- ROOT_FAILOVER (R347): the panel re-roots from the alternate root. -/
def execRootFailover (s : State) : Answer :=
  .next (if s.altRoot || !s.allCanHold then s else { s with altRoot := true }.altTree)

end Sys2Proof.Machine
end

