-- ==== Sys2Proof/Machine/Csr.lean ====
section
/-! DEFINITION. CSR instructions, and CSR writes as steps of their own: by the host to a hart in debug halt, or by a
supervisor (R36, R37, R69, R161, R162, R211, R289, R310, R315, R324, R351). -/

namespace Sys2Proof.Machine

/-- Where an access to a CSR number goes. -/
inductive CsrTarget where
  /-- No such register for this hart (R36). -/
  | missing
  /-- A register of a hart: hart, die, physical tile, number. -/
  | at_ (h die pt n : Nat)
  /-- A supervisor hart's own F-range register. -/
  | sup (n : Nat)
  /-- A register of a target tile that holds no VT. -/
  | vacant
  /-- A tile register, which a supervisor hart has not. -/
  | noTile
  deriving DecidableEq, Repr

/-- Registers of a physical tile or of a die, which need no VT. -/
def csrOfPt (n : Nat) : Bool := [0xC11, 0xC12, 0xC18, 0xC19, 0xC1A, 0xC20, 0xC30, 0xC38, 0xC48, 0x480, 0x481, 0x482].contains n

/-- Registers that R37 gives to a tile or a VT. -/
def csrOfTile (n : Nat) : Bool :=
  [0x020, 0x030, 0x031, 0x032, 0x033, 0x039, 0x420, 0x421, 0x422, 0x428, 0x429, 0x440, 0x448, 0x488, 0x489, 0x48A].contains n
    || (decide (0x040 ≤ n) && decide (n < 0x050))

/-- The number that a target-window number reaches (R36). -/
def windowCsr (n : Nat) : Option Nat :=
  if 0x800 ≤ n ∧ n < 0x880 then some (n - 0x800) else if 0xA00 ≤ n ∧ n < 0xA90 then some (n - 0x600) else none

/-- The map of R37 has the number, for tile harts and targets. -/
def State.csrExists (s : State) (n : Nat) : Bool := (s.csrValue 0 0 0 n).isSome

/-- A register of FSTATUS.TARGET (R36, R289). -/
def State.targetCsr (s : State) (h n : Nat) : CsrTarget :=
  let d := hartDie h
  let t := (s.hart h).csr.fTarget.toNat
  match s.vtOf d (t / 4) with
  | some v => .at_ (v * 4 + t % 4) d (t / 4) n
  | none => if csrOfPt n then .at_ 0 d (t / 4) n else .vacant

/-- What a CSR number names for a hart (R36); a number that the map lacks is missing on a supervisor hart too
(notes/assumptions/70.md). -/
def State.csrTarget (s : State) (h n : Nat) : CsrTarget :=
  if isSup h then
    if ((s.hart h).supCsr n).isSome then .sup n
    else if 0x800 ≤ n ∧ n < 0xC00 then
      match windowCsr n with
      | some m => if s.csrExists m then s.targetCsr h m else .missing
      | none => .missing
    else if !s.csrExists n then .missing
    else if 0xC00 ≤ n then s.targetCsr h n
    else if csrOfTile n then .noTile
    else .at_ h (hartDie h) 0 n
  else if (0x800 ≤ n ∧ n < 0xC00) ∨ ¬ (s.csrExists n ∨ ((s.hart h).supCsr n).isSome) then .missing
  else .at_ h (hartDie h) (s.ptOf (hartVt h)) n

/-- The lowest mode that may access a number (R36). -/
def csrMode (n : Nat) : Mode := if n < 0x400 then .user else if n < 0x800 then .kernel else .firmware

/-- A CSR instruction's read; a tile hart's CYCLE is a logged result (R315). A register of a tile that holds no VT has no
value the spec states (notes/assumptions/5.md). -/
def State.readTarget (s : State) (t : CsrTarget) : State × Word :=
  match t with
  | .at_ h d p n =>
    let v := (s.csrValue h d p n).getD 0
    if n = 0x020 ∧ h = s.cur then s.loggedResult h v else (s, v)
  | .sup n => (s, (s.self.supCsr n).getD 0)
  | .vacant => let (v, s) := s.freeWord; (s, v)
  | .missing => (s, 0)
  | .noTile => (s, 0)

/-- A CSR instruction's write; a K-mode write of class 7 leaves PCLASS unchanged (R337). -/
def State.writeTarget (s : State) (t : CsrTarget) (v : Word) : State :=
  match t with
  | .at_ h d p n => if n = 0x430 ∧ s.self.mode = .kernel ∧ bits v 0 3 = 7 then s else s.writeCsr h d p n v
  | .sup n => s.onHart s.cur fun x => x.writeSupCsr n v
  | _ => s

/-- A CSR instruction (R161): `change` gives the value to write from the register and the source, none for no write. -/
def State.csrOp (s : State) (sc : BitVec 3) (d : BitVec 5) (reads : List Reg) (c : BitVec 12) (src : State → Word)
    (change : Word → Word → Option Word) : Answer :=
  let n := c.toNat
  let t := s.csrTarget s.cur n
  if t = .missing then s.run { sc := sc, reads := [], writes := [] } fun s => s.illegal
  else
    s.run { sc := sc, reads := reads, writes := [.g d], reach := true, low := csrMode n } fun s =>
      if t = .noTile then .stop .noTileUnit
      else if n = 0x018 ∧ s.self.mode = .user ∧ s.self.mValid ≠ 0xFF then .trap .matrixUnavail 9
      else
        let r := s.readTarget t
        let s := match change r.2 (src s) with
          | some v => r.1.writeTarget t v
          | none => r.1
        .done (s.postG d r.2)

/-- The M bits set; nothing is written for M = 0. -/
def csrSet (old m : Word) : Option Word := if m = 0 then none else some (old ||| m)
/-- The M bits cleared; nothing is written for M = 0. -/
def csrClear (old m : Word) : Option Word := if m = 0 then none else some (old &&& ~~~m)

/-- CSRRW (R161). -/
def execCsrrw (sc : BitVec 3) (d a : BitVec 5) (c : BitVec 12) (s : State) : Answer :=
  s.csrOp sc d [.g a] c (fun s => s.self.g a) fun _ v => some v

/-- CSRRS (R161). -/
def execCsrrs (sc : BitVec 3) (d a : BitVec 5) (c : BitVec 12) (s : State) : Answer :=
  s.csrOp sc d [.g a] c (fun s => s.self.g a) csrSet

/-- CSRRC (R161). -/
def execCsrrc (sc : BitVec 3) (d a : BitVec 5) (c : BitVec 12) (s : State) : Answer :=
  s.csrOp sc d [.g a] c (fun s => s.self.g a) csrClear

/-- CSRRWI (R161). -/
def execCsrrwi (sc : BitVec 3) (d i : BitVec 5) (c : BitVec 12) (s : State) : Answer :=
  s.csrOp sc d [] c (fun _ => i.zeroExtend 64) fun _ v => some v

/-- CSRRSI (R161). -/
def execCsrrsi (sc : BitVec 3) (d i : BitVec 5) (c : BitVec 12) (s : State) : Answer :=
  s.csrOp sc d [] c (fun _ => i.zeroExtend 64) csrSet

/-- CSRRCI (R161). -/
def execCsrrci (sc : BitVec 3) (d i : BitVec 5) (c : BitVec 12) (s : State) : Answer :=
  s.csrOp sc d [] c (fun _ => i.zeroExtend 64) csrClear

/-! ### Writes as steps -/

/-- The host writes a v register of a halted hart by its dwords; a withdrawn SFU entry that would write it is discarded
(R351). -/
def Hart.hostVector (x : Hart) (i j : Nat) (v : Word) : Hart :=
  let d := BitVec.ofNat 5 i
  let ds := (vregDwords (x.regs.read (.v d))).set j v
  let y := x.setV d (BitVec.ofNat 512 (ds.foldr (fun w a => w.toNat + 2 ^ 64 * a) 0))
  { y with withdrawnSfu := y.withdrawnSfu.filter fun e => e.vd != d }

/-- The host writes dword j of row r of a halted hart's m register i, numbered 128 i + 8 r + j (R351); DIRTY says so (R209). -/
def Hart.hostMatrix (x : Hart) (n : Nat) (v : Word) : Hart :=
  { x with
    m := onAt x.m (n / 128) fun rows => onAt rows (n / 8 % 16) fun row =>
      BitVec.ofNat 512 (((vregDwords row).set (n % 8) v).foldr (fun w a => w.toNat + 2 ^ 64 * a) 0)
    mDirty := x.mDirty ||| BitVec.ofNat 8 (2 ^ (n / 128)) }

/-- Debug-module registers under numbers of the model's own (notes/assumptions/13.md): BPi 0xD00, WPi 0xD10; of a halted
hart also gi 0xE00, fi 0xE20, ki 0xE40, the PC 0xE48, dword j of vi 0xF00 + 8 i + j, dword j of row r of mi
0x800 + 128 i + 8 r + j. -/
def Hart.hostRegister (x : Hart) (n : Nat) (v : Word) : Hart :=
  if 0xD00 ≤ n ∧ n < 0xD04 then { x with csr := { x.csr with bp := x.csr.bp.setIfInBounds (n - 0xD00) (v &&& ~~~(2#64)) } }
  else if 0xD10 ≤ n ∧ n < 0xD12 then { x with csr := { x.csr with wp := x.csr.wp.setIfInBounds (n - 0xD10) v } }
  else if x.halted.isNone then x
  else if 0xE00 ≤ n ∧ n < 0xE20 then x.setG (BitVec.ofNat 5 (n - 0xE00)) v
  else if 0xE20 ≤ n ∧ n < 0xE40 then x.setF (BitVec.ofNat 5 (n - 0xE20)) v
  else if 0xE40 ≤ n ∧ n < 0xE48 then x.setK (BitVec.ofNat 3 (n - 0xE40)) v
  else if n = 0xE48 then { x with pc := v &&& ~~~(3#64) }
  else if 0x800 ≤ n ∧ n < 0xC00 then x.hostMatrix (n - 0x800) v
  else if 0xF00 ≤ n then x.hostVector ((n - 0xF00) / 8) ((n - 0xF00) % 8) v
  else x

/-- The host writes a register of a hart through its debug module (R349, R351): DBGCTL and the breakpoints at any time,
the others in debug halt; otherwise nothing happens. A supervisor hart has a debug module too, for its own registers. -/
def State.hostCsr (s : State) (h n : Nat) (v : Word) : State :=
  if n = 0xC41 then s.writeDbgctl h v
  else if 0xD00 ≤ n ∨ (0x800 ≤ n ∧ n < 0xC00) then s.onHart h fun x => x.hostRegister n v
  else if isSup h then
    if (s.hart h).halted.isNone then s
    else if n < 0x800 then (if s.csrExists n && !csrOfTile n then s.writeCsr h (hartDie h) 0 n v else s)
    else s.onHart h fun x => x.writeSupCsr n v
  else if (s.hart h).halted.isSome && s.csrExists n then
    s.writeCsr h (hartDie h) (s.ptOf (hartVt h)) n v
  else s

/-- MSHAPE_WRITE (R34). -/
def execMshapeWrite (hart : Nat) (value : Word) (s : State) : Answer := .next (s.hostCsr hart 0x018 value)
/-- SLOTTAB_WRITE (R190). -/
def execSlottabWrite (hart : Nat) (value : Word) (s : State) : Answer := .next (s.hostCsr hart 0x420 value)
/-- LEASEN_WRITE (R190). -/
def execLeasenWrite (hart : Nat) (value : Word) (s : State) : Answer := .next (s.hostCsr hart 0x421 value)
/-- MSAVE_CLAIM (R210). -/
def execMsaveClaim (hart : Nat) (value : Word) (s : State) : Answer := .next (s.hostCsr hart 0x438 (value ||| 2))
/-- MSAVE_INVAL (R210). -/
def execMsaveInval (hart : Nat) (value : Word) (s : State) : Answer :=
  .next (s.hostCsr hart 0x438 ((value &&& ~~~(2#64)) ||| 1))
/-- RINGCFG_WRITE (R140). -/
def execRingcfgWrite (hart ring : Nat) (value : Word) (s : State) : Answer :=
  .next (if ring < 8 then s.hostCsr hart (0x040 + ring) value else s)
/-- HRDATA_WRITE (R35). -/
def execHrdataWrite (hart : Nat) (value : Word) (s : State) : Answer := .next (s.hostCsr hart 0x039 value)
/-- FETCHDUTY_WRITE (R334): a supervisor's write. -/
def execFetchdutyWrite (hart : Nat) (value : Word) (s : State) : Answer :=
  .next (if isSup hart then s else s.writeFetchduty hart value)
/-- TRACECTL_WRITE (R354): a supervisor's write. -/
def execTracectlWrite (hart : Nat) (value : Word) (s : State) : Answer :=
  .next (if isSup hart then s else s.onHart hart fun x => x.writeTracectl value)
/-- VMAP_ROTATE (R310): a supervisor writes CMD 1 for the VT that VIDX names. -/
def execVmapRotate (die : Nat) (s : State) : Answer :=
  .next (s.writeVmap die (setBits (s.vmapWord die) 18 2 1))
/-- VMAP_MARK_RETIRE (R310): a supervisor writes CMD 2 for the PT that PTQ names. -/
def execVmapMarkRetire (die : Nat) (s : State) : Answer :=
  .next (s.writeVmap die (setBits (s.vmapWord die) 18 2 2))
/-- DIAGINJ_ACC_BIT (R324): a supervisor's write. -/
def execDiaginjAccBit (die pt hart row column bit : Nat) (s : State) : Answer :=
  .next (match s.vtOf die pt with
    | some v => s.injectAcc v (hart % 4) row column bit
    | none => s)
/-- DIAGINJ_SRAM_BIT (R324): a supervisor's write. -/
def execDiaginjSramBit (die pt offset bit : Nat) (s : State) : Answer :=
  .next (match s.vtOf die pt with
    | some v => if offset % 8 = 0 then s.injectSram v offset bit else s
    | none => s)
/-- DIAGINJ_SIGNATURE (R324): a supervisor's write. -/
def execDiaginjSignature (die pt hart : Nat) (s : State) : Answer :=
  .next (match s.vtOf die pt with
    | some v => s.injectSignature (v * 4 + hart % 4)
    | none => s)

/-- DBGCTL_RESUME (R349, R351, R353): the host resumes a hart. -/
def execDbgctlResume (hart : Nat) (s : State) : Answer :=
  .next (s.onHart hart Hart.debugResume)
/-- DBGCTL_HALTREQ (R349): the host requests a halt. -/
def execDbgctlHaltreq (hart : Nat) (s : State) : Answer :=
  .next (s.requestInterrupt hart 6 0)
/-- PANEL_HALT (R353). -/
def execPanelHalt (s : State) : Answer := .next s.haltPanel
/-- PANEL_RESUME (R353): every hart goes on, one that has not reached its boundary yet too. -/
def execPanelResume (s : State) : Answer :=
  .next (if s.panelHalt.isSome then
    { s with panelHalt := none, harts := s.harts.map fun (h, x) => (h, if isSup h then x else
      { x.debugResume with csr := { x.csr with kip := x.csr.kip &&& ~~~(64#7) } }) }
    else s)

end Sys2Proof.Machine
end

