-- ==== Sys2Proof/Machine/FeMem.lean ====
section
/-! DEFINITION. FEMEM (R134-R138): full/empty lines of slices. -/

namespace Sys2Proof.Machine

/-- SETFULL (R138): a release at panel scope (R137). -/
def execSetfull (sc : BitVec 3) (a : BitVec 5) (s : State) : Answer :=
  s.run { sc := sc, reads := [.g a], writes := [], reach := true } fun s => s.fememWrite (s.self.g a) .setFull true

/-- SETEMPTY (R138): relaxed. -/
def execSetempty (sc : BitVec 3) (a : BitVec 5) (s : State) : Answer :=
  s.run { sc := sc, reads := [.g a], writes := [], reach := true } fun s => s.fememWrite (s.self.g a) .setEmpty false

/-- LDTAKE (R138): an acquire at panel scope (R137). -/
def execLdtake (sc : BitVec 3) (d a : BitVec 5) (s : State) : Answer :=
  s.run { sc := sc, reads := [.g a], writes := [.g d], reach := true } fun s =>
    s.fememRead (s.self.g a) .take d (some 3)

/-- STFILL (R138): a release at panel scope (R137). -/
def execStfill (sc : BitVec 3) (a b : BitVec 5) (s : State) : Answer :=
  s.run { sc := sc, reads := [.g a, .g b], writes := [], reach := true } fun s =>
    s.fememWrite (s.self.g a) (.fill (natBytes 8 (s.self.g b).toNat)) true

/-- FESTAT (R138): never waits. -/
def execFestat (sc : BitVec 3) (d a : BitVec 5) (s : State) : Answer :=
  s.run { sc := sc, reads := [.g a], writes := [.g d] } fun s => s.fememRead (s.self.g a) .festat d none

end Sys2Proof.Machine
end

