-- ==== Sys2Proof/Machine/Imm.lean ====
section
/-! DEFINITION. Immediate forms, constants (R49, R147-R149). -/

namespace Sys2Proof.Machine

/-- Addi (R147). -/
def execAddi (sc : BitVec 3) (d a : BitVec 5) (i : BitVec 12) (s : State) : Answer :=
  s.fixed1 sc d a fun a => a + i.signExtend 64

/-- Andi (R147). -/
def execAndi (sc : BitVec 3) (d a : BitVec 5) (i : BitVec 12) (s : State) : Answer :=
  s.fixed1 sc d a fun a => a &&& i.signExtend 64

/-- Ori (R147). -/
def execOri (sc : BitVec 3) (d a : BitVec 5) (i : BitVec 12) (s : State) : Answer :=
  s.fixed1 sc d a fun a => a ||| i.signExtend 64

/-- Xori (R147). -/
def execXori (sc : BitVec 3) (d a : BitVec 5) (i : BitVec 12) (s : State) : Answer :=
  s.fixed1 sc d a fun a => a ^^^ i.signExtend 64

/-- Slti (R147). -/
def execSlti (sc : BitVec 3) (d a : BitVec 5) (i : BitVec 12) (s : State) : Answer :=
  s.fixed1 sc d a fun a => truth (slt a (i.signExtend 64))

/-- Sltiu (R147). -/
def execSltiu (sc : BitVec 3) (d a : BitVec 5) (i : BitVec 12) (s : State) : Answer :=
  s.fixed1 sc d a fun a => truth (ult a (i.signExtend 64))

/-- Addiw (R147). -/
def execAddiw (sc : BitVec 3) (d a : BitVec 5) (i : BitVec 12) (s : State) : Answer :=
  s.fixed1 sc d a fun a => ((a + i.signExtend 64).truncate 32 : Word32).signExtend 64

/-- Slli (R148). -/
def execSlli (sc : BitVec 3) (d a : BitVec 5) (h : BitVec 6) (s : State) : Answer :=
  s.fixed1 sc d a fun a => a <<< h.toNat

/-- Srli (R148). -/
def execSrli (sc : BitVec 3) (d a : BitVec 5) (h : BitVec 6) (s : State) : Answer :=
  s.fixed1 sc d a fun a => a >>> h.toNat

/-- Srai (R148). -/
def execSrai (sc : BitVec 3) (d a : BitVec 5) (h : BitVec 6) (s : State) : Answer :=
  s.fixed1 sc d a fun a => a.sshiftRight h.toNat

/-- Rori (R148). -/
def execRori (sc : BitVec 3) (d a : BitVec 5) (h : BitVec 6) (s : State) : Answer :=
  s.fixed1 sc d a fun a => a.rotateRight h.toNat

/-- Slliw (R148). -/
def execSlliw (sc : BitVec 3) (d a : BitVec 5) (h : BitVec 5) (s : State) : Answer :=
  s.fixed1 sc d a fun a => onLow (fun x => x <<< h.toNat) a

/-- Srliw (R148). -/
def execSrliw (sc : BitVec 3) (d a : BitVec 5) (h : BitVec 5) (s : State) : Answer :=
  s.fixed1 sc d a fun a => onLow (fun x => x >>> h.toNat) a

/-- Sraiw (R148). -/
def execSraiw (sc : BitVec 3) (d a : BitVec 5) (h : BitVec 5) (s : State) : Answer :=
  s.fixed1 sc d a fun a => onLow (fun x => x.sshiftRight h.toNat) a

/-- Roriw (R148). -/
def execRoriw (sc : BitVec 3) (d a : BitVec 5) (h : BitVec 5) (s : State) : Answer :=
  s.fixed1 sc d a fun a => onLow (fun x => x.rotateRight h.toNat) a

/-- LUI (R149). -/
def execLui (sc : BitVec 3) (d : BitVec 5) (i : BitVec 17) (s : State) : Answer :=
  s.fixed0 sc d 4 fun _ => i.signExtend 64 * 4096

/-- AUIPC (R149). -/
def execAuipc (sc : BitVec 3) (d : BitVec 5) (i : BitVec 17) (s : State) : Answer :=
  s.fixed0 sc d 4 fun pc => pc + i.signExtend 64 * 4096

/-- LIW (R49): two words long. -/
def execLiw (sc : BitVec 3) (d : BitVec 5) (imm : BitVec 32) (s : State) : Answer :=
  s.fixed0 sc d 8 fun _ => imm.signExtend 64

end Sys2Proof.Machine
end

