-- ==== Sys2Proof/Machine/Int.lean ====
section
/-! DEFINITION. INT, INTW and MULDIV (R144-R146). -/

namespace Sys2Proof.Machine

/-- Add (R144). -/
def execAdd (sc : BitVec 3) (d a b : BitVec 5) (s : State) : Answer :=
  s.fixed2 1 sc d a b fun a b => a + b

/-- Sub (R144). -/
def execSub (sc : BitVec 3) (d a b : BitVec 5) (s : State) : Answer :=
  s.fixed2 1 sc d a b fun a b => a - b

/-- And (R144). -/
def execAnd (sc : BitVec 3) (d a b : BitVec 5) (s : State) : Answer :=
  s.fixed2 1 sc d a b fun a b => a &&& b

/-- Or (R144). -/
def execOr (sc : BitVec 3) (d a b : BitVec 5) (s : State) : Answer :=
  s.fixed2 1 sc d a b fun a b => a ||| b

/-- Xor (R144). -/
def execXor (sc : BitVec 3) (d a b : BitVec 5) (s : State) : Answer :=
  s.fixed2 1 sc d a b fun a b => a ^^^ b

/-- Andn (R144). -/
def execAndn (sc : BitVec 3) (d a b : BitVec 5) (s : State) : Answer :=
  s.fixed2 1 sc d a b fun a b => a &&& ~~~b

/-- Orn (R144). -/
def execOrn (sc : BitVec 3) (d a b : BitVec 5) (s : State) : Answer :=
  s.fixed2 1 sc d a b fun a b => a ||| ~~~b

/-- Sll (R144). -/
def execSll (sc : BitVec 3) (d a b : BitVec 5) (s : State) : Answer :=
  s.fixed2 1 sc d a b fun a b => a <<< low6 b

/-- Srl (R144). -/
def execSrl (sc : BitVec 3) (d a b : BitVec 5) (s : State) : Answer :=
  s.fixed2 1 sc d a b fun a b => a >>> low6 b

/-- Sra (R144). -/
def execSra (sc : BitVec 3) (d a b : BitVec 5) (s : State) : Answer :=
  s.fixed2 1 sc d a b fun a b => a.sshiftRight (low6 b)

/-- Rol (R144). -/
def execRol (sc : BitVec 3) (d a b : BitVec 5) (s : State) : Answer :=
  s.fixed2 1 sc d a b fun a b => a.rotateLeft (low6 b)

/-- Ror (R144). -/
def execRor (sc : BitVec 3) (d a b : BitVec 5) (s : State) : Answer :=
  s.fixed2 1 sc d a b fun a b => a.rotateRight (low6 b)

/-- Slt (R144). -/
def execSlt (sc : BitVec 3) (d a b : BitVec 5) (s : State) : Answer :=
  s.fixed2 1 sc d a b fun a b => truth (slt a b)

/-- Sltu (R144). -/
def execSltu (sc : BitVec 3) (d a b : BitVec 5) (s : State) : Answer :=
  s.fixed2 1 sc d a b fun a b => truth (ult a b)

/-- Seq (R144). -/
def execSeq (sc : BitVec 3) (d a b : BitVec 5) (s : State) : Answer :=
  s.fixed2 1 sc d a b fun a b => truth (a == b)

/-- Sne (R144). -/
def execSne (sc : BitVec 3) (d a b : BitVec 5) (s : State) : Answer :=
  s.fixed2 1 sc d a b fun a b => truth (a != b)

/-- Min (R144). -/
def execMin (sc : BitVec 3) (d a b : BitVec 5) (s : State) : Answer :=
  s.fixed2 1 sc d a b fun a b => if slt b a then b else a

/-- Max (R144). -/
def execMax (sc : BitVec 3) (d a b : BitVec 5) (s : State) : Answer :=
  s.fixed2 1 sc d a b fun a b => if slt a b then b else a

/-- Minu (R144). -/
def execMinu (sc : BitVec 3) (d a b : BitVec 5) (s : State) : Answer :=
  s.fixed2 1 sc d a b fun a b => if ult b a then b else a

/-- Maxu (R144). -/
def execMaxu (sc : BitVec 3) (d a b : BitVec 5) (s : State) : Answer :=
  s.fixed2 1 sc d a b fun a b => if ult a b then b else a

/-- Clz (R144). -/
def execClz (sc : BitVec 3) (d a : BitVec 5) (s : State) : Answer :=
  s.fixed1 sc d a fun a => clz a

/-- Ctz (R144). -/
def execCtz (sc : BitVec 3) (d a : BitVec 5) (s : State) : Answer :=
  s.fixed1 sc d a fun a => ctz a

/-- Popc (R144). -/
def execPopc (sc : BitVec 3) (d a : BitVec 5) (s : State) : Answer :=
  s.fixed1 sc d a fun a => popc a

/-- Brev (R144). -/
def execBrev (sc : BitVec 3) (d a : BitVec 5) (s : State) : Answer :=
  s.fixed1 sc d a fun a => brev a

/-- Sextb (R144). -/
def execSextb (sc : BitVec 3) (d a : BitVec 5) (s : State) : Answer :=
  s.fixed1 sc d a fun a => sext a 8

/-- Sexth (R144). -/
def execSexth (sc : BitVec 3) (d a : BitVec 5) (s : State) : Answer :=
  s.fixed1 sc d a fun a => sext a 16

/-- Sextw (R144). -/
def execSextw (sc : BitVec 3) (d a : BitVec 5) (s : State) : Answer :=
  s.fixed1 sc d a fun a => sext a 32

/-- Zextw (R144). -/
def execZextw (sc : BitVec 3) (d a : BitVec 5) (s : State) : Answer :=
  s.fixed1 sc d a fun a => zext a 32

/-- ADDSH (R144): the shift is FN - 0x1F, so one more than the two low bits of FN. -/
def execAddsh (sc : BitVec 3) (d a b : BitVec 5) (h : BitVec 2) (s : State) : Answer :=
  s.fixed2 1 sc d a b fun a b => (a <<< (h.toNat + 1)) + b

/-- Addw (R145). -/
def execAddw (sc : BitVec 3) (d a b : BitVec 5) (s : State) : Answer :=
  s.fixed2 1 sc d a b fun a b => ((a + b).truncate 32 : Word32).signExtend 64

/-- Subw (R145). -/
def execSubw (sc : BitVec 3) (d a b : BitVec 5) (s : State) : Answer :=
  s.fixed2 1 sc d a b fun a b => ((a - b).truncate 32 : Word32).signExtend 64

/-- Sllw (R145). -/
def execSllw (sc : BitVec 3) (d a b : BitVec 5) (s : State) : Answer :=
  s.fixed2 1 sc d a b fun a b => onLow (fun x => x <<< low5 b) a

/-- Srlw (R145). -/
def execSrlw (sc : BitVec 3) (d a b : BitVec 5) (s : State) : Answer :=
  s.fixed2 1 sc d a b fun a b => onLow (fun x => x >>> low5 b) a

/-- Sraw (R145). -/
def execSraw (sc : BitVec 3) (d a b : BitVec 5) (s : State) : Answer :=
  s.fixed2 1 sc d a b fun a b => onLow (fun x => x.sshiftRight (low5 b)) a

/-- Rolw (R145). -/
def execRolw (sc : BitVec 3) (d a b : BitVec 5) (s : State) : Answer :=
  s.fixed2 1 sc d a b fun a b => onLow (fun x => x.rotateLeft (low5 b)) a

/-- Rorw (R145). -/
def execRorw (sc : BitVec 3) (d a b : BitVec 5) (s : State) : Answer :=
  s.fixed2 1 sc d a b fun a b => onLow (fun x => x.rotateRight (low5 b)) a

/-- Mul (R146). -/
def execMul (sc : BitVec 3) (d a b : BitVec 5) (s : State) : Answer :=
  s.fixed2 3 sc d a b fun a b => a * b

/-- Mulhs (R146). -/
def execMulhs (sc : BitVec 3) (d a b : BitVec 5) (s : State) : Answer :=
  s.fixed2 3 sc d a b fun a b => BitVec.ofInt 64 (a.toInt * b.toInt / 2 ^ 64)

/-- Mulhz (R146). -/
def execMulhz (sc : BitVec 3) (d a b : BitVec 5) (s : State) : Answer :=
  s.fixed2 3 sc d a b fun a b => BitVec.ofNat 64 (a.toNat * b.toNat / 2 ^ 64)

/-- Mulhsz (R146). -/
def execMulhsz (sc : BitVec 3) (d a b : BitVec 5) (s : State) : Answer :=
  s.fixed2 3 sc d a b fun a b => BitVec.ofInt 64 (a.toInt * (b.toNat : Int) / 2 ^ 64)

/-- Mulw (R146). -/
def execMulw (sc : BitVec 3) (d a b : BitVec 5) (s : State) : Answer :=
  s.fixed2 3 sc d a b fun a b => ((a * b).truncate 32 : Word32).signExtend 64

/-- Div (R146). -/
def execDiv (sc : BitVec 3) (d a b : BitVec 5) (s : State) : Answer :=
  s.board2 sc d a b (divide true true true)

/-- Divu (R146). -/
def execDivu (sc : BitVec 3) (d a b : BitVec 5) (s : State) : Answer :=
  s.board2 sc d a b (divide false true true)

/-- Rem (R146). -/
def execRem (sc : BitVec 3) (d a b : BitVec 5) (s : State) : Answer :=
  s.board2 sc d a b (divide true true false)

/-- Remu (R146). -/
def execRemu (sc : BitVec 3) (d a b : BitVec 5) (s : State) : Answer :=
  s.board2 sc d a b (divide false true false)

/-- Divw (R146). -/
def execDivw (sc : BitVec 3) (d a b : BitVec 5) (s : State) : Answer :=
  s.board2 sc d a b (divide true false true)

/-- Divuw (R146). -/
def execDivuw (sc : BitVec 3) (d a b : BitVec 5) (s : State) : Answer :=
  s.board2 sc d a b (divide false false true)

/-- Remw (R146). -/
def execRemw (sc : BitVec 3) (d a b : BitVec 5) (s : State) : Answer :=
  s.board2 sc d a b (divide true false false)

/-- Remuw (R146). -/
def execRemuw (sc : BitVec 3) (d a b : BitVec 5) (s : State) : Answer :=
  s.board2 sc d a b (divide false false false)

end Sys2Proof.Machine
end

