-- ==== Sys2Proof/Machine/LoadStore.lean ====
section
/-! DEFINITION. Scalar loads and stores, acquire loads and release stores (R152-R155). -/

namespace Sys2Proof.Machine

/-- A scalar load (R152): misalignment before everything the address leads to. -/
def State.loadScalar (s : State) (sc : BitVec 3) (dst : LoadDst) (d : Reg) (a : BitVec 5) (i : BitVec 12) (n : Nat) :
    Answer :=
  s.run { sc := sc, reads := [.g a], writes := [d] } fun s =>
    let va := s.self.g a + i.signExtend 64
    if va.toNat % n ≠ 0 then .trap .misalign va else s.load .load dst none [(va, n, 0)]

/-- A scalar store of the low `n` bytes of a register (R152). -/
def State.storeScalar (s : State) (sc : BitVec 3) (t : Reg) (a : BitVec 5) (i : BitVec 12) (n : Nat) : Answer :=
  s.run { sc := sc, reads := [.g a, t], writes := [], fields := some [.g a], reach := true } fun s =>
    let va := s.self.g a + i.signExtend 64
    if va.toNat % n ≠ 0 then .trap .misalign va else s.store [(va, solid (natBytes n (s.self.read t).toNat))]

/-- LDB (R153). -/
def execLdb (sc : BitVec 3) (d a : BitVec 5) (i : BitVec 12) (s : State) : Answer :=
  s.loadScalar sc (.g d 1 true) (.g d) a i 1

/-- LDH (R153). -/
def execLdh (sc : BitVec 3) (d a : BitVec 5) (i : BitVec 12) (s : State) : Answer :=
  s.loadScalar sc (.g d 2 true) (.g d) a i 2

/-- LDW (R153). -/
def execLdw (sc : BitVec 3) (d a : BitVec 5) (i : BitVec 12) (s : State) : Answer :=
  s.loadScalar sc (.g d 4 true) (.g d) a i 4

/-- LDD (R153). -/
def execLdd (sc : BitVec 3) (d a : BitVec 5) (i : BitVec 12) (s : State) : Answer :=
  s.loadScalar sc (.g d 8 true) (.g d) a i 8

/-- LDBZ (R153). -/
def execLdbz (sc : BitVec 3) (d a : BitVec 5) (i : BitVec 12) (s : State) : Answer :=
  s.loadScalar sc (.g d 1 false) (.g d) a i 1

/-- LDHZ (R153). -/
def execLdhz (sc : BitVec 3) (d a : BitVec 5) (i : BitVec 12) (s : State) : Answer :=
  s.loadScalar sc (.g d 2 false) (.g d) a i 2

/-- LDWZ (R153). -/
def execLdwz (sc : BitVec 3) (d a : BitVec 5) (i : BitVec 12) (s : State) : Answer :=
  s.loadScalar sc (.g d 4 false) (.g d) a i 4

/-- STB (R153). -/
def execStb (sc : BitVec 3) (t a : BitVec 5) (i : BitVec 12) (s : State) : Answer :=
  s.storeScalar sc (.g t) a i 1

/-- STH (R153). -/
def execSth (sc : BitVec 3) (t a : BitVec 5) (i : BitVec 12) (s : State) : Answer :=
  s.storeScalar sc (.g t) a i 2

/-- STW (R153). -/
def execStw (sc : BitVec 3) (t a : BitVec 5) (i : BitVec 12) (s : State) : Answer :=
  s.storeScalar sc (.g t) a i 4

/-- STD (R153). -/
def execStd (sc : BitVec 3) (t a : BitVec 5) (i : BitVec 12) (s : State) : Answer :=
  s.storeScalar sc (.g t) a i 8

/-- FLDW (R154). -/
def execFldw (sc : BitVec 3) (d a : BitVec 5) (i : BitVec 12) (s : State) : Answer :=
  s.loadScalar sc (.f d 4) (.f d) a i 4

/-- FLDD (R154). -/
def execFldd (sc : BitVec 3) (d a : BitVec 5) (i : BitVec 12) (s : State) : Answer :=
  s.loadScalar sc (.f d 8) (.f d) a i 8

/-- FSTW (R154): the low bytes as they stand. -/
def execFstw (sc : BitVec 3) (t a : BitVec 5) (i : BitVec 12) (s : State) : Answer :=
  s.storeScalar sc (.f t) a i 4

/-- FSTD (R154): the low bytes as they stand. -/
def execFstd (sc : BitVec 3) (t a : BitVec 5) (i : BitVec 12) (s : State) : Answer :=
  s.storeScalar sc (.f t) a i 8

/-- LD.ACQ (R155). -/
def execLdAcq (sc : BitVec 3) (d a : BitVec 5) (e : BitVec 3) (z : BitVec 2) (s : State) : Answer :=
  s.run { sc := sc, reads := [.g a], writes := [.g d] } fun s =>
    let va := s.self.g a
    let n := 2 ^ z.toNat
    if va.toNat % n ≠ 0 then .trap .misalign va
    else s.load .load (.g d n false) (some e.toNat) [(va, n, 0)]

/-- ST.REL (R155): waits as FENCE.scope.rel, then stores. -/
def execStRel (sc : BitVec 3) (a b : BitVec 5) (e : BitVec 3) (z : BitVec 2) (s : State) : Answer :=
  s.run { sc := sc, reads := [.g a, .g b], writes := [], reach := true } fun s =>
    let va := s.self.g a
    let n := 2 ^ z.toNat
    if !s.released s.cur e.toNat then .wait s
    else if va.toNat % n ≠ 0 then .trap .misalign va
    else s.store [(va, solid (natBytes n (s.self.g b).toNat))]

end Sys2Proof.Machine
end

