-- ==== Sys2Proof/Machine/Vec.lean ====
section
/-! DEFINITION. What vector instructions share: element types, masks, the lane groups with their arbiter, and the shape of
a member that works lane by lane (R32, R33, R59, R165-R169, R171, R176, R334). -/

namespace Sys2Proof.Machine

/-! ### Element types (R32), by the code of VTYPE.TYPE -/

def elemCount (t : Nat) : Nat := 512 / elemWidth t
def elemSigned (t : Nat) : Bool := decide (t < 4)
def elemIsInt (t : Nat) : Bool := decide (t < 8)
def elemIsFloat (t : Nat) : Bool := (elemFmt t).isSome
/-- Arithmetic is legal: every type but nq4 (R168). -/
def elemTyped (t : Nat) : Bool := decide (t < 14)
def elemRange (t : Nat) : Int × Int := intRange (elemSigned t) (elemWidth t)

/-- An integer lane's value, signed under s types and unsigned under z types (R169). -/
def laneInt (t x : Nat) : Int := if elemSigned t then signedOf (elemWidth t) x else x

/-- A field of a lane's width holding an integer, wrapped or saturated (R59). -/
def wrapLane (t : Nat) (x : Int) : Nat := wrapTo (elemWidth t) x
def satLane (t : Nat) (x : Int) : Nat := wrapTo (elemWidth t) (satInt (elemRange t) x)

/-- A float lane's value, zero for an integer type. -/
def laneFp (t x : Nat) : Fp :=
  match elemFmt t with
  | some f => f.value x
  | none => Fp.ofInt (laneInt t x)

/-- VTYPE.TYPE at issue (R168). -/
def State.vtype (s : State) : Nat := s.self.csr.vtype.toNat

/-! ### Masks (R33) -/

/-- The lanes a K field selects: 0 selects all. -/
def Hart.mask (x : Hart) (k : BitVec 3) : Word := if k = 0 then ~~~0#64 else x.k k

def maskReg (k : BitVec 3) : List Reg := if k = 0 then [] else [.k k]

/-- The low `n` bits of a mask. -/
def lowMask (n : Nat) (w : Word) : Word := BitVec.ofNat 64 (w.toNat % 2 ^ n)

/-! ### Lane groups and their arbiter (R165-R167) -/

/-- The effective duty (R334). -/
def Hart.duty (x : Hart) : Nat :=
  if x.mode = .user then x.csr.fetchduty.toNat else max x.csr.fetchduty.toNat 1

def Tile.share (t : Tile) (h : Nat) : Nat := entryAt t.shares (hartSlot h) 0

/-- Harts whose context is denied issue do not contend (R166, R334, R335). -/
def State.leaveLanes (s : State) (v : Nat) : State :=
  s.onTile v fun t => { t with laneWant := t.laneWant.filter fun w => !(s.hart w.1).denied }

/-- A hart begins to wait for a lane group: after a cycle in which it did not, its share count rises to the least of those
that wait (R166). -/
def State.wantLane (s : State) (h occ : Nat) : State :=
  (s.leaveLanes (hartVt h)).onTile (hartVt h) fun t =>
    if t.laneGrants.contains h || t.laneWant.any (·.1 == h) then t
    else
      let least := t.laneWant.foldl (fun o w => min o (t.share w.1))
        ((t.laneWant.head?.map fun w => t.share w.1).getD 0)
      let now := s.cycle (hartVt h)
      { t with
        shares := if entryAt t.laneSeen (hartSlot h) 0 + 1 < now then onAt t.shares (hartSlot h) (max least) else t.shares
        laneSeen := onAt t.laneSeen (hartSlot h) fun _ => now
        laneWant := t.laneWant ++ [(h, occ)] }

/-- The waiting hart with the least share; ties go round-robin after the hart picked last. -/
def Tile.nextLane (t : Tile) : Option (Nat × Nat) :=
  let order := (List.range 4).map fun i => (t.lastLane + 1 + i) % 4
  let ready := order.filterMap fun i => t.laneWant.find? fun w => hartSlot w.1 == i
  ready.foldl (fun o w => match o with
    | none => some w
    | some b => if t.share w.1 < t.share b.1 then some w else some b) none

/-- One free lane group is bound, if a hart waits for one. -/
def State.bindLane (s : State) (v g : Nat) : State :=
  let t := s.tile v
  if entryAt t.laneFree g 0 ≤ s.cycle v then
    match t.nextLane with
    | none => s
    | some (h, occ) =>
      s.setTile v { t with
        laneFree := onAt t.laneFree g fun _ => s.cycle v + occ
        laneWant := t.laneWant.filter fun w => w.1 != h
        laneGrants := t.laneGrants ++ [h]
        lastLane := hartSlot h
        laneSeen := onAt t.laneSeen (hartSlot h) fun _ => s.cycle v
        shares := onAt t.shares (hartSlot h) fun x => x + occ * 16 * 720720 / (s.hart h).duty }
  else s

/-- The arbiter's work of one cycle, among the harts that contend: the free groups, lowest first; then the least share is taken from all. -/
def State.grantLanes (s : State) (v : Nat) : State :=
  let s := (List.range 4).foldl (fun s g => s.bindLane v g) (s.leaveLanes v)
  s.onTile v fun t =>
    let least := t.shares.toList.foldl min (entryAt t.shares 0 0)
    { t with shares := t.shares.map (· - least) }

/-- An instruction that needs a lane group issues once one is bound to its hart; a supervisor hart contends with no
other (notes/assumptions/15.md). -/
def State.withLane (s : State) (occ : Nat) (k : State → Act) : Act :=
  if isSup s.cur then k s
  else
    let v := hartVt s.cur
    let s := s.wantLane s.cur occ
    let s := if s.prompt then s.grantLanes v else s
    if (s.tile v).laneGrants.contains s.cur then
      k (s.onTile v fun t => { t with laneGrants := t.laneGrants.filter (· != s.cur) })
    else .wait s

/-- LANE_GROUP_GRANT (R166). -/
def execLaneGroupGrant (vt : Nat) (s : State) : Answer := .next (s.grantLanes vt)

/-! ### Results -/

def State.postV (s : State) (d : BitVec 5) (v : VReg) : State := s.onHart s.cur fun x => x.post (.v d) v

def State.postK (s : State) (d : BitVec 3) (w : Word) : State :=
  s.onHart s.cur fun x => x.post (.k d) (w.zeroExtend 512)

/-- A vector instruction: what it reads besides its mask, where it writes, which types it allows, its occupancy, and
what it does once it has a lane group. -/
structure VecOp where
  sc : BitVec 3
  reads : List Reg
  dst : List Reg
  k : BitVec 3
  legal : Nat → Bool := elemTyped
  occ : Nat → Nat := fun _ => 1
  reach : Bool := false

def State.vec (s : State) (o : VecOp) (body : Nat → Word → State → State) : Answer :=
  s.run { sc := o.sc, reads := o.reads ++ maskReg o.k, fields := some o.reads, writes := o.dst, reach := o.reach } fun s =>
    if !o.legal s.vtype then s.illegal
    else s.withLane (o.occ s.vtype) fun s => .done (body s.vtype (s.self.mask o.k) s)

/-- A member that computes lane i from lanes i of its sources and of the old destination (R169). -/
def State.vecMap (s : State) (sc : BitVec 3) (d : BitVec 5) (srcs : List (BitVec 5)) (k : BitVec 3)
    (legal : Nat → Bool) (occ : Nat → Nat) (f : Nat → Rm → Nat → Nat → Nat → Nat) : Answer :=
  s.vec { sc := sc, reads := srcs.map .v, dst := [.v d], k := k, legal := legal, occ := occ } fun t mask s =>
    let w := elemWidth t
    let x := s.self
    let src (i : Nat) : List Nat := lanes w (x.v (srcs.getD i 0))
    let old := lanes w (x.v d)
    s.postV d (mergeLanes w (x.v d) mask fun i =>
      some (f t s.rm ((src 0).getD i 0) ((src 1).getD i 0) (old.getD i 0)))

end Sys2Proof.Machine
end

