-- ==== Sys2Proof/Machine/VecMem.lean ====
section
/-! DEFINITION. Vector loads and stores (R91-R93, R111, R152, R184-R186). -/

namespace Sys2Proof.Machine

/-- The lanes below n that a mask selects. -/
def activeLanes (t : Nat) (mask : Word) : List Nat := (List.range (elemCount t)).filter fun i => mask.getLsbD i

/-- The bytes of a register that a mask of lanes selects, with holes elsewhere. -/
def maskedStore (v : VReg) (w : Nat) (mask : Word) : List (Option Byte) :=
  (vBytes v).zipIdx.map fun (b, i) => if mask.getLsbD (i / w) then some b else none

/-- The address of a VLD or VST (R184). -/
def lineAddress (x : Hart) (a : BitVec 5) (o : BitVec 9) : Word := x.g a + 64 * o.signExtend 64

/-- A fault of a whole line's translation reports the address of the lowest unmasked lane (R186). -/
def Act.faultAt (a : Act) (tval : Word) : Act :=
  match a with
  | .trapFrom s c _ => .trapFrom s c tval
  | a => a

/-- The address of the lowest unmasked lane of a line. -/
def State.lowestLane (s : State) (va mask : Word) : Word :=
  va + BitVec.ofNat 64 ((activeLanes s.vtype mask).headD 0 * (elemWidth s.vtype / 8))

/-- VLD (R184). -/
def execVld (sc : BitVec 3) (d a : BitVec 5) (k : BitVec 3) (o : BitVec 9) (s : State) : Answer :=
  s.run { sc := sc, reads := .g a :: maskReg k, writes := [.v d], fields := some [.g a] } fun s =>
    let va := lineAddress s.self a o
    let mask := s.self.mask k
    if va.toNat % 64 ≠ 0 then .trap .misalign va
    else if (activeLanes s.vtype mask).isEmpty then .done s
    else (s.load .load (.v d (elemWidth s.vtype / 8) mask) none [(va, 64, 0)]).faultAt (s.lowestLane va mask)

/-- VST (R184). -/
def execVst (sc : BitVec 3) (d a : BitVec 5) (k : BitVec 3) (o : BitVec 9) (s : State) : Answer :=
  s.run { sc := sc, reads := .g a :: .v d :: maskReg k, writes := [], fields := some [.g a], reach := true } fun s =>
    let va := lineAddress s.self a o
    let mask := s.self.mask k
    if va.toNat % 64 ≠ 0 then .trap .misalign va
    else if (activeLanes s.vtype mask).isEmpty then .done s
    else (s.store [(va, maskedStore (s.self.v d) (elemWidth s.vtype / 8) mask)]).faultAt (s.lowestLane va mask)

/-- The address of each active lane (R185): g[A] plus its offset. -/
def elementAddresses (active : List Nat) (base : Word) (offset : Nat → Word) : List (Nat × Word) :=
  active.map fun i => (i, base + offset i)

/-- Lane i's offset under a stride of g[B] (R185). -/
def strideOffset (x : Hart) (b : BitVec 5) (i : Nat) : Word := BitVec.ofNat 64 i * x.g b

/-- Lane i's offset from vB, signed at the width of the data (R185). -/
def gatherOffset (x : Hart) (t : Nat) (b : BitVec 5) (i : Nat) : Word :=
  BitVec.ofInt 64 (signedOf (elemWidth t) ((lanes (elemWidth t) (x.v b)).getD i 0))

/-- A VMEMX load (R185, R186): the lowest misaligned lane first, then every element checked in lane order. -/
def State.loadElements (s : State) (d : BitVec 5) (mask : Word) (elems : List (Nat × Word)) : Act :=
  let n := elemWidth s.vtype / 8
  match elems.find? fun e => e.2.toNat % n != 0 with
  | some e => .trap .misalign e.2
  | none =>
    if elems.isEmpty then .done s
    else s.load .load (.v d n mask) none (elems.map fun (i, va) => (va, n, i * n))

/-- A VMEMX store (R185, R186). -/
def State.storeElements (s : State) (d : BitVec 5) (elems : List (Nat × Word)) : Act :=
  let n := elemWidth s.vtype / 8
  match elems.find? fun e => e.2.toNat % n != 0 with
  | some e => .trap .misalign e.2
  | none =>
    if elems.isEmpty then .done s
    else s.store (elems.map fun (i, va) => (va, solid (((vBytes (s.self.v d)).drop (i * n)).take n)))

/-- VLDS (R185). -/
def execVlds (sc : BitVec 3) (d a b : BitVec 5) (k : BitVec 3) (s : State) : Answer :=
  s.run { sc := sc, reads := .g a :: .g b :: maskReg k, writes := [.v d], fields := some [.g a, .g b] } fun s =>
    let x := s.self
    s.loadElements d (x.mask k) (elementAddresses (activeLanes s.vtype (x.mask k)) (x.g a) (strideOffset x b))

/-- VSTS (R185). -/
def execVsts (sc : BitVec 3) (d a b : BitVec 5) (k : BitVec 3) (s : State) : Answer :=
  s.run { sc := sc, reads := .g a :: .g b :: .v d :: maskReg k, writes := [], fields := some [.g a, .g b]
          reach := true } fun s =>
    let x := s.self
    s.storeElements d (elementAddresses (activeLanes s.vtype (x.mask k)) (x.g a) (strideOffset x b))

/-- VGATH (R185). -/
def execVgath (sc : BitVec 3) (d a b : BitVec 5) (k : BitVec 3) (s : State) : Answer :=
  s.run { sc := sc, reads := .g a :: .v b :: maskReg k, writes := [.v d], fields := some [.g a, .v b] } fun s =>
    let x := s.self
    s.loadElements d (x.mask k)
      (elementAddresses (activeLanes s.vtype (x.mask k)) (x.g a) (gatherOffset x s.vtype b))

/-- VSCAT (R185): of lanes at one address the higher stays (R186). -/
def execVscat (sc : BitVec 3) (d a b : BitVec 5) (k : BitVec 3) (s : State) : Answer :=
  s.run { sc := sc, reads := .g a :: .v b :: .v d :: maskReg k, writes := [], fields := some [.g a, .v b]
          reach := true } fun s =>
    let x := s.self
    s.storeElements d (elementAddresses (activeLanes s.vtype (x.mask k)) (x.g a) (gatherOffset x s.vtype b))

/-- VLDB (R185): one element read once for every unmasked lane. -/
def execVldb (sc : BitVec 3) (d a : BitVec 5) (k : BitVec 3) (s : State) : Answer :=
  s.run { sc := sc, reads := .g a :: maskReg k, writes := [.v d], fields := some [.g a] } fun s =>
    let va := s.self.g a
    let mask := s.self.mask k
    let n := elemWidth s.vtype / 8
    if (activeLanes s.vtype mask).isEmpty then .done s
    else if va.toNat % n ≠ 0 then .trap .misalign va
    else s.load .load (.bcast d n mask) none [(va, n, 0)]

end Sys2Proof.Machine
end

