-- ==== Sys2Proof/Machine/Mreg.lean ====
section
/-! DEFINITION. The MREG group: rows and columns of matrix registers, MLDM and MSTM (R34, R207, R208). -/

namespace Sys2Proof.Machine

/-- The checks of R207 before what a member does. -/
def State.withMreg (s : State) (m : BitVec 3) (k : State → Act) : Act :=
  if s.self.mGone m then .trap .matrixUnavail (m.zeroExtend 64)
  else if s.self.mRows m = 0 then .trap .mregUnconfig (m.zeroExtend 64)
  else k s

/-- The rows of an m register. -/
def Hart.rows (x : Hart) (m : BitVec 3) : Vector VReg 16 := x.m[m.toNat]'m.isLt

/-- An m register written, with its dirty bit. -/
def Hart.setRows (x : Hart) (m : BitVec 3) (r : Vector VReg 16) : Hart :=
  { x with m := x.m.set m.toNat r m.isLt, mDirty := x.mDirty ||| BitVec.ofNat 8 (2 ^ m.toNat) }

/-- The low `w` bytes of a register, zeros above. -/
def lowBytes (v : VReg) (w : Nat) : VReg := BitVec.ofNat 512 (v.toNat % 2 ^ (8 * w))

/-- A register with one element of `w` bits replaced. -/
def setElement (v : VReg) (w i x : Nat) : VReg := ofLanes w ((lanes w v).set i x)

/-- MROWSET (R207). -/
def execMrowset (sc : BitVec 3) (m : BitVec 3) (a b : BitVec 5) (s : State) : Answer :=
  s.run { sc := sc, reads := [.v a, .g b], writes := [.m m], reach := true } fun s =>
    s.withMreg m fun s =>
      .done (s.onHart s.cur fun x =>
        let r := (x.g b).toNat
        if r < x.mRows m then x.setRows m (onAt (x.rows m) r fun _ => lowBytes (x.v a) (x.mWidth m)) else x)

/-- MROWGET (R207). -/
def execMrowget (sc : BitVec 3) (d : BitVec 5) (m : BitVec 3) (b : BitVec 5) (s : State) : Answer :=
  s.run { sc := sc, reads := [.m m, .g b], writes := [.v d], fields := some [.m m, .g b], reach := true } fun s =>
    s.withMreg m fun s =>
      let x := s.self
      let r := (x.g b).toNat
      .done (s.postV d (if r < x.mRows m then lowBytes (entryAt (x.rows m) r 0) (x.mWidth m) else 0))

/-- MCOLSET (R207). -/
def execMcolset (sc : BitVec 3) (m : BitVec 3) (a b : BitVec 5) (s : State) : Answer :=
  s.run { sc := sc, reads := [.v a, .g b], writes := [.m m], reach := true } fun s =>
    s.withMreg m fun s =>
      let t := s.vtype
      let w := elemWidth t
      .done (s.onHart s.cur fun x =>
        let c := (x.g b).toNat
        let src := lanes w (x.v a)
        let rows := Vector.ofFn fun i : Fin 16 =>
          let row := (x.rows m)[i.val]
          if i.val < min (x.mRows m) (elemCount t) then setElement row w c (src.getD i.val 0) else row
        if c < x.mWidth m / (w / 8) then x.setRows m rows else x)

/-- MCOLGET (R207). -/
def execMcolget (sc : BitVec 3) (d : BitVec 5) (m : BitVec 3) (b : BitVec 5) (s : State) : Answer :=
  s.run { sc := sc, reads := [.m m, .g b], writes := [.v d], fields := some [.m m, .g b], reach := true } fun s =>
    s.withMreg m fun s =>
      let t := s.vtype
      let w := elemWidth t
      let x := s.self
      let c := (x.g b).toNat
      .done (s.postV d (ofLanes w ((List.range (elemCount t)).map fun i =>
        if c < x.mWidth m / (w / 8) ∧ i < min (x.mRows m) (elemCount t) then
          (lanes w (entryAt (x.rows m) i 0)).getD c 0
        else 0)))

/-- The address of each row (R207). -/
def Hart.rowAddresses (x : Hart) (m : BitVec 3) (a : BitVec 5) : List (Nat × Word) :=
  (List.range (x.mRows m)).map fun i => (i, x.g a + BitVec.ofNat 64 (i * x.mWidth m))

/-- MLDM (R207, R208). -/
def execMldm (sc : BitVec 3) (m : BitVec 3) (a : BitVec 5) (s : State) : Answer :=
  s.run { sc := sc, reads := [.g a], writes := [.m m], reach := true } fun s =>
    s.withMreg m fun s =>
      let x := s.self
      let w := x.mWidth m
      if (x.g a).toNat % w ≠ 0 then .trap .misalign (x.g a)
      else s.load .load (.m m w) none ((x.rowAddresses m a).map fun (i, va) => (va, w, 64 * i))

/-- MSTM (R207, R208). -/
def execMstm (sc : BitVec 3) (m : BitVec 3) (a : BitVec 5) (s : State) : Answer :=
  s.run { sc := sc, reads := [.m m, .g a], writes := [], fields := some [.g a], reach := true } fun s =>
    s.withMreg m fun s =>
      let x := s.self
      let w := x.mWidth m
      if (x.g a).toNat % w ≠ 0 then .trap .misalign (x.g a)
      else s.store ((x.rowAddresses m a).map fun (i, va) =>
        (va, solid ((vBytes (entryAt (x.rows m) i 0)).take w)))

end Sys2Proof.Machine
end

