-- ==== Sys2Proof/Machine/Panel.lean ====
section
/-! DEFINITION. The panel supervisor, the host and what comes from outside: bring-up, the message window, launches,
cancels, management, CXL extents, images and quotes, BAR2 and BAR0, links, samples, the flash (R102, R274-R281, R355,
R358-R368, R387, R389, R392, R396). -/

namespace Sys2Proof.Machine

/-! ### Bring-up (R387, R389, R392) -/

/-- What the flash keeps of a physical tile: state, AGESTRESS, AGEERR. -/
def State.flashOf (s : State) (k : Nat) : Option (PtState × Nat × Nat) := (s.flash.find? fun f => f.1 == k).map (·.2)

/-- A physical tile before the steps of bring-up: retired in the flash, or as the blob has it, with the flash's counts. -/
def State.bootPt (s : State) (d p : Nat) : Pt :=
  let x := s.blob.pt d p
  match s.flashOf (d * 72 + p) with
  | some (st, stress, errors) => { x with
      state := if st = .retired then .retired else x.state
      stress := BitVec.ofNat 48 stress, errors := BitVec.ofNat 32 errors }
  | none => x

/-- Tiles of a die that the tree leaves without a clock at depth 32 or less are retired (R387 step 3). -/
def State.retireClockless (s : State) (d : Nat) : State :=
  ((List.range 72).filter fun p => (s.pt d p).state != .retired && ((s.pt d p).clockLost || decide (32 < s.depthOf d p))).foldl
    (fun s p => s.onPt d p fun x => { x with state := .retired }) s

/-- Self-test of a die's tiles (R387 step 4): a failing one is logged and retired, and the tiles behind it get other parents. -/
def State.bootTest (s : State) (failing : List Nat) (d : Nat) : State :=
  let bad := (List.range 72).filter fun p => failing.contains (d * 72 + p) && (s.pt d p).state != .retired
  if bad.isEmpty then s
  else
    ((bad.foldl (fun s p => (s.logTest d p).onPt d p fun x => { x with state := .retired }) s).bootTree d).retireClockless d

/-- The map of a die (R387 step 5): VTs take the passing PTs in ascending order, the rest become ready spares, and VTs left
over are lost, under a PT number that no tile has, with the record of R327. -/
def State.bootMap (s : State) (d : Nat) : State :=
  let good := (List.range 72).filter fun p => (s.pt d p).state != .retired
  let s := good.zipIdx.foldl (fun s (p, i) =>
    let st : PtState := if i < 64 then .inService else .readySpare
    if (s.pt d p).state = st then s else s.onPt d p fun x => { x with state := st }) s
  (List.range 64).foldl (fun s i =>
    match good[i]? with
    | some p => if p = i then s else s.onDie d fun y => { y with vmap := y.vmap.put i p }
    | none => ((s.onDie d fun y => { y with vmap := y.vmap.put i 127, lost := y.lost + 1 }).onTile (d * 64 + i) fun x =>
        { x with cond := .lost, hasCkpt := false }).postVtRecord (d * 64 + i)) s

/-- A die's tiles, tree and map as steps 3 to 5 leave them (R387). -/
def State.bootDie (s : State) (failing : List Nat) (d : Nat) : State :=
  let s := s.onDie d fun y => { y with lane := Map.find s.blob.lanes d, nextRotation := s.readyAt + rotationPeriod }
  let s := (List.range 72).foldl (fun s p => if s.bootPt d p = Pt.reset p then s else s.setPt d p (s.bootPt d p)) s
  (((s.bootTree d).retireClockless d).bootTest failing d).bootMap d

/-- The memory after a panel reset: slices and base images read as zero (R134, R387), stacks and what lies outside the panel
keep their data. -/
def resetCells (m : List Host.Cell) : List Host.Cell := m.filter fun c =>
  !decide (sliceKey 0 0 ≤ c.1 ∧ c.1 < sliceKey 4096 0) &&
    !decide (c.1 < hbmKey 48 0 ∧ 0xBF0000000 ≤ c.1 % 2 ^ 36 ∧ c.1 % 2 ^ 36 < stackBytes)

/-- Why the boot ROM would not bring the panel up (R387 step 2, R389): a signature, the header, or the version. -/
def Blob.verdict (b : Blob) (signed : Bool) : Option ResetCause :=
  if !signed then some .signature
  else if b.magic ≠ 0x42464C42 ∨ b.reserved.any (· != 0) = true then some .header
  else if b.version < b.minVersion then some .version
  else none

/-- Every field at its value for reset (R389, R392): those marked cfg as the blob has them. What the stacks hold, the flash
and the model's own bookkeeping stay; the timebase starts at 0 (R163), and steps 6 and 7 take a time that is left open. -/
def State.resetFields (s : State) : State :=
  let b := s.blob
  let (ready, t) := State.freeBelow { State.reset with
    mem := resetCells s.mem, badLines := s.badLines, flash := s.flash, blob := b, panel := b.panel, hbm := b.hbm
    grid := { Grid.reset with vpoint := b.vpoint, fpoint := b.fpoint, ctl := b.gridctl }
    harts := if b.iset = 0xFFFFFFFFFFFF ∧ b.equota = 0 ∧ b.ckptctl = 1050000 then []
      else (List.range 12336).map fun h => (h, b.hart h)
    tiles := if b.feWait = 1048576 ∧ b.quota = 0x1810 ∧ b.qwin = 4096 then [] else (List.range 3072).map fun v => (v, b.tile)
    agenda := s.agenda, moves := s.moves
    cur := s.cur, word := s.word, prompt := s.prompt, nextId := s.nextId, free := s.free } (2 ^ 40)
  { t with readyAt := ready }

/-- PANEL_RESET (R366, R387, R389, R392): `verified` is what the checks of the firmware's and the blob's signatures gave,
`failing` the tiles that fail self-test. A panel that does not verify is kept in reset. -/
def execPanelReset (verified : Bool) (failing : List Nat) (s : State) : Answer :=
  let t := s.resetFields
  .next (match s.blob.verdict verified with
    | some c => { t with inReset := some c }
    | none => (List.range 48).foldl (fun t d => t.bootDie failing d) t)

/-- FLASH_REWRITE (R389): the retired set and the ageing counts. -/
def execFlashRewrite (s : State) : Answer :=
  .next { s with flash := s.pts.map fun (k, p) => (k, p.state, p.stress.toNat, p.errors.toNat) }

/-! ### Answers to posters (R360, R361) -/

/-- An entry of the host's completion ring, and MSI-X vector 0. -/
def State.hostEntry (s : State) (cookie : Word) (cls status : Nat) : State :=
  let b := s.host
  { s with host := { b with
    completions := b.completions ++ [(cookie, BitVec.ofNat 64 (cls % 256 * 256 + status))]
    compTail := (b.compTail + 1) % 2 ^ (bits b.compBase 0 4 + 4), msix := b.msix ++ [0] } }

/-- Slots that the host posted with a class it may not post, up to its first other one (R360). -/
def State.flushRejected (s : State) : Nat → State
  | 0 => s
  | n + 1 =>
    match takeMail (fun _ => true) (s.supMailbox.filter fun e => e.1 == .host) with
    | some (e, _) =>
      if [0, 1, 7].contains (hdrClass e.2.2.header) then s
      else
        let s := { s with supMailbox := s.supMailbox.takeWhile (· != e) ++ (s.supMailbox.dropWhile (· != e)).drop 1 }
        (s.hostEntry (e.2.2.word 1) (hdrClass e.2.2.header) 6).flushRejected n
    | none => s

/-- The answer to a LAUNCH, CANCEL or MGMT: a ring entry for the host, LSTATUS for K software. -/
def State.reply (s : State) (src : Node) (m : Msg) (status : Nat) : State :=
  match src with
  | .host => (s.hostEntry (m.word 1) (hdrClass m.header) status).flushRejected 1024
  | .tile v =>
    let hd := mkHeader 2 0xFFF 0 (hdrTenant m.header).toNat 2 0 0 2 false
    s.sendFree .panelSup (.tile v) (.message (BitVec.ofNat 64 (hdrHart m.header * 4096 + v))
      { header := hd, payload := [m.word 1, BitVec.ofNat 64 status] } none none false)
  | _ => s

/-- The oldest message of a kind that its sender has no older one before. -/
def takePanel (f : Msg → Bool) (l : List (Node × Nat × Msg)) : Option ((Node × Nat × Msg) × List (Node × Nat × Msg)) :=
  match (l.zipIdx).find? fun (e, i) => f e.2.2 && !((l.take i).any fun o => o.1 == e.1 && o.2.1 == e.2.1) with
  | some (e, i) => some (e, l.eraseIdx i)
  | none => none

/-- What was posted during bring-up steps 6 and 7 reaches the mailbox once step 7 has ended (R387). -/
def State.ringBells (s : State) : State :=
  if s.host.doorbells.isEmpty || decide (s.tick < s.readyAt) then s
  else
    { s with
      supMailbox := s.supMailbox ++ s.host.doorbells.map fun m => (Node.host, 0, m)
      host := { s.host with doorbells := [] } }.flushRejected 1024

/-- One request of the panel supervisor's mailbox served: what its checks answer, and its effect. -/
def State.serve (s : State) (f : Msg → Bool) (effect : State → Node → Msg → State × Nat) : State :=
  let s := s.ringBells
  match takePanel f s.supMailbox with
  | none => s
  | some ((src, _, m), rest) =>
    let (s, status) := effect { s with supMailbox := rest } src m
    s.reply src m status

/-- MWBELL (R360): the slot is read and its message posted, or held while bring-up goes on (R387); slots never written read as
zeros. -/
def execMwbell (slot : Nat) (s : State) : Answer :=
  let bs := s.host.window.get (slot % 1024) (List.replicate 64 0)
  let m : Msg := { header := dwordAt bs 0, payload := (List.range 7).map fun i => dwordAt bs (i + 1) }
  .next (if s.tick < s.readyAt then { s with host := { s.host with doorbells := s.host.doorbells ++ [m] } }
    else
      let s := s.ringBells
      { s with supMailbox := s.supMailbox ++ [(Node.host, 0, m)] }.flushRejected 1024)

/-! ### Permissions (R277, R281, R361) -/

/-- A tenant is permitted to the poster. -/
def State.permitted (s : State) (src : Node) (m : Msg) (t : BitVec 6) : Bool :=
  (s.tenants.find t.toNat).isSome && (src == .host || t == hdrTenant m.header)

/-- A counter id of R271. -/
def counterId (w : Word) : Option Nat :=
  if bits w 18 46 = 0 ∧ bits w 12 6 < 48 then some (w.toNat) else none

/-! ### Launches (R275-R278) -/

def recLaunch (r : List Word) : BitVec 16 := BitVec.ofNat 16 (bits (r.getD 0 0) 32 16)
def recPlen (r : List Word) : Nat := bits (r.getD 0 0) 24 3
def recTenant (r : List Word) : BitVec 6 := BitVec.ofNat 6 (bits (r.getD 0 0) 16 6)
def recClass (r : List Word) : Nat := bits (r.getD 0 0) 12 3
def recHarts (r : List Word) : Nat := bits (r.getD 0 0) 8 4
def recEntry (r : List Word) : Nat := bits (r.getD 0 0) 0 8
def recPv (r : List Word) : Bool := bit (r.getD 1 0) 50
def recParent (r : List Word) : Nat := bits (r.getD 1 0) 32 18
def recY1 (r : List Word) : Nat := bits (r.getD 1 0) 24 6
def recX1 (r : List Word) : Nat := bits (r.getD 1 0) 16 6
def recY0 (r : List Word) : Nat := bits (r.getD 1 0) 8 6
def recX0 (r : List Word) : Nat := bits (r.getD 1 0) 0 6
def recPreds (r : List Word) : List (BitVec 16) :=
  ((List.range 4).map fun i => BitVec.ofNat 16 (bits (r.getD 2 0) (16 * i) 16)).filter (· != 0)
def recLv (r : List Word) : Bool := bit (r.getD 3 0) 14
def recListen (r : List Word) : Nat := bits (r.getD 3 0) 0 14

/-- The record at a PA (R277): none where it cannot be read. The PA is decoded as a supervisor's (notes/assumptions/20.md). -/
def State.launchRecord (s : State) (pa : Word) : Option (List Word) :=
  if pa.toNat % 64 ≠ 0 then none
  else
    match s.supPlace pa.toNat with
    | none => none
    | some p => if s.unreadable p then none
      else
        let bs := memBytes s.mem p.key 64
        some ((List.range 8).map fun i => dwordAt bs i)

/-- The record's line request, which the panel supervisor issues at die 0 (R100; notes/assumptions/74.md). -/
def State.launchRead (s : State) (pa : Word) : State :=
  match if pa.toNat % 64 = 0 then s.supPlace pa.toNat else none with
  | some p => s.serveLines 0 p 64
  | none => s

/-- No reserved bit is set and every field is in its range (R275). -/
def recordFormed (r : List Word) : Bool :=
  (r.getD 0 0 &&& 0xFFFF0000F8C08000) == 0 && (r.getD 1 0 &&& 0xFFF80000C0C0C0C0) == 0 && bits (r.getD 3 0) 15 49 == 0
    && decide (recPlen r ≤ 4) && decide (recClass r ≤ 6) && recHarts r != 0
    && decide (0x10 ≤ recEntry r ∧ recEntry r ≤ 0xFE)
    && decide (recX0 r ≤ recX1 r ∧ recX1 r ≤ 47 ∧ recY0 r ≤ recY1 r ∧ recY1 r ≤ 63)

/-- The launch's rectangle lies in its tenant's area. -/
def recInside (r : List Word) (t : Tenant) : Bool :=
  decide (t.x0 ≤ recX0 r ∧ recX1 r ≤ t.x1 ∧ t.y0 ≤ recY0 r ∧ recY1 r ≤ t.y1)

/-- A launch's counter is assigned to a tenant. -/
def State.ownsLaunch (s : State) (t : BitVec 6) (l : BitVec 16) : Bool :=
  match launchCounter l with
  | some id => (s.counter id).tenant == some t
  | none => false

/-- The status of a LAUNCH, its checks in the order of R277. -/
def State.launchStatus (s : State) (src : Node) (m : Msg) (record : Option (List Word)) : Nat :=
  match record with
  | none => 1
  | some r =>
    let t := recTenant r
    let inside := match s.tenants.find t.toNat with
      | some a => recInside r a
      | none => false
    if !recordFormed r then 1
    else if !s.permitted src m t || !inside then 2
    else if !s.ownsLaunch t (recLaunch r) ||
        (launchCounter (recLaunch r)).any (fun id => (s.counter id).value != 0 || (s.counter id).held) then 3
    else if (recPv r && !((counterId (BitVec.ofNat 64 (recParent r))).any fun id => (s.counter id).tenant == some t)) ||
        (recLv r && !s.inTenant t (recListen r / 4)) then 4
    else if (recPreds r).any fun p => !s.ownsLaunch t p then 5
    else 0

/-- An accepted launch holds its counter and is pending; predecessors that hold 0 count as satisfied, unless their launch
is itself pending (R278, R376; notes/assumptions/88.md). -/
def State.acceptLaunch (s : State) (r : List Word) : State :=
  match launchCounter (recLaunch r) with
  | none => s
  | some id =>
    let l : Launch := { number := recLaunch r, record := r, injecting := false, toPlace := [] }
    let done := (recPreds r).filterMap fun p => (launchCounter p).filter fun c =>
      (s.counter c).value == 0 && !(s.counter c).held
    let s := s.setCounter id { s.counter id with held := true }
    { s with launches := s.launches ++ [done.foldl (fun l c => l.satisfy c) l] }

/-- LAUNCH (R277). -/
def execLaunch (s : State) : Answer :=
  .next (s.serve (fun m => hdrClass m.header == 0) fun s src m =>
    let record := s.launchRecord (m.word 0)
    let s := s.launchRead (m.word 0)
    let status := s.launchStatus src m record
    (if status = 0 then s.acceptLaunch (record.getD []) else s, status))

/-- The harts of a record's mask, ascending. -/
def recHartList (r : List Word) : List Nat := (List.range 4).filter fun i => recHarts r / 2 ^ i % 2 == 1

/-- V of R278: the VTs of the rectangle that belong to the tenant's area now. -/
def State.launchVts (s : State) (r : List Word) : List Nat :=
  (List.range 3072).filter fun v =>
    decide (recX0 r ≤ vtGx v ∧ vtGx v ≤ recX1 r ∧ recY0 r ≤ vtGy v ∧ vtGy v ≤ recY1 r) && s.inTenant (recTenant r) v

/-- The counter of a launch as the record sets it (R278). -/
def launchCount (c : Counter) (r : List Word) (n : Nat) : Counter :=
  { c with
    value := BitVec.ofNat 32 n, held := false, parent := if recPv r then some (recParent r) else none
    pclass := BitVec.ofNat 3 (recClass r), listeners := if recLv r then [recListen r] else [], panelListens := true }

/-- Injection begins (R278): the counter is set before the first task is placed. -/
def State.beginInject (s : State) (l : Launch) (id : Nat) : State :=
  let r := l.record
  let vts := s.launchVts r
  let harts := recHartList r
  let n := vts.length * harts.length
  let s := s.setCounter id (launchCount (s.counter id) r n)
  let rest := s.launches.filter fun o => o.number != l.number
  if n = 0 then { s with launches := rest }.counterZero id
  else
    let places := (List.range 48).filterMap fun d =>
      let here := vts.filter fun v => vtDie v == d
      if here.isEmpty then none else some (d, here.flatMap fun v => harts.map fun h => (v, h))
    { s with launches := rest ++ [{ l with injecting := true, toPlace := places }] }

/-- The next task of a launch on a die is placed, or, its VT lost meanwhile, taken off the count (R278). -/
def State.injectOne (s : State) (l : Launch) (id d : Nat) : State :=
  match l.toPlace.get d [] with
  | [] => s
  | (v, h) :: rest =>
    let places := if rest.isEmpty then l.toPlace.erase d else l.toPlace.put d rest
    let others := s.launches.filter fun o => o.number != l.number
    let s := { s with launches := if places.isEmpty then others else others ++ [{ l with toPlace := places }] }
    let r := l.record
    if s.inTenant (recTenant r) v then
      let hd := mkHeader (recEntry r) 0xFFF 0 (recTenant r).toNat 0 0 l.number.toNat (recPlen r) false
      s.sendFree (.dieSup d) (.tile v) (.message (BitVec.ofNat 64 (2 * 2 ^ 14 + h * 4096 + v))
        { header := hd, payload := (List.range (recPlen r)).map fun i => r.getD (4 + i) 0 } none none false)
    else s.sendFree (.dieSup d) (.dieSup (id / 4096)) (.counterUpdate id (-1) 0 none none none)

/-- LAUNCH_INJECT (R278): once every predecessor is satisfied, one task is placed on the die. -/
def execLaunchInject (launch die : Nat) (s : State) : Answer :=
  .next (match s.launches.find? (fun l => l.number.toNat == launch), launchCounter (BitVec.ofNat 16 launch) with
    | some l, some id =>
      if l.injecting then s.injectOne l id die
      else if (recPreds l.record).isEmpty then
        let s := s.beginInject l id
        match s.launches.find? fun o => o.number == l.number with
        | some l => s.injectOne l id die
        | none => s
      else s
    | _, _ => s)

/-! ### CANCEL (R279) -/

/-- The status of a CANCEL or of an MGMT that names a counter. -/
def State.cancelStatus (s : State) (src : Node) (m : Msg) : Nat :=
  match counterId (m.word 0) with
  | none => 1
  | some id => match (s.counter id).tenant with
    | some t => if s.permitted src m t then 0 else 2
    | none => 3

/-- A CANCEL that has passed its checks (R250, R279). -/
def State.cancelCounter (s : State) (id : Nat) : State :=
  match s.launches.find? fun l => launchCounter l.number == some id with
  | none => s.markLevel id
  | some l =>
    let s := { s with launches := s.launches.filter fun o => o.number != l.number }
    if l.injecting then
      let n : Nat := (l.toPlace.map fun (_, ps) => ps.length).sum
      let s := s.markLevel id
      if (s.counter id).value.toNat = n then
        s.sendFree .panelSup (.dieSup (id / 4096)) (.counterUpdate id (-(n : Int)) 0 none none none)
      else s.counterAdd id (-(n : Int)) 0 none
    else (s.setCounter id { launchCount (s.counter id) l.record 0 with mark := true }).counterZero id

/-- CANCEL_MESSAGE (R279). -/
def execCancelMessage (s : State) : Answer :=
  .next (s.serve (fun m => hdrClass m.header == 1) fun s src m =>
    let status := s.cancelStatus src m
    (if status = 0 then s.cancelCounter (m.word 0).toNat else s, status))

/-! ### MGMT (R281, R361) -/

/-- An MGMT message whose operation satisfies a test. -/
def isMgmt (f : Nat → Bool) (m : Msg) : Bool := hdrClass m.header == 7 && f (bits (m.word 0) 0 8)

/-- Arguments of an MGMT: dword 1 is the cookie's place too (R360), so a1 and a2 of R361 stand in dwords 1 and 2. -/
def mgmtArg (m : Msg) (i : Nat) : Word := m.word i

/-- MGMT_ASSIGN_COUNTER (R361); an operation of no number in the table gets status 2. -/
def execMgmtAssignCounter (s : State) : Answer :=
  .next (s.serve (isMgmt fun o => o == 1 || o == 0 || decide (6 < o)) fun s src m =>
    if bits (m.word 0) 0 8 ≠ 1 then (s, 2)
    else
      match counterId (mgmtArg m 1) with
      | none => (s, 1)
      | some id =>
        let t := BitVec.ofNat 6 (mgmtArg m 2).toNat
        if 63 < (mgmtArg m 2).toNat then (s, 1)
        else if !s.permitted src m t then (s, 2)
        else if (s.counter id).tenant.isSome then (s, 3)
        else (s.setCounter id { s.counter id with tenant := some t }, 0))

/-- MGMT_FREE_COUNTER (R361). -/
def execMgmtFreeCounter (s : State) : Answer :=
  .next (s.serve (isMgmt (· == 2)) fun s src m =>
    match counterId (mgmtArg m 1) with
    | none => (s, 1)
    | some id =>
      let c := s.counter id
      if c.tenant.any fun t => !s.permitted src m t then (s, 2)
      else if c.tenant.isNone ∨ c.value ≠ 0 ∨ c.held = true then (s, 3)
      else (s.setCounter id { c with tenant := none }, 0))

/-- Whether a page or an extent is K software's own is not recorded anywhere in the spec: a choice that is left open. The
host acts for every tenant (R360, R361; notes/assumptions/21.md). -/
def State.posterOwns (s : State) (src : Node) : Bool × State :=
  if src == .host then (true, s)
  else
    let (n, s) := s.freeBelow 2
    (n != 0, s)

/-- MGMT_EXTENT_UNMAPPED (R102, R361, R362): the extent goes back to its device. -/
def execMgmtExtentUnmapped (s : State) : Answer :=
  .next (s.serve (isMgmt (· == 3)) fun s src m =>
    let port := (mgmtArg m 1).toNat
    let i := (mgmtArg m 2).toNat
    let k := port * 256 + i
    let e := s.extents.get k default
    if 3 < port ∨ 255 < i ∨ e.state ≠ 3 then (s, 1)
    else
      let (own, s) := s.posterOwns src
      if own then ({ s with extents := s.extents.put k { e with state := 0 } }, 0) else (s, 2))

/-- MGMT_UNMARK_EXECUTABLE (R361, R367). -/
def execMgmtUnmarkExecutable (s : State) : Answer :=
  .next (s.serve (isMgmt (· == 4)) fun s src m =>
    let pa := (mgmtArg m 1).toNat
    if pa % 4096 ≠ 0 ∨ pa / 2 ^ 43 ≠ s.panel then (s, 1)
    else
      let (own, s) := s.posterOwns src
      if own then ({ s with execPages := s.execPages.filter (· != pa / 4096) }, 0) else (s, 2))

/-- The area that a definition names (R281). -/
def areaOf (w : Word) : Tenant :=
  { oneDie := bit w 63, x0 := bits w 0 6, y0 := bits w 8 6, x1 := bits w 16 6, y1 := bits w 24 6 }

/-- A definition's word and corners are well formed (R281). -/
def areaFormed (w : Word) : Bool :=
  let t := areaOf w
  (w &&& 0x7FFFFFC0C0C0C0C0) == 0 && decide (t.x0 ≤ t.x1 ∧ t.y0 ≤ t.y1 ∧ t.x1 ≤ 47)
    && (if t.oneDie then t.x0 / 8 == t.x1 / 8 && t.y0 / 8 == t.y1 / 8
      else t.x0 % 8 == 0 && t.y0 % 8 == 0 && (t.x1 + 1) % 8 == 0 && (t.y1 + 1) % 8 == 0)

/-- Two areas have a tile in common. -/
def Tenant.overlaps (a b : Tenant) : Bool := decide (a.x0 ≤ b.x1 ∧ b.x0 ≤ a.x1 ∧ a.y0 ≤ b.y1 ∧ b.y0 ≤ a.y1)

/-- MGMT_DEFINE_TENANT (R281). -/
def execMgmtDefineTenant (s : State) : Answer :=
  .next (s.serve (isMgmt (· == 5)) fun s src m =>
    let w := mgmtArg m 1
    let t := bits w 32 6
    if !areaFormed w || mgmtArg m 2 != 0 then (s, 1)
    else if src != .host || s.tenants.any (fun (k, a) => k != t && a.overlaps (areaOf w)) then (s, 2)
    else if (s.tenants.find t).isSome then (s, 3)
    else ({ s with tenants := s.tenants.put t (areaOf w) }, 0))

/-- Some counter is assigned to a tenant. -/
def State.hasCounters (s : State) (t : Nat) : Bool :=
  s.dies.any fun (_, d) => d.counters.any fun (_, c) => c.tenant.any fun u => u.toNat == t

/-- MGMT_REMOVE_TENANT (R281). -/
def execMgmtRemoveTenant (s : State) : Answer :=
  .next (s.serve (isMgmt (· == 6)) fun s src m =>
    let w := mgmtArg m 1
    if bits w 6 58 ≠ 0 ∨ mgmtArg m 2 ≠ 0 ∨ (s.tenants.find w.toNat).isNone then (s, 1)
    else if src != .host then (s, 2)
    else if s.hasCounters w.toNat then (s, 3)
    else ({ s with tenants := s.tenants.erase w.toNat }, 0))

/-! ### CXL extents (R102, R362) -/

/-- CXL_EXTENT_OFFER (R362): an extent is offered into a free entry of its port's list; for the extent that an entry holds as
offered the step is its acceptance by the panel supervisor (notes/assumptions/89.md). -/
def execCxlExtentOffer (port index base length : Nat) (s : State) : Answer :=
  let k := port * 256 + index
  let e := s.extents.get k default
  .next (if 3 < port ∨ 255 < index ∨ base % 4096 ≠ 0 ∨ length % 4096 ≠ 0 ∨ 2 ^ 43 < base + length then s
    else if e.state = 0 then { s with extents := s.extents.put k { base := base, length := length, state := 1 } }
    else if e = { base := base, length := length, state := 1 } then { s with extents := s.extents.put k { e with state := 2 } }
    else s)

/-- CXL_EXTENT_RELEASE_REQUEST (R362). -/
def execCxlExtentReleaseRequest (port index : Nat) (s : State) : Answer :=
  let k := port * 256 + index
  let e := s.extents.get k default
  .next (if e.state = 2 then { s with extents := s.extents.put k { e with state := 3 } } else s)

/-! ### Images (R367) -/

/-- Bytes of a segment, page by page, to their places; none where an address has no mapping. -/
def State.segmentPlaces (s : State) (h : Nat) (va : Word) : List (List Byte) → State × Option (List (Place × List Byte))
  | [] => (s, some [])
  | bs :: rest =>
    match s.locate { s.ctx h with mode := .kernel } va .load false with
    | (s, .error _) => (s, none)
    | (s, .ok l) =>
      let (s, ps) := s.segmentPlaces h (va + BitVec.ofNat 64 bs.length) rest
      (s, ps.map ((l.place, bs) :: ·))

/-- Bytes cut at page boundaries; `n` pieces at most. -/
def pageCuts (va : Nat) (bs : List Byte) : Nat → List (List Byte)
  | 0 => []
  | n + 1 =>
    if bs.isEmpty then []
    else
      let k := 4096 - va % 4096
      bs.take k :: pageCuts (va + k) (bs.drop k) n

/-- The 64-byte descriptor that a segment's signature covers; the order and widths of its fields are the model's (PRESUMED,
notes/assumptions/48.md). -/
def segmentDescriptor (g : Segment) : List Byte :=
  natBytes 4 g.isText.toNat ++ natBytes 4 g.flags.toNat ++ natBytes 8 g.target.toNat ++ natBytes 8 g.length
    ++ natBytes 8 g.offset ++ List.replicate 32 0

/-- The bytes of a segment in the file. -/
def segmentBytes (g : Segment) (file : List Byte) : List Byte := (file.drop g.offset).take g.length

/-- Steps 1 to 3 for the segments in file order: the chain, and whether every one passed (R367). -/
def verifySegments (key file meas : List Byte) : List Segment → List Byte × Bool
  | [] => (meas, true)
  | g :: gs =>
    if Config.verifySegment key (segmentDescriptor g) g.digest g.signature ∧ sha512 (segmentBytes g file) = g.digest then
      verifySegments key file (sha512 (meas ++ g.digest)) gs
    else (meas, false)

/-- The places of every segment, in file order. -/
def State.imagePlaces (s : State) (h : Nat) (file : List Byte) : List Segment → State × Option (List (List (Place × List Byte)))
  | [] => (s, some [])
  | g :: gs =>
    match s.segmentPlaces h g.target (pageCuts g.target.toNat (segmentBytes g file) (g.length / 4096 + 2)) with
    | (s, none) => (s, none)
    | (s, some ps) =>
      let (s, rest) := s.imagePlaces h file gs
      (s, rest.map (ps :: ·))

/-- The page number that a place's PA lies in: slices have none. -/
def State.placePpn (s : State) (p : Place) : Option Nat :=
  match p.home with
  | .slice _ => none
  | .panel n => some ((n * 2 ^ 43 + p.off) / 4096)
  | _ => some ((s.panel * 2 ^ 43 + p.off) / 4096)

/-- Steps 4 and 5 for one segment; its line requests count at die 0 (R100; notes/assumptions/74.md). -/
def State.loadSegment (s : State) (g : Segment) (ps : List (Place × List Byte)) : State :=
  let s := ps.foldl (fun s (p, bs) => (s.serveLines 0 p bs.length).write (some 3840) p (solid bs) none) s
  if g.isText then
    { s with execPages := (ps.filterMap fun (p, _) => s.placePpn p).foldl insertNat s.execPages }
  else s

/-- The segments of an image in file order, as many as its header counts (R367). -/
def imageSegments (image : BolliaImage) : List Segment := image.segments.take image.count

/-- The header opens an image that a key of the blob covers, and every segment that it counts is there (R367, R392). -/
def State.imageKey (s : State) (image : BolliaImage) : Option (List Byte) :=
  if image.magic = 0x314D4942 ∧ image.keySlot < 8 ∧ image.count ≤ image.segments.length then
    Map.find s.blob.imageKeys image.keySlot
  else none

/-- IMAGE_LOAD (R367): an image that is rejected changes no memory and no mark. -/
def execImageLoad (image : BolliaImage) (s : State) : Answer :=
  .next (match s.imageKey image with
    | none => s
    | some key =>
      let segments := imageSegments image
      let (meas, ok) := verifySegments key image.file s.host.meas segments
      let t := { s with host := { s.host with meas := meas } }
      if !ok then t
      else
        match t.imagePlaces image.hart image.file segments with
        | (t, none) => t
        | (t, some places) => (segments.zip places).foldl (fun s (g, ps) => s.loadSegment g ps) t)

/-- NONCE_WRITE (R368). -/
def execNonceWrite (nonce : List Byte) (s : State) : Answer :=
  let b := s.host
  .next (if nonce.length = 64 then
      { s with host := { b with
        nonce := nonce, quote := b.meas ++ Config.identitySign (sha512 (nonce ++ b.meas)) } }
    else s)

/-! ### BAR2 and BAR0 (R358, R359) -/

/-- BAR2_ACCESS (R358, R92): the bytes of one line at HBASE plus offset, within the BAR's size, once the stack's channel serves
I/O die 0 (R97). A read answers them, or an error, and changes nothing else but the counts and the channel; a write of part
of a bad line is dropped and logged (R93). -/
def execBar2Access (off len : Nat) (data : Option (List Byte)) (s : State) : Answer :=
  let pa := s.panel * 2 ^ 43 + s.host.base.toNat + off
  let answer (s : State) (a : Option (List Byte)) : State :=
    if data.isNone then { s with host := { s.host with answer := a } } else s
  .next (match s.supPlace pa with
    | none => answer s none
    | some p =>
      if len = 0 ∨ 128 < p.off % 128 + len ∨ 2 ^ s.host.bar2 < off + len then answer s none
      else if !s.hbmAdmits (.ioDie 0) p then s
      else
        let s := ((s.countIssue 0 p).joinBatch (.ioDie 0) p).serveHbm p
        match data with
        | some bs =>
          let s := if 128 ≤ (bs.take len).length then s.mendLine p else s
          if s.unreadable p then s.dropWrite 0xFFF 0 p else s.write (some 4011) p (solid (bs.take len)) none
        | none =>
          if s.unreadable p then answer s none
          else
            let found := s.placeBytes p len
            answer found.1 (some found.2))

/-- A dword of an extent list (R362). -/
def State.extentDword (s : State) (off : Nat) : Word :=
  let e := s.extents.get (off / 16) default
  if off / 8 % 2 = 0 then BitVec.ofNat 64 (e.base / 4096 * 4096 + e.state) else BitVec.ofNat 64 (e.length / 4096 * 4096)

/-- A dword of a reduction window (R365): base, limit, port. -/
def RdwWindow.dword (w : RdwWindow) (j : Nat) : Word :=
  match j with
  | 0 => BitVec.ofNat 64 w.base
  | 1 => BitVec.ofNat 64 w.limit
  | 2 => BitVec.ofNat 64 w.port
  | _ => 0

/-- A dword of a hart's debug window (R349). -/
def Hart.debugDword (x : Hart) (j : Nat) : Word :=
  match j with
  | 0 => x.dbgctl
  | 5 => entryAt x.csr.wp 0 0
  | 6 => entryAt x.csr.wp 1 0
  | 7 => 0
  | k => entryAt x.csr.bp (k - 1) 0

/-- A register of BAR0 as the host reads it (R337, R349, R359, R362, R364, R365, R368): what is not listed reads 0, and so
does MWBELL; the order within the attestation block is the model's (notes/assumptions/13.md). -/
def State.readBar0 (s : State) (off : Nat) : Word :=
  let b := s.host
  if off < 0x10000 then dwordAt (b.window.get (off / 64) (List.replicate 64 0)) (off % 64 / 8)
  else if off = 0x100008 then b.compBase
  else if off = 0x100010 then BitVec.ofNat 64 b.compTail
  else if off = 0x100018 then b.base
  else if 0x200000 ≤ off ∧ off < 0x210000 then (b.faultLog.getD ((off - 0x200000) / 64) []).getD (off % 64 / 8) 0
  else if off = 0x300000 then BitVec.ofNat 64 b.flogHead
  else if 0x400000 ≤ off ∧ off < 0x400040 then entryAt s.grid.vpoint ((off - 0x400000) / 8) 0
  else if 0x400040 ≤ off ∧ off < 0x400080 then entryAt s.grid.fpoint ((off - 0x400040) / 8) 0
  else if off = 0x400080 then s.grid.ctl
  else if off = 0x400088 then s.grid.stat
  else if off = 0x500000 then b.sampBase
  else if off = 0x500008 then b.sampSize
  else if off = 0x500010 then b.sampHead
  else if 0x600000 ≤ off ∧ off < 0x604000 then s.extentDword (off - 0x600000)
  else if 0x800000 ≤ off ∧ off < 0x800C00 then (s.routeTable.get ((off - 0x800000) / 8) 0).zeroExtend 64
  else if 0x801000 ≤ off ∧ off < 0x801200 then
    (s.windows.get ((off - 0x801000) / 32) default).dword ((off - 0x801000) / 8 % 4)
  else if 0x1000000 ≤ off ∧ off < 0x10C0000 then (s.hart ((off - 0x1000000) / 64)).debugDword (off / 8 % 8)
  else if 0x3000000 ≤ off ∧ off < 0x3000200 then dwordAt (b.meas ++ b.nonce ++ b.quote) ((off - 0x3000000) / 8)
  else if 0x3000200 ≤ off ∧ off < 0x3001000 then dwordAt Config.identityCertificate ((off - 0x3000200) / 8)
  else 0

/-- A BAR0 register that the host writes, by its offset (R359, R364, R365, notes/assumptions/13.md); bits of VPOINT, FPOINT and
GRIDCTL that R337 names no field for are kept (notes/assumptions/90.md). -/
def State.writeBar0 (s : State) (off : Nat) (v : Word) : State :=
  let b := s.host
  let g := s.grid
  if off < 0x10000 then
    let i := off / 64
    let bs := b.window.get i (List.replicate 64 0)
    { s with host := { b with window := b.window.put i (layOverBytes bs (off % 64 / 8 * 8) (natBytes 8 v.toNat)) } }
  else if off = 0x100008 then { s with host := { b with compBase := v &&& 0xFFFFFFFFFFFFF00F } }
  else if off = 0x100018 then { s with host := { b with base := v &&& ~~~(0x3FFFFFFF#64) } }
  else if 0x400000 ≤ off ∧ off < 0x400040 then { s with grid := { g with vpoint := g.vpoint.setIfInBounds ((off - 0x400000) / 8) v } }
  else if 0x400040 ≤ off ∧ off < 0x400080 then { s with grid := { g with fpoint := g.fpoint.setIfInBounds ((off - 0x400040) / 8) v } }
  else if off = 0x400080 then { s with grid := { g with ctl := v } }
  else if off = 0x500000 then { s with host := { b with sampBase := v } }
  else if off = 0x500008 then { s with host := { b with sampSize := v } }
  else if 0x800000 ≤ off ∧ off < 0x800C00 then
    { s with routeTable := s.routeTable.put ((off - 0x800000) / 8) (v.truncate 33) }
  else if 0x801000 ≤ off ∧ off < 0x801200 then
    let i := (off - 0x801000) / 32
    let w := s.windows.get i default
    let w := match (off - 0x801000) / 8 % 4 with
      | 0 => { w with base := v.toNat / 2 ^ 30 * 2 ^ 30 }
      | 1 => { w with limit := v.toNat / 2 ^ 30 * 2 ^ 30 }
      | 2 => { w with port := v.toNat % 32 }
      | _ => w
    { s with windows := s.windows.put i w }
  else if 0x1000000 ≤ off ∧ off < 0x10C0000 then
    match off / 8 % 8 with
    | 0 => s.hostCsr ((off - 0x1000000) / 64) 0xC41 v
    | 5 => s.hostCsr ((off - 0x1000000) / 64) 0xD10 v
    | 6 => s.hostCsr ((off - 0x1000000) / 64) 0xD11 v
    | 7 => s
    | k => s.hostCsr ((off - 0x1000000) / 64) (0xCFF + k) v
  else s
where
  layOverBytes (bs : List Byte) (at_ : Nat) (data : List Byte) : List Byte :=
    bs.take at_ ++ data ++ bs.drop (at_ + data.length)

/-- The percentile trigger of a tile's histograms (R356), which fires at once where its condition holds: histogram [1:0], bucket [5:2], P [13:6], action [15:14]. -/
def State.writeTrigger (s : State) (v : Nat) (w : Word) : State :=
  (s.onTile v fun t => { t with hist := { t.hist with
    trigger := some (bits w 0 2, bits w 2 4, bits w 6 8, bits w 14 2) } }).fireTrigger v

/-- CSR_WRITE (R36, R349, R358, R359): a register of a hart; under numbers of the model's own (notes/assumptions/13.md) a BAR0
offset from 2^20 on, a tile's histogram trigger from 2^30 on, the size of BAR2 at 2^31, and a read of BAR0 from 2^32 on. -/
def execCsrWrite (hart : Nat) (csr : BitVec 12) (value : Word) (s : State) : Answer :=
  .next (if 2 ^ 32 ≤ hart then
      { s with host := { s.host with answer := some (natBytes 8 (s.readBar0 (hart - 2 ^ 32)).toNat) } }
    else if hart = 2 ^ 31 then
      { s with host := { s.host with bar2 := if 30 ≤ value.toNat ∧ value.toNat ≤ 42 then value.toNat else s.host.bar2 } }
    else if 2 ^ 30 ≤ hart then (if hart - 2 ^ 30 < 3072 then s.writeTrigger (hart - 2 ^ 30) value else s)
    else if 2 ^ 20 ≤ hart then s.writeBar0 (hart - 2 ^ 20) value
    else s.hostCsr hart csr.toNat value)

/-! ### Links (R363) -/

/-- LINK_CRC_RETRY (R363): the sixteenth failed retry in a row takes the port or link down, with a record. -/
def execLinkCrcRetry (link : Nat) (good : Bool) (s : State) : Answer :=
  let n := if good then 0 else s.linkFails.get link 0 + 1
  let t := { s with linkFails := if n = 0 then s.linkFails.erase link else s.linkFails.put link n }
  .next (if s.portsDown.contains link then s
    else if 16 ≤ n then
      let (a0, t) := t.freeWord
      let (code, t) := t.freeBelow 256
      { t with portsDown := insertNat t.portsDown link }.postPanelEvent 0 0 0 [a0, 0, 0, 0, 0] (kind3 0xFFF 0 code)
    else t)

/-! ### Samples (R355) -/

/-- The run state of a hart. -/
def State.runState (s : State) (h : Nat) : Nat :=
  let x := s.hart h
  if x.halted.isSome then 3
  else if x.parked.isSome then 4
  else if (s.tile (hartVt h)).cond == .hold then 5
  else if x.shedHold then 6
  else if x.task.isNone then 2
  else if x.lwaitSince.isSome || x.waits == some (x.seq, x.pc) then 1
  else 0

/-- SAMPLE_PULSE (R355): the harts whose latched values have changed, in one record of the host's ring. -/
def State.sample (s : State) (d : Nat) : State :=
  let x := s.die d
  let period := max 1 (bits x.sampctl 8 24) * 1024
  if !bit x.sampctl 0 || decide (s.tick < x.lastPulse + period) then s
  else
    let harts := (List.range 256).map (d * 256 + ·)
    let now (h : Nat) : Word × Nat × BitVec 16 := ((s.hart h).pc, s.runState h, (s.hart h).csr.launchid)
    let changed := harts.filter fun h => x.lastSample.find (h % 256) != some (now h)
    let entry (h : Nat) : List Word :=
      [(now h).1, BitVec.ofNat 64 (h % 256 * 2 ^ 56 + (now h).2.1 * 2 ^ 48 + (now h).2.2.toNat)]
    let record := [BitVec.ofNat 64 s.tick, BitVec.ofNat 64 d] ++ changed.flatMap entry
    let s := s.setDie d { x with lastPulse := s.tick, lastSample := harts.map fun h => (h % 256, now h) }
    let b := s.host
    { s with host := { b with
      samples := b.samples ++ [record], sampHead := b.sampHead + BitVec.ofNat 64 (8 * record.length) } }

/-- SAMPLE_PULSE. -/
def execSamplePulse (die : Nat) (s : State) : Answer := .next (s.sample die)

end Sys2Proof.Machine
end

