-- ==== Sys2Proof/Machine/Power.lean ====
section
/-! DEFINITION. Droop, the budget tree, energy windows, the shelf port and power classes (R332-R340). -/

namespace Sys2Proof.Machine

/-! ### The droop detector (R332, R333) -/

/-- A trip: the next STRETCH cycles are stretched, from the next cycle on; 0 goes on to the halve period. -/
def Tile.trip (t : Tile) (stretch : Nat) : Tile :=
  let half := match t.stretch with
    | some (_ + 1) => t.half
    | _ => true
  { t with stretch := some (stretch + 1), half := half, halve := none }

/-- DROOP_TRIP (R333): no trip with STEPS 0, nor on the oscillator of a tile that has lost its clock (R348). -/
def execDroopTrip (vt : Nat) (s : State) : Answer :=
  let d := vtDie vt
  let q := s.ptOf vt
  let p := s.pt d q
  .next (if p.droopth &&& 31 == 0 || (s.tile vt).cond == .hold || p.clockLost then s
    else (s.onPt d q fun p => { p with trips := p.trips + 1 }).onTile vt fun t => t.trip p.stretchLen.toNat)

/-- DROOP_STRETCH_END (R333): every stretched cycle has passed. -/
def execDroopStretchEnd (vt : Nat) (s : State) : Answer :=
  let e := s.cycle vt + (s.pt (vtDie vt) (s.ptOf vt)).halveLen.toNat
  .next (if (s.tile vt).stretch == some 0 then
    s.onTile vt fun t => { t with stretch := none, half := false, halve := some e } else s)

/-- DROOP_HALVE_END (R333). -/
def execDroopHalveEnd (vt : Nat) (s : State) : Answer :=
  .next (if (s.tile vt).halve.any fun e => decide (e ≤ s.cycle vt) then s.onTile vt fun t => { t with halve := none } else s)

/-! ### The budget tree (R334) -/

/-- The tile share in watts: 9,600 less what the rest of the panel draws, at most the fallback share (R334, R340). -/
def Grid.share (g : Grid) (otherWatts : Nat) : Nat :=
  let kw := bits g.ctl 0 8
  let share := 9600 - otherWatts
  if g.fallback ∧ kw ≠ 0 then min share (50 * kw) else share

/-- The duty of a die: 16 B / P16 for a budget B split in proportion to P16. A die that projects no draw has no stated
duty (notes/assumptions/23.md). -/
def State.dieDuty (s : State) (share total p16 : Nat) : Nat × State :=
  if p16 = 0 then s.freeBelow 17 else (min 16 (16 * share / total), s)

/-- The cap of a hart: 12 in a group with one failed phase (R326). -/
def State.dutyCap (s : State) (v : Nat) : Nat :=
  if (s.die (vtDie v)).phasesFailed.get (groupOf (s.ptOf v)) 0 = 1 then 12 else 16

/-- The die controller writes FETCHDUTY of its harts. -/
def State.writeDuties (s : State) (d duty : Nat) : State :=
  (List.range 256).foldl (fun s i =>
    let h := d * 256 + i
    let x := min duty (s.dutyCap (hartVt h))
    if (s.hart h).csr.fetchduty.toNat = x then s else s.writeFetchduty h (BitVec.ofNat 64 x)) s

/-- BUDGET_TICK (R334): `p16` are the dies' projected draws. -/
def execBudgetTick (otherWatts : Nat) (p16 : List Nat) (s : State) : Answer :=
  let share := s.grid.share otherWatts
  let draws := (List.range 48).map fun d => p16.getD d 0
  .next ((List.range 48).foldl (fun s d =>
    let (duty, s) := s.dieDuty share draws.sum (p16.getD d 0)
    s.writeDuties d duty) s)

/-! ### Energy windows (R335) -/

/-- A window renews: debt carries over, and a hart still at its limit stays barred. -/
def Hart.renew (x : Hart) : Hart :=
  let c := x.csr
  let used := if c.equotaLimit < c.equotaUsed then c.equotaUsed - c.equotaLimit else 0
  { x with
    csr := { c with equotaUsed := used }
    window := x.window + 1
    barred := c.equotaLimit != 0 && decide (c.equotaLimit ≤ used) }

/-- EQUOTA_RENEW (R335): at each multiple of 1,050,000 of the timebase. -/
def execEquotaRenew (hart : Nat) (s : State) : Answer :=
  .next (if (s.hart hart).window < s.tick / 1050000 then s.onHart hart Hart.renew else s)

/-! ### The shelf port (R336, R337) -/

/-- CRC-16 of one byte, polynomial 0x1021, no reflection. -/
def crc16Byte (crc : BitVec 16) (b : Byte) : BitVec 16 :=
  (List.range 8).foldl (fun c _ => if c.getLsbD 15 then (c <<< 1) ^^^ 0x1021 else c <<< 1) (crc ^^^ (b.zeroExtend 16 <<< 8))

def crc16 (bs : List Byte) : BitVec 16 := bs.foldl crc16Byte 0xFFFF

/-- Bytes of a frame as a number, least significant first. -/
def frameField (bs : List Byte) (lo n : Nat) : Nat := bytesNat ((bs.drop lo).take n)

/-- SYNC and CRC are right. -/
def frameGood (bs : List Byte) : Bool :=
  bs.length == 16 && frameField bs 0 2 == 0x5AA5 && (crc16 (bs.take 14)).toNat == frameField bs 14 2

/-- The class that a curve gives: that of its highest point not above the value, 0 below every point (R337). -/
def curveClass (points : List Word) (value : Nat) : Nat :=
  (points.foldl (fun (b : Option Word) p =>
    if bits p 8 24 ≤ value then
      match b with
      | none => some p
      | some q => if bits q 8 24 ≤ bits p 8 24 then some p else b
    else b) none).elim 0 fun p => bits p 0 3

/-- The frame's allowed class (R337); none where neither value is valid, one where only one is
(notes/assumptions/24.md). -/
def Grid.allowed (g : Grid) (bs : List Byte) : Option Nat :=
  let flags := frameField bs 10 2
  let v := if flags % 2 = 1 then some (curveClass g.vpoint.toList (frameField bs 4 3)) else none
  let f := if flags / 2 % 2 = 1 then some (curveClass g.fpoint.toList (frameField bs 7 3)) else none
  match v, f with
  | some a, some b => some (min a b)
  | some a, none => some a
  | none, b => b

/-- HOLDOFF in ticks (R337). -/
def Grid.holdoff (g : Grid) : Nat := bits g.ctl 16 16 * 1050000

/-- GRIDSTAT with its bad frames (R337). -/
def Grid.stated (g : Grid) (bad : Nat) : Grid :=
  { g with stat := BitVec.ofNat 64 (bad % 2 ^ 16 * 2 ^ 16 + g.fallback.toNat * 8 + g.limit) }

def Grid.bad (g : Grid) : Nat := bits g.stat 16 16

/-- The limit falls at once (R338). -/
def Grid.lower (g : Grid) (a tick : Nat) : Grid :=
  if a < g.limit then { g with limit := a, lowered := tick } else g

/-- The limit rises to the smallest class that the frames of the last HOLDOFF ms gave (R339). -/
def Grid.raise (g : Grid) (tick : Nat) : Grid :=
  let g := { g with recent := g.recent.filter fun r => decide (tick < r.1 + g.holdoff) }
  match g.recent.map (·.2) with
  | [] => g
  | a :: as =>
    let least := as.foldl min a
    if !g.fallback && decide (g.limit < least) then { g with limit := least } else g

/-- SHELF_FRAME (R336-R340): a bad frame is counted; a good one ends the fallback, is counted as a gap if it is out of
sequence, and moves the limit. -/
def execShelfFrame (bytes : List Byte) (s : State) : Answer :=
  let g := s.grid
  .next (if !frameGood bytes then { s with grid := g.stated (g.bad + 1) }
    else
      let seq := frameField bytes 2 2
      let gap := g.lastSeq.any fun l => seq != (l + 1) % 2 ^ 16
      let n := g.bad
      let g := { g with lastSeq := some seq, lastFrame := s.tick, fallback := false, gaps := g.gaps + gap.toNat }
      let g := match g.allowed bytes with
        | none => g
        | some a => ({ g with recent := g.recent ++ [(s.tick, a)] }.lower a s.tick).raise s.tick
      { s with grid := g.stated n })

/-- SHELF_FALLBACK (R340): 10 ms without an accepted frame. -/
def execShelfFallback (s : State) : Answer :=
  let g := s.grid
  .next (if g.fallback ∨ s.tick < g.lastFrame + 10500000 then s
    else { s with grid := ({ g with fallback := true }.lower (bits g.ctl 8 3) s.tick).stated g.bad })

/-! ### Shedding (R338, R339) -/

/-- SHED_LIMIT_UPDATE (R338): the lower limit reaches a die, and the harts whose context is shed get interrupt 0x84. -/
def execShedLimitUpdate (die : Nat) (s : State) : Answer :=
  let limit := s.grid.limit
  .next (if 48 ≤ die ∨ (s.die die).limit ≤ limit then s
    else
      let s := s.onDie die fun x => { x with limit := limit, sheds := x.sheds ++ [(limit, s.grid.lowered)] }
      (List.range 256).foldl (fun s i =>
        if s.contextShed (die * 256 + i) then s.requestInterrupt (die * 256 + i) 4 (BitVec.ofNat 64 limit) else s) s)

/-- A frame that shed the hart's context lies 1.5 ms back (R338). -/
def State.shedOverdue (s : State) (h : Nat) : Bool :=
  (s.die (hartDie h)).sheds.any fun f => decide (f.1 < (s.hart h).csr.pclass.toNat ∧ f.2 + 1575000 ≤ s.tick)

/-- SHED_HOLD_TIMEOUT (R338): 1.5 ms after the frame a shed hart is stopped at its boundary. -/
def execShedHoldTimeout (hart : Nat) (s : State) : Answer :=
  let x := s.hart hart
  .next (if s.contextShed hart && !x.shedHold && s.shedOverdue hart
      && s.mayAbandon hart && x.board.isEmpty && !(s.abandon hart).sfuBusy hart && !s.inCkpt hart && !s.stopped hart then s.holdShed hart
    else s)

/-- SHED_RESTORE (R339): the higher limit reaches a die once every die before it has it, and its harts go on; a context above
the limit still stays shed since the frame that shed it (R338). -/
def execShedRestore (die : Nat) (s : State) : Answer :=
  let s := { s with grid := (s.grid.raise s.tick).stated s.grid.bad }
  let limit := s.grid.limit
  .next (if 48 ≤ die ∨ limit ≤ (s.die die).limit ∨ (List.range die).any (fun d => decide ((s.die d).limit < limit)) then s
    else
      let s := s.onDie die fun x => { x with limit := limit, sheds := (x.sheds.map fun f => (max f.1 limit, f.2)).filter fun f => decide (f.1 < 6) }
      (List.range 256).foldl (fun s i =>
        let h := die * 256 + i
        if (s.hart h).shedHold && !s.contextShed h then s.onHart h fun x => { x with shedHold := false } else s) s)

end Sys2Proof.Machine
end

