-- ==== Sys2Proof/Machine/Sfu.lean ====
section
/-! DEFINITION. The special-function unit: its queue, and the events that start and finish entries
(R66, R181-R183). -/

namespace Sys2Proof.Machine

/-! ### Issue (R182, R183) -/

/-- Entries that count against a hart's limit: queued, withdrawn and started. -/
def State.sfuHeld (s : State) (h : Nat) : Nat :=
  let t := s.tile (hartVt h)
  (t.sfu.filter fun e => e.hart == h).length + (t.sfuRunning.filter fun e => e.1.hart == h).length
    + (s.hart h).withdrawnSfu.length

/-- A place of the queue is free for a new entry of the hart: withdrawn entries of any hart that may issue come first. -/
def State.sfuPlace (s : State) (h : Nat) : Bool :=
  let t := s.tile (hartVt h)
  decide (t.sfu.length < 8 ∧ s.sfuHeld h < 4) && (s.hart h).withdrawnSfu.isEmpty
    && !((List.range 4).any fun i =>
      let o := hartVt h * 4 + i
      !(s.hart o).withdrawnSfu.isEmpty && !s.stopped o && !(s.hart o).denied)

/-- A VSFU member (R181, R182): operands, type and mask are captured. It waits while the tile stops for a checkpoint of
another (R301). A supervisor hart has no queue; its result is scoreboarded at once (notes/assumptions/15.md). -/
def State.sfuIssue (s : State) (sc : BitVec 3) (d a : BitVec 5) (k : BitVec 3) (fn : BitVec 4) : Answer :=
  s.run { sc := sc, reads := .v a :: maskReg k, writes := [.v d], fields := some [.v a] } fun s =>
    if !elemIsFloat s.vtype then s.illegal
    else
      let x := s.self
      let e : SfuEntry :=
        { id := s.nextId, hart := s.cur, fn := fn, type := x.csr.vtype, k := k, vd := d, source := x.v a
          mask := x.mask k, seq := x.seq, discard := false }
      if isSup s.cur then .done (s.postV d (e.result (x.v d)))
      else
        let held := match (s.tile (hartVt s.cur)).ckpting with
          | some c => !c.committed && c.by_ != some s.cur
          | none => false
        if held || !s.sfuPlace s.cur then .wait s
        else .done ({ s with nextId := s.nextId + 1 }.onTile (hartVt s.cur) fun t => { t with sfu := t.sfu ++ [e] })

/-- VRCP (R181). -/
def execVrcp (sc : BitVec 3) (d a : BitVec 5) (k : BitVec 3) (s : State) : Answer := s.sfuIssue sc d a k 0

/-- VRSQRT (R181). -/
def execVrsqrt (sc : BitVec 3) (d a : BitVec 5) (k : BitVec 3) (s : State) : Answer := s.sfuIssue sc d a k 1

/-- VEXP2 (R181). -/
def execVexp2 (sc : BitVec 3) (d a : BitVec 5) (k : BitVec 3) (s : State) : Answer := s.sfuIssue sc d a k 2

/-- VLOG2 (R181). -/
def execVlog2 (sc : BitVec 3) (d a : BitVec 5) (k : BitVec 3) (s : State) : Answer := s.sfuIssue sc d a k 3

/-- VSQRT (R181). -/
def execVsqrt (sc : BitVec 3) (d a : BitVec 5) (k : BitVec 3) (s : State) : Answer := s.sfuIssue sc d a k 4

/-! ### Events -/

/-- The SFU may start an entry: its last start lies two cycles back (R182). -/
def State.sfuReady (s : State) (v : Nat) : Bool :=
  (s.tile v).sfuRunning.all fun e => decide (e.2 + 2 ≤ s.cycle v)

/-- SFU_ENTRY_START (R182): the head of the queue starts. -/
def State.sfuStart (s : State) (v : Nat) : State :=
  match (s.tile v).sfu with
  | [] => s
  | e :: es =>
    if s.sfuReady v then
      let c := s.cycle v
      s.onTile v fun t => { t with sfu := es, sfuRunning := t.sfuRunning ++ [(e, c)] }
    else s

/-- SFU_RESULT (R182): the oldest started entry writes its destination 12 cycles after its start. -/
def State.sfuFinish (s : State) (v : Nat) : State :=
  match (s.tile v).sfuRunning with
  | [] => s
  | (e, c) :: es =>
    if c + 12 ≤ s.cycle v then
      let s := s.onTile v fun t => { t with sfuRunning := es }
      if e.discard then s
      else s.onHart e.hart fun x => x.writeResult e.seq (.v e.vd) (e.result (x.regs.read (.v e.vd)))
    else s

def execSfuEntryStart (vt : Nat) (s : State) : Answer := .next (s.sfuStart vt)

def execSfuResult (vt : Nat) (s : State) : Answer := .next (s.sfuFinish vt)

/-- SFU_REENTRY (R183): in a cycle in which the hart may issue, its withdrawn entries take the free places. -/
def execSfuReentry (hart : Nat) (s : State) : Answer :=
  .next (if isSup hart || s.stopped hart || !s.mayIssue hart then s else s.reenterSfu hart 4)

end Sys2Proof.Machine
end

