-- ==== Sys2Proof/Machine/Sync.lean ====
section
/-! DEFINITION. FENCE and the SYNC group: barriers, monitors, completion counters (R250, R257, R262-R272, R384). -/

namespace Sys2Proof.Machine

/-! ### FENCE (R262, R263) -/

/-- The kind's first class holds writes, and with them the accumulates: full, rel, ww, wr (R257, R263). -/
def fenceWrites (k : Nat) : Bool := [0, 2, 4, 5].contains k

/-- The kind's second class holds no reads: rel and ww (R257). -/
def fencePassesReads (k : Nat) : Bool := [2, 4].contains k

/-- FENCE (R262, R263). One whose second class holds reads waits at issue, when earlier reads have their values (R291); behind
one that has only writes there, younger reads issue while it waits, and it stands among the hart's outstanding accesses. -/
def execFence (sc k e : BitVec 3) (s : State) : Answer :=
  s.run { sc := sc, reads := [], writes := [], reach := !fencePassesReads k.toNat } fun s =>
    let done := s.released s.cur e.toNat
    if fencePassesReads k.toNat then
      if done && s.settled s.cur then .done s else .done (s.start .load (.fence e.toNat) none [])
    else if fenceWrites k.toNat && !done then .wait s
    else .done s

/-! ### Barriers (R264-R268) -/

/-- The check of a barrier word (R264). -/
def State.barrierTrap (s : State) (w : Word) : Option (Cause × Word) :=
  if bits w 17 47 ≠ 0 then some (.illegal, s.word.zeroExtend 64)
  else if !s.inTenant s.self.csr.tenant (bits w 0 12) then
    some (.tenantViol, w)
  else none

/-- The hart's record for a barrier word, by its index. -/
def Hart.record (x : Hart) (w : BitVec 17) : Option (Fin 4) :=
  (List.finRange 4).find? fun i => x.barriers[i].inUse && x.barriers[i].word == w

def Hart.freeRecord (x : Hart) : Option (Fin 4) := (List.finRange 4).find? fun i => !x.barriers[i].inUse

def Hart.setRecord (x : Hart) (i : Fin 4) (r : BarrierRecord) : Hart :=
  { x with barriers := x.barriers.set i.val r i.isLt }

/-- The record for a word, or a new one (R265); none when all four are in use. -/
def Hart.takeRecord (x : Hart) (w : BitVec 17) : Option (Fin 4 × BarrierRecord) :=
  match x.record w with
  | some i => some (i, x.barriers[i])
  | none => x.freeRecord.map fun i => (i, { BarrierRecord.reset with word := w, inUse := true })

/-- A barrier instruction of one operand: the word checked, then its steps. -/
def State.barrier (s : State) (sc : BitVec 3) (a : BitVec 5) (extra : List Reg) (body : State → BitVec 17 → Act) : Answer :=
  s.run { sc := sc, reads := .g a :: extra, writes := [], reach := true } fun s =>
    match s.barrierTrap (s.self.g a) with
    | some (c, tval) => .trap c tval
    | none => body s ((s.self.g a).truncate 17)

/-- BARINIT (R266). -/
def execBarinit (sc : BitVec 3) (a b : BitVec 5) (s : State) : Answer :=
  s.barrier sc a [.g b] fun s w =>
    let n := s.self.g b
    if bits n 16 48 ≠ 0 then s.illegal
    else if s.roomItems s.cur 1 then .done (s.sendBarrier s.cur w (.init (n.truncate 16)))
    else .wait s

/-- BARJOIN (R266). -/
def execBarjoin (sc : BitVec 3) (a : BitVec 5) (s : State) : Answer :=
  s.barrier sc a [] fun s w =>
    match s.self.takeRecord w with
    | none => .trap .barrierFull (s.self.g a)
    | some (i, r) =>
      if r.joined then .done s
      else if !s.roomItems s.cur 1 then .wait s
      else .done ((s.onHart s.cur fun x => x.setRecord i { r with joined := true }).sendBarrier s.cur w .join)

/-- An arrival (R266, R268): its record says so at once, the phase comes from the home. -/
def State.arrive (s : State) (w : BitVec 17) (i : Fin 4) (r : BarrierRecord) : State :=
  (s.onHart s.cur fun x => x.setRecord i { r with arrived := true }).sendBarrier s.cur w .arrive

/-- BARARRIVE (R266). -/
def execBararrive (sc : BitVec 3) (a : BitVec 5) (s : State) : Answer :=
  s.barrier sc a [] fun s w =>
    match s.self.takeRecord w with
    | none => .trap .barrierFull (s.self.g a)
    | some (i, r) =>
      if r.arrived then .done s
      else if !s.released s.cur 3 || !s.roomItems s.cur 1 then .wait s
      else .done (s.arrive w i r)

/-- The entry a barrier word names, at its home. -/
def State.barrierAt (s : State) (w : BitVec 17) : Barrier :=
  (s.tile (w.toNat % 4096)).barriers.get (w.toNat / 4096) { members := 0, arr := 0, pend := 0, ph := 0 }

/-- BARWAIT (R266): it ends when the arrival has been applied and the phase has moved on; a shed context enters shed hold in
its wait (R338). -/
def execBarwait (sc : BitVec 3) (a : BitVec 5) (s : State) : Answer :=
  s.barrier sc a [] fun s w =>
    match s.self.takeRecord w with
    | none => .trap .barrierFull (s.self.g a)
    | some (i, r) =>
      if !r.arrived then
        if !s.released s.cur 3 || !s.roomItems s.cur 1 then .wait s else .wait (s.arrive w i r)
      else if s.contextShed s.cur then .wait (if s.sfuBusy s.cur then s else s.holdShed s.cur)
      else if s.barrierOpsOut s.cur || (s.barrierAt w).ph == r.phase then .wait s
      else
        .done (s.onHart s.cur fun x => x.setRecord i
          (if r.joined then { r with arrived := false } else BarrierRecord.reset))

/-- BARDROP (R266, R268). -/
def execBardrop (sc : BitVec 3) (a : BitVec 5) (s : State) : Answer :=
  s.barrier sc a [] fun s w =>
    if !s.released s.cur 3 || !s.roomItems s.cur 1 then .wait s
    else
      match s.self.record w with
      | none => .done (s.sendBarrier s.cur w (.drop true))
      | some i =>
        let arrived := s.self.barriers[i].arrived
        .done ((s.onHart s.cur fun x => x.setRecord i BarrierRecord.reset).sendBarrier s.cur w (.drop (!arrived)))

/-! ### Monitors (R269, R270) -/

/-- LWATCH (R269): the watch is armed at its line's home by WATCH_REGISTER. -/
def execLwatch (sc : BitVec 3) (a : BitVec 5) (s : State) : Answer :=
  s.run { sc := sc, reads := [.g a], writes := [], reach := true } fun s =>
    let h := s.cur
    let va := s.self.g a
    s.onTileHart <|
      match s.locate (s.ctx h) va .load true with
      | (t, .error c) => t.unplaced c va
      | (t, .ok l) =>
        let watches := (s.tile (hartVt h)).watches
        if watches.any fun w => w.hart == h && w.place.line == l.place.line then .done t
        else if 32 ≤ watches.length then .trap .lwatchFull va
        else
          .done (t.onTile (hartVt h) fun y => { y with
            watches := y.watches ++ [{ hart := h, place := l.place, trig := false, registered := false }] })

/-- LWAIT ends with a result: the watches go, the result is logged (R270, R315). -/
def State.endLwait (s : State) (h : Nat) (d : BitVec 5) (r : Word) : State :=
  let s := s.onTile (hartVt h) fun t => { t with watches := t.watches.filter fun w => w.hart != h }
  let s := s.onHart h fun x =>
    { x with lwaitSince := none, lwaitUntil := none, lwaitExpired := false, lwaitSpurious := false }
  let r := s.loggedResult h r
  r.1.postG d r.2

/-- LWAIT (R270). -/
def execLwait (sc : BitVec 3) (d a : BitVec 5) (s : State) : Answer :=
  s.run { sc := sc, reads := [.g a], writes := [.g d], reach := true } fun s =>
    let h := s.cur
    let x := s.self
    let n := (s.self.g a).toNat
    let mine := (s.tile (hartVt h)).watches.filter fun w => w.hart == h
    let t0 := x.lwaitSince.getD s.tick
    let limit := if n = 2 ^ 64 - 1 then none else some (t0 + n)
    if x.lwaitSince.isNone && mine.isEmpty && !x.lwaitSpurious then .done (s.endLwait h d 3)
    else if (s.replayed h).isSome then .done (s.endLwait h d 1)
    else if mine.any (·.trig) then .done (s.endLwait h d 0)
    else if x.lwaitSpurious then .done (s.endLwait h d 2)
    else if x.lwaitExpired || limit.any (fun l => decide (l ≤ s.tick)) then .done (s.endLwait h d 1)
    else .wait (s.onHart h fun x => { x with lwaitSince := some t0, lwaitUntil := limit })

/-! ### Completion counters (R271, R272) -/

/-- The counter that a register names (R271). -/
def counterOf (w : Word) : Nat := bits w 12 6 * 4096 + bits w 0 12

/-- The checks of R271. -/
def State.counterTrap (s : State) (w : Word) : Option (Cause × Word) :=
  if bits w 18 46 ≠ 0 ∨ 48 ≤ bits w 12 6 then some (.illegal, s.word.zeroExtend 64)
  else if s.self.mode ≠ .firmware ∧ (s.counter (counterOf w)).tenant ≠ some s.self.csr.tenant then some (.tenantViol, w)
  else none

/-- A counter instruction: its counter checked, then its steps. -/
def State.counterOp (s : State) (sc : BitVec 3) (a : BitVec 5) (extra writes : List Reg) (reach : Bool)
    (body : State → Nat → Act) : Answer :=
  s.run { sc := sc, reads := .g a :: extra, writes := writes, reach := reach } fun s =>
    match s.counterTrap (s.self.g a) with
    | some (c, tval) => .trap c tval
    | none => body s (counterOf (s.self.g a))

/-- CNTADD (R272): a release at panel scope. -/
def execCntadd (sc : BitVec 3) (a b : BitVec 5) (s : State) : Answer :=
  s.counterOp sc a [.g b] [] true fun s id =>
    let h := s.cur
    let n := s.self.g b
    if bits n 31 33 ≠ 0 ∧ bits n 31 33 ≠ 2 ^ 33 - 1 then s.illegal
    else if !s.released h 3 || !s.roomItems h 1 then .wait s
    else
      .done (s.sendItem h (.dieSup (id / 4096))
        (.counterUpdate id n.toInt s.self.csr.launchid (some h) none none) .assured)

/-- CNTWAIT (R272): an acquire at panel scope. -/
def execCntwait (sc : BitVec 3) (a b : BitVec 5) (s : State) : Answer :=
  s.counterOp sc a [.g b] [] true fun s id =>
    if (s.counter id).value.toNat ≤ bits (s.self.g b) 0 32 then .done s else .wait s

/-- CNTREAD (R272). -/
def execCntread (sc : BitVec 3) (d a : BitVec 5) (s : State) : Answer :=
  s.counterOp sc a [] [.g d] false fun s id =>
    let c := s.counter id
    .done (s.postG d (BitVec.ofNat 64 ((s.isMarked id).toNat * 2 ^ 32 + c.value.toNat)))

/-- The tile's CANCEL of a counter is on its way. -/
def State.cancelOut (s : State) (h id : Nat) : Bool :=
  let mine (b : PacketBody) : Bool := match b with
    | .cancel c _ => c == id
    | _ => false
  (s.net.any fun p => p.src == hartNode h && mine p.body) || (!isSup h && (s.tile (hartVt h)).egress.any fun i => match i.item with
    | .packet p => mine p.body
    | _ => false)

/-- CANCEL (R272, R384): it retires once the level is marked, by its own mark or one above it, or holds 0. -/
def execCancel (sc : BitVec 3) (a : BitVec 5) (s : State) : Answer :=
  s.counterOp sc a [] [] true fun s id =>
    let h := s.cur
    let c := s.counter id
    if s.isMarked id || c.value == 0 then .done s
    else if s.cancelOut h id || !s.roomItems h 1 then .wait s
    else .wait (s.sendItem h (.dieSup (id / 4096)) (.cancel id s.self.csr.launchid) .assured)

end Sys2Proof.Machine
end

