-- ==== Sys2Proof/Machine/VecArith.lean ====
section
/-! DEFINITION. Lane-by-lane vector arithmetic, selection, comparison, reductions and scans (R46, R63, R66-R73, R83-R85,
R167, R169, R171-R175). -/

namespace Sys2Proof.Machine

/-! ### Element operations (R171) -/

/-- A member with an integer rule and a float rule. -/
def laneOp (int : Nat → Int → Int → Int → Nat) (float : Fmt → Rm → Nat → Nat → Nat → Nat)
    (t : Nat) (rm : Rm) (a b c : Nat) : Nat :=
  match elemFmt t with
  | some f => float f rm a b c
  | none => int t (laneInt t a) (laneInt t b) (laneInt t c)

/-- Occupancy and legality of members legal under every arithmetic type. -/
def occ1 : Nat → Nat := fun _ => 1
def intOnly (t : Nat) : Bool := elemIsInt t

/-- A shift amount: the low log2(w) bits. -/
def laneShift (t b : Nat) : Nat := b % elemWidth t

/-- A float result of the canonical NaN where the operand is a NaN, and a changed sign otherwise (R66, R171). -/
def withSign (f : Fmt) (a : Nat) (neg : Bool) : Nat :=
  if (f.value a).isNan then f.nan else f.produced (a % f.sign + neg.toNat * f.sign)

/-- Occupancy of VDIV (R167). -/
def occDiv (t : Nat) : Nat :=
  match elemWidth t with
  | 8 => 8
  | 16 => 12
  | 32 => 20
  | _ => 36

/-- VADD (R171). -/
def execVadd (sc : BitVec 3) (d a b : BitVec 5) (k : BitVec 3) (s : State) : Answer :=
  s.vecMap sc d [a, b] k elemTyped occ1
    (laneOp (fun t a b _ => wrapLane t (a + b)) fun f rm a b _ => (f.add rm a b).1)

/-- VSUB (R171). -/
def execVsub (sc : BitVec 3) (d a b : BitVec 5) (k : BitVec 3) (s : State) : Answer :=
  s.vecMap sc d [a, b] k elemTyped occ1
    (laneOp (fun t a b _ => wrapLane t (a - b)) fun f rm a b _ => (f.sub rm a b).1)

/-- VMUL (R171). -/
def execVmul (sc : BitVec 3) (d a b : BitVec 5) (k : BitVec 3) (s : State) : Answer :=
  s.vecMap sc d [a, b] k elemTyped occ1
    (laneOp (fun t a b _ => wrapLane t (a * b)) fun f rm a b _ => (f.mul rm a b).1)

/-- VMULH (R171): the upper half of the exact product. -/
def execVmulh (sc : BitVec 3) (d a b : BitVec 5) (k : BitVec 3) (s : State) : Answer :=
  s.vecMap sc d [a, b] k intOnly occ1
    (laneOp (fun t a b _ => wrapLane t ((a * b) / 2 ^ elemWidth t)) fun _ _ _ _ c => c)

/-- VMIN (R73, R171). -/
def execVmin (sc : BitVec 3) (d a b : BitVec 5) (k : BitVec 3) (s : State) : Answer :=
  s.vecMap sc d [a, b] k elemTyped occ1
    (laneOp (fun t a b _ => wrapLane t (min a b)) fun f _ a b _ => f.minMax false a b)

/-- VMAX (R73, R171). -/
def execVmax (sc : BitVec 3) (d a b : BitVec 5) (k : BitVec 3) (s : State) : Answer :=
  s.vecMap sc d [a, b] k elemTyped occ1
    (laneOp (fun t a b _ => wrapLane t (max a b)) fun f _ a b _ => f.minMax true a b)

/-- VAND (R171): on the bits under every arithmetic type. -/
def execVand (sc : BitVec 3) (d a b : BitVec 5) (k : BitVec 3) (s : State) : Answer :=
  s.vecMap sc d [a, b] k elemTyped occ1 fun _ _ a b _ => a &&& b

/-- VOR (R171). -/
def execVor (sc : BitVec 3) (d a b : BitVec 5) (k : BitVec 3) (s : State) : Answer :=
  s.vecMap sc d [a, b] k elemTyped occ1 fun _ _ a b _ => a ||| b

/-- VXOR (R171). -/
def execVxor (sc : BitVec 3) (d a b : BitVec 5) (k : BitVec 3) (s : State) : Answer :=
  s.vecMap sc d [a, b] k elemTyped occ1 fun _ _ a b _ => a ^^^ b

/-- VANDN (R171). -/
def execVandn (sc : BitVec 3) (d a b : BitVec 5) (k : BitVec 3) (s : State) : Answer :=
  s.vecMap sc d [a, b] k elemTyped occ1 fun t _ a b _ => a &&& (b ^^^ (2 ^ elemWidth t - 1))

/-- VSLL (R171). -/
def execVsll (sc : BitVec 3) (d a b : BitVec 5) (k : BitVec 3) (s : State) : Answer :=
  s.vecMap sc d [a, b] k intOnly occ1 fun t _ a b _ => a * 2 ^ laneShift t b

/-- VSRL (R171): zeros in. -/
def execVsrl (sc : BitVec 3) (d a b : BitVec 5) (k : BitVec 3) (s : State) : Answer :=
  s.vecMap sc d [a, b] k intOnly occ1 fun t _ a b _ => a / 2 ^ laneShift t b

/-- VSRA (R171): copies of the top bit in, under s and z types alike. -/
def execVsra (sc : BitVec 3) (d a b : BitVec 5) (k : BitVec 3) (s : State) : Answer :=
  s.vecMap sc d [a, b] k intOnly occ1 fun t _ a b _ =>
    wrapLane t (signedOf (elemWidth t) a / 2 ^ laneShift t b)

/-- VMAC (R171): the product added to the old destination, rounded once under float types. -/
def execVmac (sc : BitVec 3) (d a b : BitVec 5) (k : BitVec 3) (s : State) : Answer :=
  s.vecMap sc d [a, b] k elemTyped occ1
    (laneOp (fun t a b c => wrapLane t (c + a * b)) fun f rm a b c => (f.fma rm false false a b c).1)

/-- VADDS (R171): saturating. -/
def execVadds (sc : BitVec 3) (d a b : BitVec 5) (k : BitVec 3) (s : State) : Answer :=
  s.vecMap sc d [a, b] k intOnly occ1
    (laneOp (fun t a b _ => satLane t (a + b)) fun _ _ _ _ c => c)

/-- VSUBS (R171): saturating. -/
def execVsubs (sc : BitVec 3) (d a b : BitVec 5) (k : BitVec 3) (s : State) : Answer :=
  s.vecMap sc d [a, b] k intOnly occ1
    (laneOp (fun t a b _ => satLane t (a - b)) fun _ _ _ _ c => c)

/-- VABS (R171). -/
def execVabs (sc : BitVec 3) (d a : BitVec 5) (k : BitVec 3) (s : State) : Answer :=
  s.vecMap sc d [a] k elemTyped occ1
    (laneOp (fun t a _ _ => satLane t a.natAbs) fun f _ a _ _ => withSign f a false)

/-- VNEG (R171): saturating under s types, wrapping under z types. -/
def execVneg (sc : BitVec 3) (d a : BitVec 5) (k : BitVec 3) (s : State) : Answer :=
  s.vecMap sc d [a] k elemTyped occ1
    (laneOp (fun t a _ _ => if elemSigned t then satLane t (-a) else wrapLane t (-a))
      fun f _ a _ _ => withSign f a !(f.value a).neg)

/-- VDIV (R146, R171). -/
def execVdiv (sc : BitVec 3) (d a b : BitVec 5) (k : BitVec 3) (s : State) : Answer :=
  s.vecMap sc d [a, b] k elemTyped occDiv
    (laneOp (fun t a b _ => wrapLane t (divRem (elemSigned t) (elemWidth t) a b).1) fun f rm a b _ => (f.div rm a b).1)

/-- VSEL (R172): every lane written, from vA where the selector's bit is set; legal under every type. -/
def execVsel (sc : BitVec 3) (d a b : BitVec 5) (k : BitVec 3) (s : State) : Answer :=
  s.vec { sc := sc, reads := [.v a, .v b], dst := [.v d], k := k, legal := fun _ => true } fun t mask s =>
    let w := elemWidth t
    s.postV d (mergeLanes w (s.self.v b) mask fun i => (lanes w (s.self.v a))[i]?)

/-! ### Comparison (R173) -/

/-- The conditions eq, ne, lt, le by their codes; a NaN makes all but ne false (R73). -/
def laneCompare (c : BitVec 2) (t a b : Nat) : Bool :=
  let x := laneFp t a
  let y := laneFp t b
  match c.toNat with
  | 0 => x.eq y
  | 1 => !x.eq y
  | 2 => x.lt y
  | _ => x.le y

/-- VCMP (R173). -/
def execVcmp (sc : BitVec 3) (d : BitVec 3) (a b : BitVec 5) (k : BitVec 3) (c : BitVec 2) (s : State) : Answer :=
  s.vec { sc := sc, reads := [.v a, .v b], dst := [.k d], k := k } fun t mask s =>
    let w := elemWidth t
    let xs := (lanes w (s.self.v a)).zip (lanes w (s.self.v b))
    let old := s.self.k d
    s.postK d (BitVec.ofNat 64 ((xs.zipIdx.map fun ((x, y), i) =>
      (if mask.getLsbD i then laneCompare c t x y else old.getLsbD i).toNat * 2 ^ i).sum))

/-! ### Reductions and scans (R83-R85, R174, R175) -/

/-- The members of VRED and VSCAN. -/
inductive RedOp where
  | add
  | max
  | min
  deriving DecidableEq, Repr

/-- The identity of a member (R84). -/
def RedOp.identity (o : RedOp) (t : Nat) : Nat :=
  match elemFmt t with
  | some f =>
    let large := if f = e4m3 then f.top else f.infinity
    match o with
    | .add => f.sign
    | .max => f.sign + large
    | .min => large
  | none =>
    match o with
    | .add => 0
    | .max => wrapLane t (elemRange t).1
    | .min => wrapLane t (elemRange t).2

/-- One node or step (R83, R85). -/
def RedOp.combine (o : RedOp) (t x y : Nat) : Nat :=
  match elemFmt t with
  | some f =>
    match o with
    | .add => (f.add .rne x y).1
    | .max => f.minMax true x y
    | .min => f.minMax false x y
  | none =>
    match o with
    | .add => wrapLane t (laneInt t x + laneInt t y)
    | .max => wrapLane t (Max.max (laneInt t x) (laneInt t y))
    | .min => wrapLane t (Min.min (laneInt t x) (laneInt t y))

/-- One level of the tree: neighbours combined. -/
def pairUp (f : Nat → Nat → Nat) : List Nat → List Nat
  | x :: y :: l => f x y :: pairUp f l
  | l => l

/-- The root of the tree after `n` levels. -/
def treeRoot (f : Nat → Nat → Nat) : Nat → List Nat → Nat
  | 0, l => l.headD 0
  | n + 1, l => treeRoot f n (pairUp f l)

/-- A VRED member (R174): the root in lane 0, the identity where every lane is masked off, zeros above it. -/
def State.reduce (s : State) (sc : BitVec 3) (d a : BitVec 5) (k : BitVec 3) (o : RedOp) : Answer :=
  s.vec { sc := sc, reads := [.v a], dst := [.v d], k := k } fun t mask s =>
    let w := elemWidth t
    let xs := (lanes w (s.self.v a)).zipIdx.map fun (x, i) => if mask.getLsbD i then x else o.identity t
    let root := if (List.range (elemCount t)).any mask.getLsbD then treeRoot (o.combine t) (Nat.log2 (elemCount t)) xs
      else o.identity t
    s.postV d (BitVec.ofNat 512 (root % 2 ^ w))

/-- The scan from lane `i` on (R85): the lanes with the old destination's. -/
def scanFrom (o : RedOp) (t : Nat) (inclusive : Bool) (mask heads : Word) (run : Nat) (i : Nat) :
    List (Nat × Nat) → List Nat
  | [] => []
  | (x, old) :: l =>
    let run := if heads.getLsbD i then o.identity t else run
    if mask.getLsbD i then
      let next := o.combine t run x
      (if inclusive then next else run) :: scanFrom o t inclusive mask heads next (i + 1) l
    else old :: scanFrom o t inclusive mask heads run (i + 1) l

/-- A VSCAN member (R175); `g` marks the segmented form with its head-flag mask. -/
def State.scan (s : State) (sc : BitVec 3) (d a : BitVec 5) (g : BitVec 1) (h k : BitVec 3) (o : RedOp)
    (inclusive : Bool) : Answer :=
  s.vec { sc := sc, reads := .v a :: (if g = 1 then [.k h] else []), dst := [.v d], k := k
          occ := fun t => max 1 (elemCount t / 8) } fun t mask s =>
    let w := elemWidth t
    let heads := if g = 1 then s.self.k h else 0
    s.postV d (ofLanes w (scanFrom o t inclusive mask heads (o.identity t) 0
      ((lanes w (s.self.v a)).zip (lanes w (s.self.v d)))))

/-- VRED.ADD (R174). -/
def execVredAdd (sc : BitVec 3) (d a : BitVec 5) (k : BitVec 3) (s : State) : Answer := s.reduce sc d a k .add

/-- VRED.MAX (R174). -/
def execVredMax (sc : BitVec 3) (d a : BitVec 5) (k : BitVec 3) (s : State) : Answer := s.reduce sc d a k .max

/-- VRED.MIN (R174). -/
def execVredMin (sc : BitVec 3) (d a : BitVec 5) (k : BitVec 3) (s : State) : Answer := s.reduce sc d a k .min

/-- VSCAN.ADD.I (R175). -/
def execVscanAddI (sc : BitVec 3) (d a : BitVec 5) (g : BitVec 1) (h k : BitVec 3) (s : State) : Answer :=
  s.scan sc d a g h k .add true

/-- VSCAN.MAX.I (R175). -/
def execVscanMaxI (sc : BitVec 3) (d a : BitVec 5) (g : BitVec 1) (h k : BitVec 3) (s : State) : Answer :=
  s.scan sc d a g h k .max true

/-- VSCAN.MIN.I (R175). -/
def execVscanMinI (sc : BitVec 3) (d a : BitVec 5) (g : BitVec 1) (h k : BitVec 3) (s : State) : Answer :=
  s.scan sc d a g h k .min true

/-- VSCAN.ADD.E (R175). -/
def execVscanAddE (sc : BitVec 3) (d a : BitVec 5) (g : BitVec 1) (h k : BitVec 3) (s : State) : Answer :=
  s.scan sc d a g h k .add false

/-- VSCAN.MAX.E (R175). -/
def execVscanMaxE (sc : BitVec 3) (d a : BitVec 5) (g : BitVec 1) (h k : BitVec 3) (s : State) : Answer :=
  s.scan sc d a g h k .max false

/-- VSCAN.MIN.E (R175). -/
def execVscanMinE (sc : BitVec 3) (d a : BitVec 5) (g : BitVec 1) (h k : BitVec 3) (s : State) : Answer :=
  s.scan sc d a g h k .min false

end Sys2Proof.Machine
end

