-- ==== Sys2Proof/Machine/VecMask.lean ====
section
/-! DEFINITION. The MASK group and VSETT, which execute in the scalar unit (R33, R165, R167, R170, R187). -/

namespace Sys2Proof.Machine

/-- A MASK member that makes a mask from masks. -/
def State.maskOp (s : State) (sc : BitVec 3) (d : BitVec 3) (srcs : List (BitVec 3)) (f : Word → Word → Word) : Answer :=
  s.run { sc := sc, reads := srcs.map .k, writes := [.k d] } fun s =>
    let src (i : Nat) : Word := s.self.k (srcs.getD i 0)
    .done (s.postK d (lowMask (elemCount s.vtype) (f (src 0) (src 1))))

/-- A MASK member that makes a g value from a mask. -/
def State.maskRead (s : State) (sc : BitVec 3) (d : BitVec 5) (a : BitVec 3) (f : Word → Word) : Answer :=
  s.run { sc := sc, reads := [.k a], writes := [.g d] } fun s =>
    .done (s.postG d (f (lowMask (elemCount s.vtype) (s.self.k a))))

/-- A MASK member that makes a mask from a g value. -/
def State.maskMake (s : State) (sc : BitVec 3) (d : BitVec 3) (a : BitVec 5) (f : Nat → Word → Word) : Answer :=
  s.run { sc := sc, reads := [.g a], writes := [.k d] } fun s =>
    let n := elemCount s.vtype
    .done (s.postK d (lowMask n (f n (s.self.g a))))

/-- KAND (R187). -/
def execKand (sc d a b : BitVec 3) (s : State) : Answer := s.maskOp sc d [a, b] fun x y => x &&& y

/-- KOR (R187). -/
def execKor (sc d a b : BitVec 3) (s : State) : Answer := s.maskOp sc d [a, b] fun x y => x ||| y

/-- KXOR (R187). -/
def execKxor (sc d a b : BitVec 3) (s : State) : Answer := s.maskOp sc d [a, b] fun x y => x ^^^ y

/-- KANDN (R187). -/
def execKandn (sc d a b : BitVec 3) (s : State) : Answer := s.maskOp sc d [a, b] fun x y => x &&& ~~~y

/-- KNOT (R187). -/
def execKnot (sc d a : BitVec 3) (s : State) : Answer := s.maskOp sc d [a] fun x _ => ~~~x

/-- KPOP (R187). -/
def execKpop (sc : BitVec 3) (d : BitVec 5) (a : BitVec 3) (s : State) : Answer := s.maskRead sc d a popc

/-- KFFS (R187): 64 if no bit is set. -/
def execKffs (sc : BitVec 3) (d : BitVec 5) (a : BitVec 3) (s : State) : Answer := s.maskRead sc d a ctz

/-- KMOVG (R187). -/
def execKmovg (sc : BitVec 3) (d : BitVec 5) (a : BitVec 3) (s : State) : Answer := s.maskRead sc d a id

/-- KSETN (R187). -/
def execKsetn (sc d : BitVec 3) (a : BitVec 5) (s : State) : Answer :=
  s.maskMake sc d a fun n x => BitVec.ofNat 64 (2 ^ min x.toNat n - 1)

/-- KMOVK (R187). -/
def execKmovk (sc d : BitVec 3) (a : BitVec 5) (s : State) : Answer := s.maskMake sc d a fun _ x => x

/-- VSETT (R170): the type from the word, or from g[A] where A is not 0; g[D] receives the lane count. -/
def execVsett (sc : BitVec 3) (d a : BitVec 5) (t : BitVec 4) (s : State) : Answer :=
  s.run { sc := sc, reads := [.g a], writes := [.g d], reach := true } fun s =>
    let t := if a = 0 then t else (s.self.g a).truncate 4
    if t = 15 then s.illegal
    else
      let n := if t = 14 then 128 else elemCount t.toNat
      .done ((s.onHart s.cur fun x => { x with csr := { x.csr with vtype := t } }).postG d (BitVec.ofNat 64 n))

end Sys2Proof.Machine
end

