-- ==== Sys2Proof/Machine/VecMove.lean ====
section
/-! DEFINITION. Permutations, conversions, quantisers and the amax history rings (R35, R70-R72, R77-R79, R167, R176-R180). -/

namespace Sys2Proof.Machine

/-! ### Permutations (R176), legal under every type -/

/-- A VPERM member that writes lanes of vD; `f` says which lanes take which value. -/
def State.permute (s : State) (sc : BitVec 3) (d : BitVec 5) (reads : List Reg) (k : BitVec 3)
    (f : Nat → Hart → Nat → Option Nat) : Answer :=
  s.vec { sc := sc, reads := reads, dst := [.v d], k := k, legal := fun _ => true, occ := fun _ => 2 } fun t mask s =>
    s.postV d (mergeLanes (elemWidth t) (s.self.v d) mask (f t s.self))

/-- VPERM (R176). -/
def execVperm (sc : BitVec 3) (d a b : BitVec 5) (k : BitVec 3) (s : State) : Answer :=
  s.permute sc d [.v a, .v b] k fun t x i =>
    let w := elemWidth t
    some ((lanes w (x.v a)).getD ((lanes w (x.v b)).getD i 0) 0)

/-- VSLIDEUP (R176): lanes below the count keep their value. -/
def execVslideup (sc : BitVec 3) (d a b : BitVec 5) (k : BitVec 3) (s : State) : Answer :=
  s.permute sc d [.v a, .g b] k fun t x i =>
    let c := (x.g b).toNat
    if c ≤ i then some ((lanes (elemWidth t) (x.v a)).getD (i - c) 0) else none

/-- VSLIDEDN (R176). -/
def execVslidedn (sc : BitVec 3) (d a b : BitVec 5) (k : BitVec 3) (s : State) : Answer :=
  s.permute sc d [.v a, .g b] k fun t x i => some ((lanes (elemWidth t) (x.v a)).getD (i + (x.g b).toNat) 0)

/-- VBCAST (R176). -/
def execVbcast (sc : BitVec 3) (d a : BitVec 5) (k : BitVec 3) (s : State) : Answer :=
  s.permute sc d [.g a] k fun _ x _ => some (x.g a).toNat

/-- VINS (R176). -/
def execVins (sc : BitVec 3) (d a b : BitVec 5) (k : BitVec 3) (s : State) : Answer :=
  s.permute sc d [.g a, .g b] k fun _ x i => if i = (x.g b).toNat then some (x.g a).toNat else none

/-- The lane that VEXT reads (R176), none where its mask bit is clear. -/
def extLane (t : Nat) (v : VReg) (mask : Word) (l : Nat) : Option Word :=
  if elemCount t ≤ l then some 0
  else if mask.getLsbD l then
    let x := (lanes (elemWidth t) v).getD l 0
    some (if elemSigned t then BitVec.ofInt 64 (signedOf (elemWidth t) x) else BitVec.ofNat 64 x)
  else none

/-- VEXT (R176): a masked-off lane leaves g[D] as it is. -/
def execVext (sc : BitVec 3) (d a b : BitVec 5) (k : BitVec 3) (s : State) : Answer :=
  s.vec { sc := sc, reads := [.v a, .g b], dst := [.g d], k := k, legal := fun _ => true, occ := fun _ => 2 }
    fun t mask s =>
    match extLane t (s.self.v a) mask (s.self.g b).toNat with
    | some w => s.postG d w
    | none => s

/-! ### Conversions (R70-R72, R177) -/

/-- One lane converted between types (R70-R72, R177): the identity between equal types; an integer that widens is
extended by its own signedness, any other saturates. -/
def convertLane (src dst : Nat) (rm : Rm) (x : Nat) : Nat :=
  if src = dst then x
  else
    match elemFmt src, elemFmt dst with
    | some f, some g => (convertFp f g rm x).1
    | some f, none => wrapLane dst ((f.value x).toInt rm (elemRange dst).1 (elemRange dst).2).1
    | none, some g => (g.round rm (Fp.ofInt (laneInt src x))).1
    | none, none =>
      if elemWidth src < elemWidth dst then wrapLane dst (laneInt src x) else satLane dst (laneInt src x)

/-- The first lane that .hi starts at (R177): of the source where it widens, of the destination where it narrows. -/
def cvtBase (hi : Bool) (src dst : Nat) : Nat :=
  if hi then (if elemWidth src < elemWidth dst then elemCount dst else elemCount src) else 0

/-- VCVT (R177); its mask goes by destination lanes (notes/assumptions/16.md). -/
def State.vcvt (s : State) (sc : BitVec 3) (d a : BitVec 5) (dst : BitVec 4) (k : BitVec 3) (hi : Bool) : Answer :=
  let dt := dst.toNat
  s.vec { sc := sc, reads := [.v a], dst := [.v d], k := k
          legal := fun t => elemTyped t && !(hi && elemWidth t == elemWidth dt) } fun t mask s =>
    let src := lanes (elemWidth t) (s.self.v a)
    let base := cvtBase hi t dt
    let widens := decide (elemWidth t ≤ elemWidth dt)
    s.postV d (mergeLanes (elemWidth dt) (s.self.v d) mask fun j =>
      if widens then some (convertLane t dt s.rm (src.getD (base + j) 0))
      else if base ≤ j ∧ j < base + elemCount t then some (convertLane t dt s.rm (src.getD (j - base) 0))
      else none)

/-- VCVT.LO (R177). -/
def execVcvtLo (sc : BitVec 3) (d a : BitVec 5) (t : BitVec 4) (k : BitVec 3) (s : State) : Answer :=
  s.vcvt sc d a t k false

/-- VCVT.HI (R177). -/
def execVcvtHi (sc : BitVec 3) (d a : BitVec 5) (t : BitVec 4) (k : BitVec 3) (s : State) : Answer :=
  s.vcvt sc d a t k true

/-! ### Quantisers (R71, R79, R178) -/

/-- x × s, exactly. -/
def scaled (x : Fp) (scale : Word) : Fp := (x.mul (f32.value (f32.unbox scale))).1

/-- VQUANT.S8's rule (R71): a NaN gives 0. -/
def quantS8 (x : Fp) : Nat := if x.isNan then 0 else wrapTo 8 (x.toInt .rne (-128) 127).1

/-- A VQUANT member (R178): byte lanes 0 to n − 1 written. -/
def State.vquant (s : State) (sc : BitVec 3) (d a b : BitVec 5) (k : BitVec 3) (f : Fp → Nat) : Answer :=
  s.vec { sc := sc, reads := [.v a, .f b], dst := [.v d], k := k, legal := elemIsFloat } fun t mask s =>
    let src := lanes (elemWidth t) (s.self.v a)
    let scale := s.self.f b
    s.postV d (mergeLanes 8 (s.self.v d) mask fun i => src[i]?.map fun x => f (scaled (laneFp t x) scale))

/-- A VDEQ member (R178): byte lanes 0 to n − 1 read. -/
def State.vdeq (s : State) (sc : BitVec 3) (d a b : BitVec 5) (k : BitVec 3) (f : Nat → Fp) : Answer :=
  s.vec { sc := sc, reads := [.v a, .f b], dst := [.v d], k := k, legal := elemIsFloat } fun t mask s =>
    let src := lanes 8 (s.self.v a)
    let scale := s.self.f b
    s.postV d (mergeLanes (elemWidth t) (s.self.v d) mask fun i =>
      (elemFmt t).map fun g => g.rne (scaled (f (src.getD i 0)) scale))

/-- VQUANT.E43 (R178). -/
def execVquantE43 (sc : BitVec 3) (d a b : BitVec 5) (k : BitVec 3) (s : State) : Answer := s.vquant sc d a b k e4m3.rne

/-- VQUANT.E52 (R178). -/
def execVquantE52 (sc : BitVec 3) (d a b : BitVec 5) (k : BitVec 3) (s : State) : Answer := s.vquant sc d a b k e5m2.rne

/-- VQUANT.S8 (R178). -/
def execVquantS8 (sc : BitVec 3) (d a b : BitVec 5) (k : BitVec 3) (s : State) : Answer := s.vquant sc d a b k quantS8

/-- VDEQ.E43 (R178). -/
def execVdeqE43 (sc : BitVec 3) (d a b : BitVec 5) (k : BitVec 3) (s : State) : Answer := s.vdeq sc d a b k e4m3.value

/-- VDEQ.E52 (R178). -/
def execVdeqE52 (sc : BitVec 3) (d a b : BitVec 5) (k : BitVec 3) (s : State) : Answer := s.vdeq sc d a b k e5m2.value

/-- VDEQ.S8 (R178). -/
def execVdeqS8 (sc : BitVec 3) (d a b : BitVec 5) (k : BitVec 3) (s : State) : Answer :=
  s.vdeq sc d a b k fun q => Fp.ofInt (signedOf 8 q)

/-! ### History rings (R35, R77, R78, R179, R180) -/

/-- |x| of a value. -/
def Fp.abs : Fp → Fp
  | .nan s => .nan s
  | .inf _ => .inf false
  | .fin _ m e => .fin false m e

/-- The largest of the values that are no NaNs, +0 when there is none. -/
def largestFp (xs : List Fp) : Option Fp :=
  (xs.filter fun x => !x.isNan).foldl (fun o x => match o with
    | none => some x
    | some m => if m.lt x then some x else some m) none

/-- VAMAX's m as FP32 (R77, R179). -/
def amaxOf (t : Nat) (mask : Word) (v : VReg) : Word32 :=
  let xs := (lanes (elemWidth t) v).zipIdx.filterMap fun (x, i) => if mask.getLsbD i then some (laneFp t x).abs else none
  BitVec.ofNat 32 (f32.rne ((largestFp xs).getD (.fin false 0 0)))

/-- A magnitude appended to a ring (R77). -/
def Tile.appendAmax (t : Tile) (i : Nat) (m : Word32) : Tile :=
  let next := (entryAt t.hringNext i 0)
  { t with
    hringData := onAt t.hringData i fun r => r.set next.toNat m next.isLt
    hringNext := onAt t.hringNext i fun n => n + 1
    hringValid := onAt t.hringValid i fun n => BitVec.ofNat 5 (min (n.toNat + 1) 16) }

/-- VAMAX (R179): another hart's ring raises ILLEGAL (R35). -/
def execVamax (sc : BitVec 3) (h : BitVec 2) (a : BitVec 5) (k : BitVec 3) (s : State) : Answer :=
  s.run { sc := sc, reads := .v a :: maskReg k, writes := [], fields := some [.v a], reach := true } fun s =>
    if !elemTyped s.vtype || isSup s.cur || h.toNat != hartSlot s.cur then s.illegal
    else s.withLane 1 fun s => .done (s.onTile (hartVt s.cur) fun t =>
      t.appendAmax h.toNat (amaxOf s.vtype (s.self.mask k) (s.self.v a)))

/-- The valid entries of a ring (R78). -/
def Tile.amaxEntries (t : Tile) (i : Nat) : List Nat :=
  let data := entryAt t.hringData i (Vector.replicate 16 0)
  let next := (entryAt t.hringNext i 0).toNat
  (List.range (entryAt t.hringValid i 0).toNat).map fun j => (entryAt data ((next + 15 - j) % 16) 0).toNat

/-- The largest e with m · 2^e ≤ FMTMAX, clamped (R78). -/
def scaleExp (fmtMax : Nat) (m : Fp) : Int :=
  match m with
  | .nan _ => 0
  | .inf n => if n then 0 else -126
  | .fin n a e =>
    if n || a == 0 then 0
    else
      let t := (Nat.log2 fmtMax : Int) - topExp a e
      let tooBig := !(Fp.fin false a (e + t)).le (.fin false fmtMax 0)
      max (-126) (min 127 (if tooBig then t - 1 else t))

/-- FMTMAX of a code (R78). -/
def fmtMaxOf (code : Nat) : Nat := if code = 0 then 127 else if code = 12 then 448 else 57344

/-- SCLD (R78, R180). -/
def execScld (sc : BitVec 3) (d : BitVec 5) (h : BitVec 2) (t : BitVec 4) (s : State) : Answer :=
  s.run { sc := sc, reads := [], writes := [.f d] } fun s =>
    if isSup s.cur ∨ h.toNat ≠ hartSlot s.cur then s.illegal
    else
      let es := ((s.tile (hartVt s.cur)).amaxEntries h.toNat).map f32.value
      let e := scaleExp (fmtMaxOf t.toNat) ((largestFp es).getD (.fin false 0 0))
      .done (s.postF d (f32.box ((e + 127).toNat * 2 ^ 23)))

end Sys2Proof.Machine
end

