-- ==== Sys2Proof/Machine/Dispatch.lean ====
section
/-! DEFINITION. One arm per constructor of `Instr`, each a direct call of its meaning. -/

namespace Sys2Proof.Machine
open Sys2Proof

def exec (i : Instr) (s : State) : Host.Outcome State Fault Refusal :=
  match i with
  | .add sc d a b => Sys2Proof.Machine.execAdd sc d a b s
  | .sub sc d a b => Sys2Proof.Machine.execSub sc d a b s
  | .and sc d a b => Sys2Proof.Machine.execAnd sc d a b s
  | .or sc d a b => Sys2Proof.Machine.execOr sc d a b s
  | .xor sc d a b => Sys2Proof.Machine.execXor sc d a b s
  | .andn sc d a b => Sys2Proof.Machine.execAndn sc d a b s
  | .orn sc d a b => Sys2Proof.Machine.execOrn sc d a b s
  | .sll sc d a b => Sys2Proof.Machine.execSll sc d a b s
  | .srl sc d a b => Sys2Proof.Machine.execSrl sc d a b s
  | .sra sc d a b => Sys2Proof.Machine.execSra sc d a b s
  | .rol sc d a b => Sys2Proof.Machine.execRol sc d a b s
  | .ror sc d a b => Sys2Proof.Machine.execRor sc d a b s
  | .slt sc d a b => Sys2Proof.Machine.execSlt sc d a b s
  | .sltu sc d a b => Sys2Proof.Machine.execSltu sc d a b s
  | .seq sc d a b => Sys2Proof.Machine.execSeq sc d a b s
  | .sne sc d a b => Sys2Proof.Machine.execSne sc d a b s
  | .min sc d a b => Sys2Proof.Machine.execMin sc d a b s
  | .max sc d a b => Sys2Proof.Machine.execMax sc d a b s
  | .minu sc d a b => Sys2Proof.Machine.execMinu sc d a b s
  | .maxu sc d a b => Sys2Proof.Machine.execMaxu sc d a b s
  | .clz sc d a => Sys2Proof.Machine.execClz sc d a s
  | .ctz sc d a => Sys2Proof.Machine.execCtz sc d a s
  | .popc sc d a => Sys2Proof.Machine.execPopc sc d a s
  | .brev sc d a => Sys2Proof.Machine.execBrev sc d a s
  | .sextb sc d a => Sys2Proof.Machine.execSextb sc d a s
  | .sexth sc d a => Sys2Proof.Machine.execSexth sc d a s
  | .sextw sc d a => Sys2Proof.Machine.execSextw sc d a s
  | .zextw sc d a => Sys2Proof.Machine.execZextw sc d a s
  | .addsh sc d a b h => Sys2Proof.Machine.execAddsh sc d a b h s
  | .addw sc d a b => Sys2Proof.Machine.execAddw sc d a b s
  | .subw sc d a b => Sys2Proof.Machine.execSubw sc d a b s
  | .sllw sc d a b => Sys2Proof.Machine.execSllw sc d a b s
  | .srlw sc d a b => Sys2Proof.Machine.execSrlw sc d a b s
  | .sraw sc d a b => Sys2Proof.Machine.execSraw sc d a b s
  | .rolw sc d a b => Sys2Proof.Machine.execRolw sc d a b s
  | .rorw sc d a b => Sys2Proof.Machine.execRorw sc d a b s
  | .mul sc d a b => Sys2Proof.Machine.execMul sc d a b s
  | .mulhs sc d a b => Sys2Proof.Machine.execMulhs sc d a b s
  | .mulhz sc d a b => Sys2Proof.Machine.execMulhz sc d a b s
  | .mulhsz sc d a b => Sys2Proof.Machine.execMulhsz sc d a b s
  | .div sc d a b => Sys2Proof.Machine.execDiv sc d a b s
  | .divu sc d a b => Sys2Proof.Machine.execDivu sc d a b s
  | .rem sc d a b => Sys2Proof.Machine.execRem sc d a b s
  | .remu sc d a b => Sys2Proof.Machine.execRemu sc d a b s
  | .mulw sc d a b => Sys2Proof.Machine.execMulw sc d a b s
  | .divw sc d a b => Sys2Proof.Machine.execDivw sc d a b s
  | .divuw sc d a b => Sys2Proof.Machine.execDivuw sc d a b s
  | .remw sc d a b => Sys2Proof.Machine.execRemw sc d a b s
  | .remuw sc d a b => Sys2Proof.Machine.execRemuw sc d a b s
  | .addi sc d a imm => Sys2Proof.Machine.execAddi sc d a imm s
  | .andi sc d a imm => Sys2Proof.Machine.execAndi sc d a imm s
  | .ori sc d a imm => Sys2Proof.Machine.execOri sc d a imm s
  | .xori sc d a imm => Sys2Proof.Machine.execXori sc d a imm s
  | .slti sc d a imm => Sys2Proof.Machine.execSlti sc d a imm s
  | .sltiu sc d a imm => Sys2Proof.Machine.execSltiu sc d a imm s
  | .addiw sc d a imm => Sys2Proof.Machine.execAddiw sc d a imm s
  | .slli sc d a h => Sys2Proof.Machine.execSlli sc d a h s
  | .srli sc d a h => Sys2Proof.Machine.execSrli sc d a h s
  | .srai sc d a h => Sys2Proof.Machine.execSrai sc d a h s
  | .rori sc d a h => Sys2Proof.Machine.execRori sc d a h s
  | .slliw sc d a h => Sys2Proof.Machine.execSlliw sc d a h s
  | .srliw sc d a h => Sys2Proof.Machine.execSrliw sc d a h s
  | .sraiw sc d a h => Sys2Proof.Machine.execSraiw sc d a h s
  | .roriw sc d a h => Sys2Proof.Machine.execRoriw sc d a h s
  | .lui sc d imm => Sys2Proof.Machine.execLui sc d imm s
  | .auipc sc d imm => Sys2Proof.Machine.execAuipc sc d imm s
  | .liw sc d imm => Sys2Proof.Machine.execLiw sc d imm s
  | .beq sc a b o => Sys2Proof.Machine.execBeq sc a b o s
  | .bne sc a b o => Sys2Proof.Machine.execBne sc a b o s
  | .blt sc a b o => Sys2Proof.Machine.execBlt sc a b o s
  | .bge sc a b o => Sys2Proof.Machine.execBge sc a b o s
  | .bltu sc a b o => Sys2Proof.Machine.execBltu sc a b o s
  | .bgeu sc a b o => Sys2Proof.Machine.execBgeu sc a b o s
  | .jal sc d o => Sys2Proof.Machine.execJal sc d o s
  | .jalr sc d a imm => Sys2Proof.Machine.execJalr sc d a imm s
  | .ldb sc d a imm => Sys2Proof.Machine.execLdb sc d a imm s
  | .ldh sc d a imm => Sys2Proof.Machine.execLdh sc d a imm s
  | .ldw sc d a imm => Sys2Proof.Machine.execLdw sc d a imm s
  | .ldd sc d a imm => Sys2Proof.Machine.execLdd sc d a imm s
  | .ldbz sc d a imm => Sys2Proof.Machine.execLdbz sc d a imm s
  | .ldhz sc d a imm => Sys2Proof.Machine.execLdhz sc d a imm s
  | .ldwz sc d a imm => Sys2Proof.Machine.execLdwz sc d a imm s
  | .stb sc t a imm => Sys2Proof.Machine.execStb sc t a imm s
  | .sth sc t a imm => Sys2Proof.Machine.execSth sc t a imm s
  | .stw sc t a imm => Sys2Proof.Machine.execStw sc t a imm s
  | .std sc t a imm => Sys2Proof.Machine.execStd sc t a imm s
  | .fldw sc d a imm => Sys2Proof.Machine.execFldw sc d a imm s
  | .fldd sc d a imm => Sys2Proof.Machine.execFldd sc d a imm s
  | .fstw sc t a imm => Sys2Proof.Machine.execFstw sc t a imm s
  | .fstd sc t a imm => Sys2Proof.Machine.execFstd sc t a imm s
  | .ldAcq sc d a e z => Sys2Proof.Machine.execLdAcq sc d a e z s
  | .stRel sc a b e z => Sys2Proof.Machine.execStRel sc a b e z s
  | .setfull sc a => Sys2Proof.Machine.execSetfull sc a s
  | .setempty sc a => Sys2Proof.Machine.execSetempty sc a s
  | .ldtake sc d a => Sys2Proof.Machine.execLdtake sc d a s
  | .stfill sc a b => Sys2Proof.Machine.execStfill sc a b s
  | .festat sc d a => Sys2Proof.Machine.execFestat sc d a s
  | .amoadd sc d a b w => Sys2Proof.Machine.execAmoadd sc d a b w s
  | .amomin sc d a b w => Sys2Proof.Machine.execAmomin sc d a b w s
  | .amomax sc d a b w => Sys2Proof.Machine.execAmomax sc d a b w s
  | .amoand sc d a b w => Sys2Proof.Machine.execAmoand sc d a b w s
  | .amoor sc d a b w => Sys2Proof.Machine.execAmoor sc d a b w s
  | .amoxor sc d a b w => Sys2Proof.Machine.execAmoxor sc d a b w s
  | .amoswap sc d a b w => Sys2Proof.Machine.execAmoswap sc d a b w s
  | .amocas sc d a b w => Sys2Proof.Machine.execAmocas sc d a b w s
  | .accF32 sc a b => Sys2Proof.Machine.execAccF32 sc a b s
  | .accBf sc a b => Sys2Proof.Machine.execAccBf sc a b s
  | .accS32 sc a b => Sys2Proof.Machine.execAccS32 sc a b s
  | .accS64 sc a b => Sys2Proof.Machine.execAccS64 sc a b s
  | .flushres sc => Sys2Proof.Machine.execFlushres sc s
  | .tailstat sc d a => Sys2Proof.Machine.execTailstat sc d a s
  | .csrrw sc d a c => Sys2Proof.Machine.execCsrrw sc d a c s
  | .csrrs sc d a c => Sys2Proof.Machine.execCsrrs sc d a c s
  | .csrrc sc d a c => Sys2Proof.Machine.execCsrrc sc d a c s
  | .csrrwi sc d imm c => Sys2Proof.Machine.execCsrrwi sc d imm c s
  | .csrrsi sc d imm c => Sys2Proof.Machine.execCsrrsi sc d imm c s
  | .csrrci sc d imm c => Sys2Proof.Machine.execCsrrci sc d imm c s
  | .ecall sc => Sys2Proof.Machine.execEcall sc s
  | .ebreak sc => Sys2Proof.Machine.execEbreak sc s
  | .uret sc => Sys2Proof.Machine.execUret sc s
  | .kret sc => Sys2Proof.Machine.execKret sc s
  | .fret sc => Sys2Proof.Machine.execFret sc s
  | .wfi sc => Sys2Proof.Machine.execWfi sc s
  | .fenceI sc => Sys2Proof.Machine.execFenceI sc s
  | .tlbinv sc a b => Sys2Proof.Machine.execTlbinv sc a b s
  | .savept sc => Sys2Proof.Machine.execSavept sc s
  | .ckpt sc => Sys2Proof.Machine.execCkpt sc s
  | .tstamp sc d => Sys2Proof.Machine.execTstamp sc d s
  | .fence sc k e => Sys2Proof.Machine.execFence sc k e s
  | .send sc d a b r u p => Sys2Proof.Machine.execSend sc d a b r u p s
  | .spawn sc a b => Sys2Proof.Machine.execSpawn sc a b s
  | .tend sc => Sys2Proof.Machine.execTend sc s
  | .tendX sc => Sys2Proof.Machine.execTendX sc s
  | .tyield sc => Sys2Proof.Machine.execTyield sc s
  | .msgpeek sc d a => Sys2Proof.Machine.execMsgpeek sc d a s
  | .barinit sc a b => Sys2Proof.Machine.execBarinit sc a b s
  | .barjoin sc a => Sys2Proof.Machine.execBarjoin sc a s
  | .bararrive sc a => Sys2Proof.Machine.execBararrive sc a s
  | .barwait sc a => Sys2Proof.Machine.execBarwait sc a s
  | .bardrop sc a => Sys2Proof.Machine.execBardrop sc a s
  | .lwatch sc a => Sys2Proof.Machine.execLwatch sc a s
  | .lwait sc d a => Sys2Proof.Machine.execLwait sc d a s
  | .cntadd sc a b => Sys2Proof.Machine.execCntadd sc a b s
  | .cntwait sc a b => Sys2Proof.Machine.execCntwait sc a b s
  | .cntread sc d a => Sys2Proof.Machine.execCntread sc d a s
  | .cancel sc a => Sys2Proof.Machine.execCancel sc a s
  | .submit sc a => Sys2Proof.Machine.execSubmit sc a s
  | .submitB sc d a => Sys2Proof.Machine.execSubmitB sc d a s
  | .tmap sc a imm => Sys2Proof.Machine.execTmap sc a imm s
  | .waitany sc d a => Sys2Proof.Machine.execWaitany sc d a s
  | .waitall sc a => Sys2Proof.Machine.execWaitall sc a s
  | .fftag sc d a => Sys2Proof.Machine.execFftag sc d a s
  | .clrtag sc a => Sys2Proof.Machine.execClrtag sc a s
  | .mreq sc a b => Sys2Proof.Machine.execMreq sc a b s
  | .mbind sc a b => Sys2Proof.Machine.execMbind sc a b s
  | .fadd sc d a b p => Sys2Proof.Machine.execFadd sc d a b p s
  | .fsub sc d a b p => Sys2Proof.Machine.execFsub sc d a b p s
  | .fmul sc d a b p => Sys2Proof.Machine.execFmul sc d a b p s
  | .fdiv sc d a b p => Sys2Proof.Machine.execFdiv sc d a b p s
  | .fsqrt sc d a p => Sys2Proof.Machine.execFsqrt sc d a p s
  | .fmin sc d a b p => Sys2Proof.Machine.execFmin sc d a b p s
  | .fmax sc d a b p => Sys2Proof.Machine.execFmax sc d a b p s
  | .fsgncpy sc d a b p => Sys2Proof.Machine.execFsgncpy sc d a b p s
  | .fsgnneg sc d a b p => Sys2Proof.Machine.execFsgnneg sc d a b p s
  | .fsgnxor sc d a b p => Sys2Proof.Machine.execFsgnxor sc d a b p s
  | .feq sc d a b p => Sys2Proof.Machine.execFeq sc d a b p s
  | .flt sc d a b p => Sys2Proof.Machine.execFlt sc d a b p s
  | .fle sc d a b p => Sys2Proof.Machine.execFle sc d a b p s
  | .fclass sc d a p => Sys2Proof.Machine.execFclass sc d a p s
  | .fcvt sc d a c => Sys2Proof.Machine.execFcvt sc d a c s
  | .fmvg sc d a p => Sys2Proof.Machine.execFmvg sc d a p s
  | .fmvf sc d a p => Sys2Proof.Machine.execFmvf sc d a p s
  | .fmaS sc d a b c => Sys2Proof.Machine.execFmaS sc d a b c s
  | .fmsS sc d a b c => Sys2Proof.Machine.execFmsS sc d a b c s
  | .fnmaS sc d a b c => Sys2Proof.Machine.execFnmaS sc d a b c s
  | .fnmsS sc d a b c => Sys2Proof.Machine.execFnmsS sc d a b c s
  | .fmaD sc d a b c => Sys2Proof.Machine.execFmaD sc d a b c s
  | .fmsD sc d a b c => Sys2Proof.Machine.execFmsD sc d a b c s
  | .fnmaD sc d a b c => Sys2Proof.Machine.execFnmaD sc d a b c s
  | .fnmsD sc d a b c => Sys2Proof.Machine.execFnmsD sc d a b c s
  | .vadd sc d a b k => Sys2Proof.Machine.execVadd sc d a b k s
  | .vsub sc d a b k => Sys2Proof.Machine.execVsub sc d a b k s
  | .vmul sc d a b k => Sys2Proof.Machine.execVmul sc d a b k s
  | .vmulh sc d a b k => Sys2Proof.Machine.execVmulh sc d a b k s
  | .vmin sc d a b k => Sys2Proof.Machine.execVmin sc d a b k s
  | .vmax sc d a b k => Sys2Proof.Machine.execVmax sc d a b k s
  | .vand sc d a b k => Sys2Proof.Machine.execVand sc d a b k s
  | .vor sc d a b k => Sys2Proof.Machine.execVor sc d a b k s
  | .vxor sc d a b k => Sys2Proof.Machine.execVxor sc d a b k s
  | .vandn sc d a b k => Sys2Proof.Machine.execVandn sc d a b k s
  | .vsll sc d a b k => Sys2Proof.Machine.execVsll sc d a b k s
  | .vsrl sc d a b k => Sys2Proof.Machine.execVsrl sc d a b k s
  | .vsra sc d a b k => Sys2Proof.Machine.execVsra sc d a b k s
  | .vmac sc d a b k => Sys2Proof.Machine.execVmac sc d a b k s
  | .vadds sc d a b k => Sys2Proof.Machine.execVadds sc d a b k s
  | .vsubs sc d a b k => Sys2Proof.Machine.execVsubs sc d a b k s
  | .vabs sc d a k => Sys2Proof.Machine.execVabs sc d a k s
  | .vneg sc d a k => Sys2Proof.Machine.execVneg sc d a k s
  | .vdiv sc d a b k => Sys2Proof.Machine.execVdiv sc d a b k s
  | .vsel sc d a b k => Sys2Proof.Machine.execVsel sc d a b k s
  | .vcmp sc d a b k c => Sys2Proof.Machine.execVcmp sc d a b k c s
  | .vredAdd sc d a k => Sys2Proof.Machine.execVredAdd sc d a k s
  | .vredMax sc d a k => Sys2Proof.Machine.execVredMax sc d a k s
  | .vredMin sc d a k => Sys2Proof.Machine.execVredMin sc d a k s
  | .vscanAddI sc d a g h k => Sys2Proof.Machine.execVscanAddI sc d a g h k s
  | .vscanMaxI sc d a g h k => Sys2Proof.Machine.execVscanMaxI sc d a g h k s
  | .vscanMinI sc d a g h k => Sys2Proof.Machine.execVscanMinI sc d a g h k s
  | .vscanAddE sc d a g h k => Sys2Proof.Machine.execVscanAddE sc d a g h k s
  | .vscanMaxE sc d a g h k => Sys2Proof.Machine.execVscanMaxE sc d a g h k s
  | .vscanMinE sc d a g h k => Sys2Proof.Machine.execVscanMinE sc d a g h k s
  | .vperm sc d a b k => Sys2Proof.Machine.execVperm sc d a b k s
  | .vslideup sc d a b k => Sys2Proof.Machine.execVslideup sc d a b k s
  | .vslidedn sc d a b k => Sys2Proof.Machine.execVslidedn sc d a b k s
  | .vbcast sc d a k => Sys2Proof.Machine.execVbcast sc d a k s
  | .vins sc d a b k => Sys2Proof.Machine.execVins sc d a b k s
  | .vext sc d a b k => Sys2Proof.Machine.execVext sc d a b k s
  | .vcvtLo sc d a t k => Sys2Proof.Machine.execVcvtLo sc d a t k s
  | .vcvtHi sc d a t k => Sys2Proof.Machine.execVcvtHi sc d a t k s
  | .vquantE43 sc d a b k => Sys2Proof.Machine.execVquantE43 sc d a b k s
  | .vquantE52 sc d a b k => Sys2Proof.Machine.execVquantE52 sc d a b k s
  | .vquantS8 sc d a b k => Sys2Proof.Machine.execVquantS8 sc d a b k s
  | .vdeqE43 sc d a b k => Sys2Proof.Machine.execVdeqE43 sc d a b k s
  | .vdeqE52 sc d a b k => Sys2Proof.Machine.execVdeqE52 sc d a b k s
  | .vdeqS8 sc d a b k => Sys2Proof.Machine.execVdeqS8 sc d a b k s
  | .vamax sc h a k => Sys2Proof.Machine.execVamax sc h a k s
  | .scld sc d h t => Sys2Proof.Machine.execScld sc d h t s
  | .vrcp sc d a k => Sys2Proof.Machine.execVrcp sc d a k s
  | .vrsqrt sc d a k => Sys2Proof.Machine.execVrsqrt sc d a k s
  | .vexp2 sc d a k => Sys2Proof.Machine.execVexp2 sc d a k s
  | .vlog2 sc d a k => Sys2Proof.Machine.execVlog2 sc d a k s
  | .vsqrt sc d a k => Sys2Proof.Machine.execVsqrt sc d a k s
  | .vld sc d a k o => Sys2Proof.Machine.execVld sc d a k o s
  | .vst sc d a k o => Sys2Proof.Machine.execVst sc d a k o s
  | .vlds sc d a b k => Sys2Proof.Machine.execVlds sc d a b k s
  | .vsts sc d a b k => Sys2Proof.Machine.execVsts sc d a b k s
  | .vgath sc d a b k => Sys2Proof.Machine.execVgath sc d a b k s
  | .vscat sc d a b k => Sys2Proof.Machine.execVscat sc d a b k s
  | .vldb sc d a k => Sys2Proof.Machine.execVldb sc d a k s
  | .kand sc d a b => Sys2Proof.Machine.execKand sc d a b s
  | .kor sc d a b => Sys2Proof.Machine.execKor sc d a b s
  | .kxor sc d a b => Sys2Proof.Machine.execKxor sc d a b s
  | .kandn sc d a b => Sys2Proof.Machine.execKandn sc d a b s
  | .knot sc d a => Sys2Proof.Machine.execKnot sc d a s
  | .kpop sc d a => Sys2Proof.Machine.execKpop sc d a s
  | .kffs sc d a => Sys2Proof.Machine.execKffs sc d a s
  | .ksetn sc d a => Sys2Proof.Machine.execKsetn sc d a s
  | .kmovg sc d a => Sys2Proof.Machine.execKmovg sc d a s
  | .kmovk sc d a => Sys2Proof.Machine.execKmovk sc d a s
  | .vsett sc d a t => Sys2Proof.Machine.execVsett sc d a t s
  | .mmaBf sc n r q z => Sys2Proof.Machine.execMmaBf sc n r q z s
  | .mmaHf sc n r q z => Sys2Proof.Machine.execMmaHf sc n r q z s
  | .mmaE44 sc n r q f z => Sys2Proof.Machine.execMmaE44 sc n r q f z s
  | .mmaE45 sc n r q f z => Sys2Proof.Machine.execMmaE45 sc n r q f z s
  | .mmaE55 sc n r q f z => Sys2Proof.Machine.execMmaE55 sc n r q f z s
  | .mmaI8 sc n r q z => Sys2Proof.Machine.execMmaI8 sc n r q z s
  | .mmaNb sc n r q f z => Sys2Proof.Machine.execMmaNb sc n r q f z s
  | .mmaNe sc n r q f z => Sys2Proof.Machine.execMmaNe sc n r q f z s
  | .mlease sc => Sys2Proof.Machine.execMlease sc s
  | .mleaseB sc d => Sys2Proof.Machine.execMleaseB sc d s
  | .mrel sc => Sys2Proof.Machine.execMrel sc s
  | .mzero sc n => Sys2Proof.Machine.execMzero sc n s
  | .mdrain sc n a b => Sys2Proof.Machine.execMdrain sc n a b s
  | .maccget sc m n c => Sys2Proof.Machine.execMaccget sc m n c s
  | .maccput sc n m c => Sys2Proof.Machine.execMaccput sc n m c s
  | .rpop sc r => Sys2Proof.Machine.execRpop sc r s
  | .rstat sc d r => Sys2Proof.Machine.execRstat sc d r s
  | .mrowset sc m a b => Sys2Proof.Machine.execMrowset sc m a b s
  | .mrowget sc d m b => Sys2Proof.Machine.execMrowget sc d m b s
  | .mcolset sc m a b => Sys2Proof.Machine.execMcolset sc m a b s
  | .mcolget sc d m b => Sys2Proof.Machine.execMcolget sc d m b s
  | .mldm sc m a => Sys2Proof.Machine.execMldm sc m a s
  | .mstm sc m a => Sys2Proof.Machine.execMstm sc m a s
  | .reservedEncoding w => Sys2Proof.Machine.execReservedEncoding w s
  | .panelReset verified failing => Sys2Proof.Machine.execPanelReset verified failing s
  | .mwbell slot => Sys2Proof.Machine.execMwbell slot s
  | .bar2Access off len data => Sys2Proof.Machine.execBar2Access off len data s
  | .nonceWrite nonce => Sys2Proof.Machine.execNonceWrite nonce s
  | .launch => Sys2Proof.Machine.execLaunch s
  | .launchInject launch die => Sys2Proof.Machine.execLaunchInject launch die s
  | .cancelMessage => Sys2Proof.Machine.execCancelMessage s
  | .mgmtAssignCounter => Sys2Proof.Machine.execMgmtAssignCounter s
  | .mgmtFreeCounter => Sys2Proof.Machine.execMgmtFreeCounter s
  | .mgmtExtentUnmapped => Sys2Proof.Machine.execMgmtExtentUnmapped s
  | .mgmtUnmarkExecutable => Sys2Proof.Machine.execMgmtUnmarkExecutable s
  | .mgmtDefineTenant => Sys2Proof.Machine.execMgmtDefineTenant s
  | .mgmtRemoveTenant => Sys2Proof.Machine.execMgmtRemoveTenant s
  | .routeset die => Sys2Proof.Machine.execRouteset die s
  | .timerset die => Sys2Proof.Machine.execTimerset die s
  | .timerDeadline hart => Sys2Proof.Machine.execTimerDeadline hart s
  | .parkctlRegister die => Sys2Proof.Machine.execParkctlRegister die s
  | .parkctlResume die => Sys2Proof.Machine.execParkctlResume die s
  | .parkctlDiscard die => Sys2Proof.Machine.execParkctlDiscard die s
  | .faultRecord die => Sys2Proof.Machine.execFaultRecord die s
  | .cxlExtentOffer port index base length => Sys2Proof.Machine.execCxlExtentOffer port index base length s
  | .cxlExtentReleaseRequest port index => Sys2Proof.Machine.execCxlExtentReleaseRequest port index s
  | .imageLoad image => Sys2Proof.Machine.execImageLoad image s
  | .panelHalt => Sys2Proof.Machine.execPanelHalt s
  | .panelResume => Sys2Proof.Machine.execPanelResume s
  | .dispatch hart => Sys2Proof.Machine.execDispatch hart s
  | .messageArrival packet => Sys2Proof.Machine.execMessageArrival packet s
  | .bounceReturn packet => Sys2Proof.Machine.execBounceReturn packet s
  | .sendRetry hart entry => Sys2Proof.Machine.execSendRetry hart entry s
  | .sendAcceptance packet => Sys2Proof.Machine.execSendAcceptance packet s
  | .spawnAnswer packet => Sys2Proof.Machine.execSpawnAnswer packet s
  | .counterUpdate packet => Sys2Proof.Machine.execCounterUpdate packet s
  | .counterUpdateAck packet => Sys2Proof.Machine.execCounterUpdateAck packet s
  | .loadLevel vt => Sys2Proof.Machine.execLoadLevel vt s
  | .accDeliveryArrival packet => Sys2Proof.Machine.execAccDeliveryArrival packet s
  | .accApply unit => Sys2Proof.Machine.execAccApply unit s
  | .accBounce packet => Sys2Proof.Machine.execAccBounce packet s
  | .accOutcome packet => Sys2Proof.Machine.execAccOutcome packet s
  | .quotaWindow vt => Sys2Proof.Machine.execQuotaWindow vt s
  | .switchAddend packet => Sys2Proof.Machine.execSwitchAddend packet s
  | .switchDeliver buffer => Sys2Proof.Machine.execSwitchDeliver buffer s
  | .switchResend buffer => Sys2Proof.Machine.execSwitchResend buffer s
  | .cardAdmit vt => Sys2Proof.Machine.execCardAdmit vt s
  | .cardStart vt card => Sys2Proof.Machine.execCardStart vt card s
  | .cardLineAccess vt card line => Sys2Proof.Machine.execCardLineAccess vt card line s
  | .cardComplete vt card => Sys2Proof.Machine.execCardComplete vt card s
  | .ringfeedEntry vt card => Sys2Proof.Machine.execRingfeedEntry vt card s
  | .mreqLineLand vt mreq line => Sys2Proof.Machine.execMreqLineLand vt mreq line s
  | .mmaStart vt => Sys2Proof.Machine.execMmaStart vt s
  | .mmaRetire vt => Sys2Proof.Machine.execMmaRetire vt s
  | .screenVerdict vt => Sys2Proof.Machine.execScreenVerdict vt s
  | .arrayCommandStart vt => Sys2Proof.Machine.execArrayCommandStart vt s
  | .arrayCommandRetire vt => Sys2Proof.Machine.execArrayCommandRetire vt s
  | .ringCommandTurn vt hart => Sys2Proof.Machine.execRingCommandTurn vt hart s
  | .mdrainCopy vt => Sys2Proof.Machine.execMdrainCopy vt s
  | .mdrainRowWrite vt drain row => Sys2Proof.Machine.execMdrainRowWrite vt drain row s
  | .mdrainWake vt drain => Sys2Proof.Machine.execMdrainWake vt drain s
  | .slotBoundary vt => Sys2Proof.Machine.execSlotBoundary vt s
  | .leaseGrant vt => Sys2Proof.Machine.execLeaseGrant vt s
  | .feLoadRetry hart access part => Sys2Proof.Machine.execFeLoadRetry hart access part s
  | .feTimeout hart access => Sys2Proof.Machine.execFeTimeout hart access s
  | .sramScrub vt offset => Sys2Proof.Machine.execSramScrub vt offset s
  | .homeLineRequest hart access part => Sys2Proof.Machine.execHomeLineRequest hart access part s
  | .accessAnswer hart access => Sys2Proof.Machine.execAccessAnswer hart access s
  | .hbmBatchForm die channel => Sys2Proof.Machine.execHbmBatchForm die channel s
  | .refreshManagement die channel bank row => Sys2Proof.Machine.execRefreshManagement die channel bank row s
  | .patrolRead die channel finding => Sys2Proof.Machine.execPatrolRead die channel finding s
  | .pageWalk hart va kind => Sys2Proof.Machine.execPageWalk hart va kind s
  | .barrierOpApply packet => Sys2Proof.Machine.execBarrierOpApply packet s
  | .watchRegister hart watch => Sys2Proof.Machine.execWatchRegister hart watch s
  | .watchEvict hart watch => Sys2Proof.Machine.execWatchEvict hart watch s
  | .lwaitTimeout hart => Sys2Proof.Machine.execLwaitTimeout hart s
  | .trapEntry hart => Sys2Proof.Machine.execTrapEntry hart s
  | .interruptEntry hart => Sys2Proof.Machine.execInterruptEntry hart s
  | .parkDump die => Sys2Proof.Machine.execParkDump die s
  | .ecallKService hart => Sys2Proof.Machine.execEcallKService hart s
  | .frameReload hart => Sys2Proof.Machine.execFrameReload hart s
  | .laneGroupGrant vt => Sys2Proof.Machine.execLaneGroupGrant vt s
  | .sfuEntryStart vt => Sys2Proof.Machine.execSfuEntryStart vt s
  | .sfuResult vt => Sys2Proof.Machine.execSfuResult vt s
  | .sfuReentry hart => Sys2Proof.Machine.execSfuReentry hart s
  | .rotationStart die => Sys2Proof.Machine.execRotationStart die s
  | .rotationDrain die => Sys2Proof.Machine.execRotationDrain die s
  | .rotationPause die => Sys2Proof.Machine.execRotationPause die s
  | .rotationAbandon die => Sys2Proof.Machine.execRotationAbandon die s
  | .selfTestEnd die pt pass => Sys2Proof.Machine.execSelfTestEnd die pt pass s
  | .tileWakeDone die pt => Sys2Proof.Machine.execTileWakeDone die pt s
  | .ckptInterval hart => Sys2Proof.Machine.execCkptInterval hart s
  | .logForcedCkpt vt => Sys2Proof.Machine.execLogForcedCkpt vt s
  | .moonForcedCkpt vt => Sys2Proof.Machine.execMoonForcedCkpt vt s
  | .ckptCommit vt => Sys2Proof.Machine.execCkptCommit vt s
  | .outOfTurnResend packet => Sys2Proof.Machine.execOutOfTurnResend packet s
  | .voidMarker packet => Sys2Proof.Machine.execVoidMarker packet s
  | .egressRelease vt => Sys2Proof.Machine.execEgressRelease vt s
  | .blockCheck hart => Sys2Proof.Machine.execBlockCheck hart s
  | .rollback vt => Sys2Proof.Machine.execRollback vt s
  | .replayResume vt => Sys2Proof.Machine.execReplayResume vt s
  | .replayLogEvent vt => Sys2Proof.Machine.execReplayLogEvent vt s
  | .ageStressTick die pt voltageBin temperatureBin => Sys2Proof.Machine.execAgeStressTick die pt voltageBin temperatureBin s
  | .regulatorPhaseFail die group => Sys2Proof.Machine.execRegulatorPhaseFail die group s
  | .flashRewrite => Sys2Proof.Machine.execFlashRewrite s
  | .budgetTick otherWatts p16 => Sys2Proof.Machine.execBudgetTick otherWatts p16 s
  | .equotaRenew hart => Sys2Proof.Machine.execEquotaRenew hart s
  | .droopTrip vt => Sys2Proof.Machine.execDroopTrip vt s
  | .droopStretchEnd vt => Sys2Proof.Machine.execDroopStretchEnd vt s
  | .droopHalveEnd vt => Sys2Proof.Machine.execDroopHalveEnd vt s
  | .shelfFrame bytes => Sys2Proof.Machine.execShelfFrame bytes s
  | .shedLimitUpdate die => Sys2Proof.Machine.execShedLimitUpdate die s
  | .shedHoldTimeout hart => Sys2Proof.Machine.execShedHoldTimeout hart s
  | .shedRestore die => Sys2Proof.Machine.execShedRestore die s
  | .shelfFallback => Sys2Proof.Machine.execShelfFallback s
  | .clockLoss die pt => Sys2Proof.Machine.execClockLoss die pt s
  | .hubFailover die => Sys2Proof.Machine.execHubFailover die s
  | .reroot die => Sys2Proof.Machine.execReroot die s
  | .rootFailover => Sys2Proof.Machine.execRootFailover s
  | .clockLock die pt => Sys2Proof.Machine.execClockLock die pt s
  | .linkCrcRetry link good => Sys2Proof.Machine.execLinkCrcRetry link good s
  | .samplePulse die => Sys2Proof.Machine.execSamplePulse die s
  | .dbgctlResume hart => Sys2Proof.Machine.execDbgctlResume hart s
  | .dbgctlHaltreq hart => Sys2Proof.Machine.execDbgctlHaltreq hart s
  | .csrWrite hart csr value => Sys2Proof.Machine.execCsrWrite hart csr value s
  | .mshapeWrite hart value => Sys2Proof.Machine.execMshapeWrite hart value s
  | .slottabWrite hart value => Sys2Proof.Machine.execSlottabWrite hart value s
  | .leasenWrite hart value => Sys2Proof.Machine.execLeasenWrite hart value s
  | .msaveClaim hart value => Sys2Proof.Machine.execMsaveClaim hart value s
  | .msaveInval hart value => Sys2Proof.Machine.execMsaveInval hart value s
  | .ringcfgWrite hart ring value => Sys2Proof.Machine.execRingcfgWrite hart ring value s
  | .hrdataWrite hart value => Sys2Proof.Machine.execHrdataWrite hart value s
  | .fetchdutyWrite hart value => Sys2Proof.Machine.execFetchdutyWrite hart value s
  | .tracectlWrite hart value => Sys2Proof.Machine.execTracectlWrite hart value s
  | .vmapRotate die => Sys2Proof.Machine.execVmapRotate die s
  | .vmapMarkRetire die => Sys2Proof.Machine.execVmapMarkRetire die s
  | .diaginjAccBit die pt hart row column bit => Sys2Proof.Machine.execDiaginjAccBit die pt hart row column bit s
  | .diaginjSramBit die pt offset bit => Sys2Proof.Machine.execDiaginjSramBit die pt offset bit s
  | .diaginjSignature die pt hart => Sys2Proof.Machine.execDiaginjSignature die pt hart s
  | .resultWritten hart => Sys2Proof.Machine.execResultWritten hart s

end Sys2Proof.Machine
end

