-- ==== Sys2Proof/Machine/Step.lean ====
section
/-! DEFINITION. One step of the panel: the next move of the agenda, and a state in which a given instruction is the
next one fetched. -/

namespace Sys2Proof.Machine

/-- The next move: the head of the agenda, or, when it names none, one that nothing constrains
(notes/assumptions/1.md). -/
def State.nextMove (s : State) : Move × State :=
  match s.agenda with
  | m :: ms => (m, { s with agenda := ms })
  | [] =>
    ({ dt := Config.nextTicks s.moves, prompt := Config.nextPrompt s.moves, what := Config.nextActor s.moves },
      { s with moves := s.moves + 1 })

/-- The move's time has passed; no hart issues yet. -/
def State.prepare (s : State) (m : Move) : State :=
  let s := s.advance m.dt
  { s with prompt := m.prompt, cur := noHart }

/-- The instruction that two fetched words stand for; a word that names none is a reserved encoding (R50, R51). -/
noncomputable def fetched (w w2 : Word32) : Instr :=
  match decode w w2 with
  | .ok i => i
  | .error _ => .reservedEncoding w

/-- A panel that is kept in reset leaves it only by a reset that verifies (R387). -/
def State.mayHappen (s : State) : Instr → Bool
  | .panelReset _ _ => true
  | _ => s.inReset.isNone

/-- One step: an event of another agent, or a hart's turn. -/
noncomputable def step (s : State) : Host.Outcome State Fault Refusal :=
  let (m, s) := s.nextMove
  let s := s.prepare m
  match m.what with
  | .event e => if s.mayHappen e then exec e s else .next s
  | .hart h =>
    match s.turn h with
    | .still s => .next s
    | .issue s w w2 =>
      match exec (fetched w w2) s with
      | .next s => .next (s.finish h)
      | r => r

/-- The state with an instruction in the slot of an inline-code task (R235) that hart 0 of VT 0 runs next
(notes/assumptions/2.md): `nbits` bits `w` as the opcode table numbers them, the second word in bits 63..32. -/
def State.withFetchWord (s : State) (nbits w : Nat) : State :=
  let code := BitVec.ofNat 64 (w % 2 ^ nbits)
  let msg : Msg := { header := BitVec.ofNat 64 (2 ^ 48 + 0xFF), payload := [code] }
  let x := s.hart 0
  { s.setHart 0 { x with
      mode := .user, pc := BitVec.ofNat 64 slotPc, parked := none, halted := none, shedHold := false, barred := false
      nextIssue := 0, pendTraps := [], lwaitSince := none, fixed := [], board := [], flights := [], withdrawnSfu := []
      csr := { x.csr with kip := 0, fetchduty := 16, dbgctl := 0, bp := Vector.replicate 4 0 }
      task := some { chan := 2, inlineWords := some 2 }
      chans := x.chans.set 2 [{ msg := msg, running := true, moved := none }] } with
    inReset := none, agenda := [{ dt := 0, prompt := true, what := .hart 0 }] }

end Sys2Proof.Machine
end

