-- ==== Sys2Proof/Safety.lean ====
section
/-! DEFINITION. The terms that claims are stated in: what a hart's registers hold once the results in flight have come, when
an instruction can issue, and what it leaves as it was. -/

namespace Sys2Proof.Machine

/-- The registers once every result in flight has been written (R25, R26, R28). -/
def Hart.settledRegs (x : Hart) : Regs := x.board.foldl (fun r b => r.write b.dst b.val) x.drain.regs

def Hart.finalG (x : Hart) (a : BitVec 5) : Word := (x.settledRegs.read (.g a)).truncate 64
def Hart.finalF (x : Hart) (a : BitVec 5) : Word := (x.settledRegs.read (.f a)).truncate 64
def Hart.finalV (x : Hart) (a : BitVec 5) : VReg := x.settledRegs.read (.v a)
def Hart.finalK (x : Hart) (a : BitVec 3) : Word := (x.settledRegs.read (.k a)).truncate 64

/-- Every encoded distance is at least what R25 asks: no register that is read is in flight, and an older result of a
register that is written with latency `lat` comes before the new one (a scoreboarded result, latency 0, orders itself). -/
def Hart.distancesMet (x : Hart) (reads writes : List Reg) (lat : Nat) : Prop :=
  ∀ p ∈ x.fixed, p.dst ∉ reads ∧ (p.dst ∈ writes → lat = 0 ∨ 0 < p.left ∧ p.left < lat)

/-- An instruction of the current hart can issue (R25, R28, R52, R291): its mode may run it, the encoded distances are met, the
scoreboard holds none of its registers, and what reaches beyond the registers finds nothing outstanding. -/
def State.canIssue (s : State) (o : Op) : Prop :=
  o.low.rank ≤ s.self.mode.rank ∧ s.self.distancesMet o.reads o.writes o.latency
    ∧ s.mustWait s.cur (o.reads ++ o.writes) = false ∧ (o.reach = true → s.settled s.cur = true)

/-- An operation of registers only, as issue sees it. -/
def regOp (reads writes : List Reg) (latency : Nat) : Op := { sc := 0, reads := reads, writes := writes, latency := latency }

/-- An operation whose effect reaches beyond the g, f, v and k registers, the PC and the SFU queue (R291). -/
def reachOp (reads writes : List Reg) (latency : Nat) : Op :=
  { sc := 0, reads := reads, writes := writes, latency := latency, reach := true }

/-- Outside one hart and its tile the states agree, in memory byte for byte, but for fresh identifiers and the free values
used up; the tile is `k`, but for the checks that it has open (R321). -/
def State.hartAndTile (s t : State) (h : Nat) (k : Tile) : Prop :=
  t = { s with harts := t.harts, tiles := t.tiles, nextId := t.nextId, free := t.free }
    ∧ (∀ a, memByte t.mem a = memByte s.mem a)
    ∧ (∀ i, i ≠ h → t.hart i = s.hart i) ∧ (∀ v, v ≠ hartVt h → t.tile v = s.tile v)
    ∧ t.tile (hartVt h) = { k with unverified := (t.tile (hartVt h)).unverified }

/-- `t` is `s` after reads that serve lines, may rebuild words of SRAM that were in error, and open checks: no hart differs,
and every tile only in its open checks and in the errors of its SRAM (R98, R100, R143). -/
def State.afterReads (s t : State) : Prop :=
  t = { s with tiles := t.tiles, mem := t.mem, pts := t.pts, dies := t.dies, nextId := t.nextId, free := t.free }
    ∧ ∀ v, t.tile v = { s.tile v with
        unverified := (t.tile v).unverified, flips := (t.tile v).flips, failed := (t.tile v).failed }

/-- The state in which an instruction of the current hart acts: the checker has looked its PC up in the signature table where
it has to (R321); apart from the checker and what the reads of the table leave it is `s`. -/
def State.acting (s : State) : State := s.openBlock s.cur

/-- Outside one hart the states agree. -/
def State.onlyHart (s t : State) (h : Nat) : Prop := s.hartAndTile t h (s.tile (hartVt h))

/-- The current hart retires an instruction (R25, R37, R335): its registers, once results have come, its PC and its CSRs are
these, but that INSTRET counts the instruction and a U-mode one is charged; the next issues no earlier than SC + 1 cycles
on. Apart from what the checker keeps (R321) nothing else of the hart changes; its tile becomes `k`, and nothing outside
them changes from the state in which the instruction acts. -/
def State.retiresOn (s t : State) (k : Tile) (sc : BitVec 3) (pc : Word) (regs : Regs) (csr : Csrs) : Prop :=
  let x := s.self
  let y := t.hart s.cur
  y.settledRegs = regs ∧ y.pc = pc
    ∧ y.csr = { csr with
      instret := x.csr.instret + 1
      equotaUsed := if x.mode = .user then x.csr.equotaUsed + BitVec.ofNat 32 (Config.energyOfWord s.word)
        else x.csr.equotaUsed }
    ∧ y.nextIssue = s.cycle (hartVt s.cur) + sc.toNat + 1
    ∧ y = { x with
        regs := y.regs, fixed := y.fixed, board := y.board, pc := y.pc, nextIssue := y.nextIssue, seq := y.seq
        barred := y.barred, checker := y.checker, csr := y.csr }
    ∧ s.acting.hartAndTile t s.cur k

/-- The same where the tile stays as it was. -/
def State.retires (s t : State) (sc : BitVec 3) (pc : Word) (regs : Regs) (csr : Csrs) : Prop :=
  s.retiresOn t (s.acting.tile (hartVt s.cur)) sc pc regs csr

/-- One g register written (R30), the rest as it was. -/
def State.withG (s : State) (d : BitVec 5) (v : Word) : Regs := s.self.settledRegs.write (.g d) (v.zeroExtend 512)
def State.withF (s : State) (d : BitVec 5) (v : Word) : Regs := s.self.settledRegs.write (.f d) (v.zeroExtend 512)
def State.withV (s : State) (d : BitVec 5) (v : VReg) : Regs := s.self.settledRegs.write (.v d) v
def State.withK (s : State) (d : BitVec 3) (v : Word) : Regs := s.self.settledRegs.write (.k d) (v.zeroExtend 512)

/-- The instruction retires in order with these registers: the PC moves on by 4 and no CSR is written. -/
def State.writes (s : State) (r : Answer) (sc : BitVec 3) (regs : Regs) : Prop :=
  ∃ t, r = .next t ∧ s.retires t sc (s.self.pc + 4) regs s.self.csr

/-- The same, with floating-point flags raised (R68). -/
def State.writesFlags (s : State) (r : Answer) (sc : BitVec 3) (regs : Regs) (fl : Flags) : Prop :=
  ∃ t, r = .next t
    ∧ s.retires t sc (s.self.pc + 4) regs { s.self.csr with fflags := s.self.csr.fflags ||| fl }

/-- A lane group is bound to the current hart for its vector instruction (R166); a supervisor hart needs none
(notes/assumptions/15.md). -/
def State.hasLane (s : State) : Prop :=
  isSup s.cur = true ∨ (s.prompt = false ∧ (s.tile (hartVt s.cur)).laneGrants.contains s.cur = true)

/-- The tile once that grant is used; harts that are denied issue have left the contention (R166). -/
def State.laneTile (s : State) : Tile :=
  if isSup s.cur then s.acting.tile (hartVt s.cur)
  else
    let t := (s.acting.leaveLanes (hartVt s.cur)).tile (hartVt s.cur)
    { t with laneGrants := t.laneGrants.filter (· != s.cur) }

/-- A vector instruction retires in order with these registers, using its lane group. -/
def State.vecWrites (s : State) (r : Answer) (sc : BitVec 3) (regs : Regs) : Prop :=
  ∃ t, r = .next t ∧ s.retiresOn t s.laneTile sc (s.self.pc + 4) regs s.self.csr

/-- Lane `i` of a register whose elements are `w` bits wide (R32). -/
def lane (w : Nat) (v : VReg) (i : Nat) : Nat := v.toNat / 2 ^ (w * i) % 2 ^ w

/-- The lanes that a K field selects (R33). -/
def Hart.finalMask (x : Hart) (k : BitVec 3) : Word := if k = 0 then ~~~0#64 else x.finalK k

/-- `t` is `u`, the state that an instruction of the current hart leaves, with the instruction retired (R25, R37, R335): the
PC stands at `pc`, INSTRET counts it, a U-mode one is charged, the next issues no earlier than SC + 1 cycles on, and nothing
else changes but what the checker keeps (R321); registers as results come to them stay as `u` has them. -/
def State.retiresFrom (s u t : State) (sc : BitVec 3) (pc : Word) : Prop :=
  let x := u.hart s.cur
  let y := t.hart s.cur
  y.settledRegs = x.settledRegs ∧ y.pc = pc
    ∧ y.csr = { x.csr with
      instret := x.csr.instret + 1
      equotaUsed := if s.self.mode = .user then x.csr.equotaUsed + BitVec.ofNat 32 (Config.energyOfWord u.word)
        else x.csr.equotaUsed }
    ∧ y.nextIssue = u.cycle (hartVt s.cur) + sc.toNat + 1
    ∧ y = { x with
        regs := y.regs, fixed := y.fixed, pc := y.pc, nextIssue := y.nextIssue, seq := x.seq + 1, barred := y.barred
        checker := y.checker, csr := y.csr }
    ∧ u.onlyHart t s.cur

/-- The instruction of the current hart waits, having changed the state to `u`: it has not retired, and a sample shows that it
waits (R355). -/
def State.waits (s u : State) : Answer := .next (u.waiting s.cur)

/-- The instruction has the effect `u` and retires in order. -/
def State.does (s : State) (r : Answer) (sc : BitVec 3) (u : State) : Prop :=
  ∃ t, r = .next t ∧ s.retiresFrom u t sc ((u.hart s.cur).pc + 4)

/-- Where accesses of the current hart go, in their order, with the translations made (R105, R110-R112, R152); or the first
fault with its address, or none where a walk waits for its channel (R97). -/
def State.placesOf (s : State) (kind : AccessKind) (vas : List Word) : State × Except (Option Cause × Word) (List Place) :=
  s.acting.locateAll (s.acting.ctx s.cur) kind vas

/-- An access without a place, after walks that leave `u`: it traps, or it waits while a walk waits (R97, R112). -/
def State.placeless (s u : State) (r : Answer) (c : Option Cause) (tval : Word) : Prop :=
  match c with
  | some c => r = .next (u.raise s.cur c tval)
  | none => r = s.waits u

/-- The instruction has the effect `u`, and control goes to a target with a trace record (R26, R354). -/
def State.jumpsTo (s : State) (r : Answer) (sc : BitVec 3) (u : State) (target : Word) : Prop :=
  ∃ t, r = .next (t.trace s.cur 1 target) ∧ s.retiresFrom u t sc target ∧ (t.hart s.cur).fixed = []

/-- The instruction has the effect `u`, which has set mode and PC itself, and retires. -/
def State.leaves (s : State) (r : Answer) (sc : BitVec 3) (u : State) : Prop :=
  ∃ t, r = .next t ∧ s.retiresFrom u t sc (u.hart s.cur).pc

/-- No enabled watchpoint meets a byte that is touched (R350). -/
def State.unwatched (s : State) (reads writes : Bool) (elems : List (Word × List Bool)) : Prop :=
  ∀ e ∈ elems, s.self.watchBytes reads writes e.1 e.2 = none

/-- A read or atomic of the current hart leaves (R92, R291): the instruction retires, no byte of memory differs from `u`, in
which its translations are made, and one more access is outstanding, with what the registers held when it issued. -/
def State.begins (s : State) (r : Answer) (sc : BitVec 3) (u : State) (op : HomeOp) (dst : LoadDst) (acquire : Option Nat)
    (parts : List (Word × Nat × Nat × Place)) : Prop :=
  ∃ t id, r = .next t ∧ s.retiresFrom (u.start op dst acquire parts) t sc (s.self.pc + 4)
    ∧ (∀ a, memByte t.mem a = memByte u.mem a)
    ∧ (t.hart s.cur).flights = s.self.flights ++ [{
        id := id, op := op, dst := dst, seq := s.self.seq, since := none, acquire := acquire, word := s.word
        snap := s.self.snapshot
        parts := parts.map fun e =>
          { va := e.1, place := e.2.2.2, len := e.2.1, dst := e.2.2.1, status := .sent, seq := none
            released := (match op with | .amo _ _ _ _ => false | _ => true) || ownPlace s.cur e.2.2.2 } }]

/-- A load of elements (address, length, offset of their data): the first fault in their order traps with the address that
`report` gives of its own, otherwise the access leaves. -/
def State.loads (s : State) (r : Answer) (sc : BitVec 3) (op : HomeOp) (dst : LoadDst) (acquire : Option Nat)
    (elems : List (Word × Nat × Nat)) (report : Word → Word := id) : Prop :=
  s.unwatched true false (elems.map fun e => (e.1, dst.touched e.2.1)) →
    match s.placesOf .load (elems.map (·.1)) with
    | (u, .error (c, va)) => s.placeless u r c (report va)
    | (u, .ok ps) =>
      s.begins r sc u op dst acquire ((elems.zip ps).map fun e => (e.1.1, e.1.2.1, e.1.2.2, e.2))

/-- Writes of the current hart are posted (R92): the instruction retires, no byte of memory differs from `u`, and the writes
join the posted ones; one to another home first waits in the hold (R319). -/
def State.posts (s : State) (r : Answer) (sc : BitVec 3) (u : State) (l : List (Word × Place × PostOp)) : Prop :=
  ∃ t, ∃ ids : Nat → Nat, r = .next t ∧ s.retiresFrom (u.postWrites s.cur l) t sc (s.self.pc + 4)
    ∧ (∀ a, memByte t.mem a = memByte u.mem a)
    ∧ (t.hart s.cur).posted = s.self.posted ++ l.zipIdx.map fun e =>
        { id := ids e.2, va := e.1.1, place := e.1.2.1, op := e.1.2.2, released := ownPlace s.cur e.1.2.1, seq := none
          made := (u.hart s.cur).seq }

/-- A store of elements (address and bytes, with holes where a mask leaves memory alone); a fault as in a load. -/
def State.stores (s : State) (r : Answer) (sc : BitVec 3) (elems : List (Word × List (Option Byte)))
    (report : Word → Word := id) : Prop :=
  s.unwatched false true (elems.map fun e => (e.1, e.2.map (·.isSome))) →
    match s.placesOf .store (elems.map (·.1)) with
    | (u, .error (c, va)) => s.placeless u r c (report va)
    | (u, .ok ps) =>
      if s.roomFor s.cur ps then s.posts r sc u ((elems.zip ps).map fun e => (e.1.1, e.2, .store e.1.2))
      else r = s.waits s.acting

/-- A matrix command of a tile hart that acts in `u` (R191, R197): with the lease HELD and a place in the array queue it is
counted and enters; without a lease it traps; otherwise it waits. -/
def State.commandsFrom (s u : State) (r : Answer) (sc : BitVec 3) (enter : State → State) : Prop :=
  let k := u.keepSlot (hartVt s.cur)
  if k.self.leaseEnding then r = s.waits k
  else if k.self.lease = .none then r = .next (s.acting.raise s.cur .leaseFault 0)
  else if k.self.lease = .held ∧ k.arrayPlace s.cur then s.does r sc (enter (k.countLease s.cur))
  else r = s.waits k

/-- The same of a command that has changed nothing before. -/
def State.commands (s : State) (r : Answer) (sc : BitVec 3) (enter : State → State) : Prop := s.commandsFrom s.acting r sc enter

end Sys2Proof.Machine
end

