-- ==== Sys2Proof/Certificates/Slice0/Obligations.lean ====
section
/-! DEFINITION. The statements for the provers. -/

open Sys2Proof Sys2Proof.Machine

/-! ### Scalar integer instructions -/

/-- R144: every member of INT that can issue (R25, R28, R52) retires with the table's value in g[D], and writes nothing else.
R145: every member of INTW works on the low 32 bits and sign-extends its 32-bit result. The words of both
groups are format A with OP 0x01 and 0x02. -/
def Obligations.IntAndIntwGroupsWriteTheirTables : Prop :=
  (
    ∀ (sc : BitVec 3) (d a b : BitVec 5) (h : BitVec 2) (s : State),
      let x := s.self.finalG a
      let y := s.self.finalG b
      let n := y.toNat % 64
      (s.canIssue (regOp [.g a, .g b] [.g d] 1) →
        ∀ r ∈ ([(.add sc d a b, x + y), (.sub sc d a b, x - y), (.and sc d a b, x &&& y), (.or sc d a b, x ||| y)
          , (.xor sc d a b, x ^^^ y), (.andn sc d a b, x &&& ~~~y), (.orn sc d a b, x ||| ~~~y)
          , (.sll sc d a b, x <<< n), (.srl sc d a b, x >>> n), (.sra sc d a b, x.sshiftRight n)
          , (.rol sc d a b, x.rotateLeft n), (.ror sc d a b, x.rotateRight n)
          , (.slt sc d a b, if x.toInt < y.toInt then 1 else 0), (.sltu sc d a b, if x.toNat < y.toNat then 1 else 0)
          , (.seq sc d a b, if x = y then 1 else 0), (.sne sc d a b, if x = y then 0 else 1)
          , (.min sc d a b, if x.toInt ≤ y.toInt then x else y), (.max sc d a b, if y.toInt ≤ x.toInt then x else y)
          , (.minu sc d a b, if x.toNat ≤ y.toNat then x else y), (.maxu sc d a b, if y.toNat ≤ x.toNat then x else y)
          , (.addsh sc d a b h, (x <<< (h.toNat + 1)) + y)] : List (Instr × Word)),
          s.writes (exec r.1 s) sc (s.withG d r.2))
      ∧ (s.canIssue (regOp [.g a] [.g d] 1) →
        (∃ r : Word, s.writes (exec (.clz sc d a) s) sc (s.withG d r)
          ∧ (x = 0 → r = 64) ∧ ∀ k, k < 64 → x.toNat / 2 ^ k = 1 → r = BitVec.ofNat 64 (63 - k))
        ∧ (∃ r : Word, s.writes (exec (.ctz sc d a) s) sc (s.withG d r)
          ∧ (x = 0 → r = 64) ∧ ∀ k, k < 64 → x.toNat % 2 ^ (k + 1) = 2 ^ k → r = BitVec.ofNat 64 k)
        ∧ s.writes (exec (.popc sc d a) s) sc
            (s.withG d (BitVec.ofNat 64 ((List.range 64).countP fun i => x.getLsbD i)))
        ∧ (∃ r : Word, s.writes (exec (.brev sc d a) s) sc (s.withG d r) ∧ ∀ i, i < 64 → r.getLsbD i = x.getLsbD (63 - i))
        ∧ s.writes (exec (.sextb sc d a) s) sc (s.withG d ((x.truncate 8 : BitVec 8).signExtend 64))
        ∧ s.writes (exec (.sexth sc d a) s) sc (s.withG d ((x.truncate 16 : BitVec 16).signExtend 64))
        ∧ s.writes (exec (.sextw sc d a) s) sc (s.withG d ((x.truncate 32 : BitVec 32).signExtend 64))
        ∧ s.writes (exec (.zextw sc d a) s) sc (s.withG d ((x.truncate 32 : BitVec 32).zeroExtend 64)))
  )
  ∧ (
    ∀ (sc : BitVec 3) (d a b : BitVec 5) (s : State),
      let x : BitVec 32 := (s.self.finalG a).truncate 32
      let y : BitVec 32 := (s.self.finalG b).truncate 32
      let n := y.toNat % 32
      s.canIssue (regOp [.g a, .g b] [.g d] 1) →
        ∀ r ∈ ([(.addw sc d a b, x + y), (.subw sc d a b, x - y), (.sllw sc d a b, x <<< n), (.srlw sc d a b, x >>> n)
          , (.sraw sc d a b, x.sshiftRight n), (.rolw sc d a b, x.rotateLeft n), (.rorw sc d a b, x.rotateRight n)]
            : List (Instr × BitVec 32)),
          s.writes (exec r.1 s) sc (s.withG d (r.2.signExtend 64))
  )
  ∧ (
    ∀ (sc : BitVec 3) (d a b : BitVec 5) (h : BitVec 2),
      (∀ r ∈ ([(.add sc d a b, 0x00), (.sub sc d a b, 0x01), (.and sc d a b, 0x02), (.or sc d a b, 0x03), (.xor sc d a b, 0x04)
          , (.andn sc d a b, 0x05), (.orn sc d a b, 0x06), (.sll sc d a b, 0x08), (.srl sc d a b, 0x09), (.sra sc d a b, 0x0A)
          , (.rol sc d a b, 0x0B), (.ror sc d a b, 0x0C), (.slt sc d a b, 0x10), (.sltu sc d a b, 0x11), (.seq sc d a b, 0x12)
          , (.sne sc d a b, 0x13), (.min sc d a b, 0x14), (.max sc d a b, 0x15), (.minu sc d a b, 0x16), (.maxu sc d a b, 0x17)
          , (.addsh sc d a b h, 0x20 + h.zeroExtend 7)] : List (Instr × BitVec 7)),
        encode r.1 = sc ++ 0x01#7 ++ (d ++ a ++ b ++ r.2))
      ∧ (∀ r ∈ ([(.clz sc d a, 0x18), (.ctz sc d a, 0x19), (.popc sc d a, 0x1A), (.brev sc d a, 0x1B), (.sextb sc d a, 0x1C)
          , (.sexth sc d a, 0x1D), (.sextw sc d a, 0x1E), (.zextw sc d a, 0x1F)] : List (Instr × BitVec 7)),
        encode r.1 = sc ++ 0x01#7 ++ (d ++ a ++ 0#5 ++ r.2))
      ∧ ∀ r ∈ ([(.addw sc d a b, 0x00), (.subw sc d a b, 0x01), (.sllw sc d a b, 0x08), (.srlw sc d a b, 0x09)
          , (.sraw sc d a b, 0x0A), (.rolw sc d a b, 0x0B), (.rorw sc d a b, 0x0C)] : List (Instr × BitVec 7)),
        encode r.1 = sc ++ 0x02#7 ++ (d ++ a ++ b ++ r.2)
  )

/-- R146: multiplies of 3 cycles give the named half of the exact product; scoreboarded divides give the quotient rounded
toward zero or the remainder of the dividend's sign; division by 0 and the one overflow saturate with remainder 0. -/
def Obligations.MulDivGroupResults : Prop :=
  ∀ (sc : BitVec 3) (d a b : BitVec 5) (s : State),
    let x := s.self.finalG a
    let y := s.self.finalG b
    let x32 : BitVec 32 := x.truncate 32
    let y32 : BitVec 32 := y.truncate 32
    let quot (lo hi n e : Int) : Int := if e = 0 then (if 0 ≤ n then hi else lo) else if hi < n.tdiv e then hi else n.tdiv e
    let rem (hi n e : Int) : Int := if e = 0 then 0 else if hi < n.tdiv e then 0 else n.tmod e
    (s.canIssue (regOp [.g a, .g b] [.g d] 3) →
      ∀ r ∈ ([(.mul sc d a b, x * y), (.mulhs sc d a b, BitVec.ofInt 64 (x.toInt * y.toInt / 2 ^ 64))
        , (.mulhz sc d a b, BitVec.ofNat 64 (x.toNat * y.toNat / 2 ^ 64))
        , (.mulhsz sc d a b, BitVec.ofInt 64 (x.toInt * (y.toNat : Int) / 2 ^ 64))
        , (.mulw sc d a b, (x32 * y32).signExtend 64)] : List (Instr × Word)),
        s.writes (exec r.1 s) sc (s.withG d r.2))
    ∧ (s.canIssue (regOp [.g a, .g b] [.g d] 0) →
      ∀ r ∈ ([(.div sc d a b, BitVec.ofInt 64 (quot (-2 ^ 63) (2 ^ 63 - 1) x.toInt y.toInt))
        , (.divu sc d a b, BitVec.ofInt 64 (quot 0 (2 ^ 64 - 1) x.toNat y.toNat))
        , (.rem sc d a b, BitVec.ofInt 64 (rem (2 ^ 63 - 1) x.toInt y.toInt))
        , (.remu sc d a b, BitVec.ofInt 64 (rem (2 ^ 64 - 1) x.toNat y.toNat))
        , (.divw sc d a b, (BitVec.ofInt 32 (quot (-2 ^ 31) (2 ^ 31 - 1) x32.toInt y32.toInt)).signExtend 64)
        , (.divuw sc d a b, (BitVec.ofInt 32 (quot 0 (2 ^ 32 - 1) x32.toNat y32.toNat)).signExtend 64)
        , (.remw sc d a b, (BitVec.ofInt 32 (rem (2 ^ 31 - 1) x32.toInt y32.toInt)).signExtend 64)
        , (.remuw sc d a b, (BitVec.ofInt 32 (rem (2 ^ 32 - 1) x32.toNat y32.toNat)).signExtend 64)]
          : List (Instr × Word)),
        s.writes (exec r.1 s) sc (s.withG d r.2))

/-- R147-R149, R49: the immediate forms, shifts by an immediate, LUI, AUIPC and the two-word LIW, with
their words; a W shift with bit 5 set is reserved. -/
def Obligations.ImmediateAndConstantForms : Prop :=
  ∀ (sc : BitVec 3) (d a : BitVec 5) (imm : BitVec 12) (h6 : BitVec 6) (h5 : BitVec 5) (u : BitVec 17) (w : BitVec 32)
    (s : State),
    let x := s.self.finalG a
    let x32 : BitVec 32 := x.truncate 32
    let i : Word := imm.signExtend 64
    (s.canIssue (regOp [.g a] [.g d] 1) →
      ∀ r ∈ ([(.addi sc d a imm, x + i), (.andi sc d a imm, x &&& i), (.ori sc d a imm, x ||| i), (.xori sc d a imm, x ^^^ i)
        , (.slti sc d a imm, if x.toInt < i.toInt then 1 else 0), (.sltiu sc d a imm, if x.toNat < i.toNat then 1 else 0)
        , (.addiw sc d a imm, (x32 + imm.signExtend 32).signExtend 64)
        , (.slli sc d a h6, x <<< h6.toNat), (.srli sc d a h6, x >>> h6.toNat), (.srai sc d a h6, x.sshiftRight h6.toNat)
        , (.rori sc d a h6, x.rotateRight h6.toNat), (.slliw sc d a h5, (x32 <<< h5.toNat).signExtend 64)
        , (.srliw sc d a h5, (x32 >>> h5.toNat).signExtend 64)
        , (.sraiw sc d a h5, (x32.sshiftRight h5.toNat).signExtend 64)
        , (.roriw sc d a h5, (x32.rotateRight h5.toNat).signExtend 64)] : List (Instr × Word)),
        s.writes (exec r.1 s) sc (s.withG d r.2))
    ∧ (s.canIssue (regOp [] [.g d] 1) →
      s.writes (exec (.lui sc d u) s) sc (s.withG d (u.signExtend 64 * 4096))
      ∧ s.writes (exec (.auipc sc d u) s) sc (s.withG d (s.self.pc + u.signExtend 64 * 4096))
      ∧ ∃ t, exec (.liw sc d w) s = .next t
        ∧ s.retires t sc (s.self.pc + 8) (s.withG d (w.signExtend 64)) s.self.csr)
    ∧ (∀ r ∈ ([(.addi sc d a imm, 0x04, imm), (.andi sc d a imm, 0x05, imm), (.ori sc d a imm, 0x06, imm)
        , (.xori sc d a imm, 0x07, imm), (.slti sc d a imm, 0x08, imm), (.sltiu sc d a imm, 0x09, imm)
        , (.addiw sc d a imm, 0x0B, imm), (.slli sc d a h6, 0x0A, 0#6 ++ h6), (.srli sc d a h6, 0x0A, 1#6 ++ h6)
        , (.srai sc d a h6, 0x0A, 2#6 ++ h6), (.rori sc d a h6, 0x0A, 3#6 ++ h6), (.slliw sc d a h5, 0x0A, 8#7 ++ h5)
        , (.srliw sc d a h5, 0x0A, 10#7 ++ h5), (.sraiw sc d a h5, 0x0A, 12#7 ++ h5), (.roriw sc d a h5, 0x0A, 14#7 ++ h5)]
          : List (Instr × BitVec 7 × BitVec 12)),
        encode r.1 = sc ++ r.2.1 ++ (d ++ a ++ r.2.2))
    ∧ encode (.lui sc d u) = sc ++ 0x0C#7 ++ (d ++ u) ∧ encode (.auipc sc d u) = sc ++ 0x0D#7 ++ (d ++ u)
    ∧ encode (.liw sc d w) = sc ++ 0x7F#7 ++ (d ++ 0#17) ∧ encodeSecond (.liw sc d w) = w
    ∧ ∀ (kind : BitVec 2) (w2 : Word32),
        ∃ e, decode (sc ++ 0x0A#7 ++ (d ++ a ++ 0#3 ++ 1#1 ++ kind ++ 1#1 ++ h5)) w2 = .error e

/-! ### Branches and jumps -/

/-- R150: a branch whose condition holds goes to PC + 4 * offset, having let the results in flight be written and left the trace
record of R354; one whose condition fails goes on. Format B with OP 0x10-0x15. -/
def Obligations.BranchesTakeTheirCondition : Prop :=
  ∀ (sc : BitVec 3) (a b : BitVec 5) (o : BitVec 12) (s : State),
    let x := s.self.finalG a
    let y := s.self.finalG b
    let target := s.self.pc + 4 * o.signExtend 64
    (∀ r ∈ ([(.beq sc a b o, 0x10), (.bne sc a b o, 0x11), (.blt sc a b o, 0x12), (.bge sc a b o, 0x13)
        , (.bltu sc a b o, 0x14), (.bgeu sc a b o, 0x15)] : List (Instr × BitVec 7)), encode r.1 = sc ++ r.2 ++ (a ++ b ++ o))
    ∧ (s.canIssue (regOp [.g a, .g b] [] 0) →
      ∀ r ∈ ([(.beq sc a b o, decide (x = y)), (.bne sc a b o, decide (x ≠ y)), (.blt sc a b o, decide (x.toInt < y.toInt))
        , (.bge sc a b o, decide (y.toInt ≤ x.toInt)), (.bltu sc a b o, decide (x.toNat < y.toNat))
        , (.bgeu sc a b o, decide (y.toNat ≤ x.toNat))] : List (Instr × Bool)),
        if r.2 then
          ∃ t, exec r.1 s = .next (t.trace s.cur 1 target) ∧ s.retires t sc target s.self.settledRegs s.self.csr
            ∧ (t.hart s.cur).fixed = []
        else s.writes (exec r.1 s) sc s.self.settledRegs)

/-- R151: JAL and JALR write the address of the next instruction to g[D] and go to their target, formed before the link is
written; JALR to an address that is no multiple of 4 traps MISALIGN with that address. -/
def Obligations.JumpsLinkAndGo : Prop :=
  ∀ (sc : BitVec 3) (d a : BitVec 5) (o : BitVec 17) (imm : BitVec 12) (s : State),
    let link := s.withG d (s.self.pc + 4)
    encode (.jal sc d o) = sc ++ 0x16#7 ++ (d ++ o) ∧ encode (.jalr sc d a imm) = sc ++ 0x17#7 ++ (d ++ a ++ imm)
    ∧ (s.canIssue (regOp [] [.g d] 1) →
      ∃ t, exec (.jal sc d o) s = .next (t.trace s.cur 1 (s.self.pc + 4 * o.signExtend 64))
        ∧ s.retires t sc (s.self.pc + 4 * o.signExtend 64) link s.self.csr ∧ (t.hart s.cur).fixed = [])
    ∧ (s.canIssue (regOp [.g a] [.g d] 1) →
      let target := s.self.finalG a + imm.signExtend 64
      if target.toNat % 4 = 0 then
        ∃ t, exec (.jalr sc d a imm) s = .next (t.trace s.cur 1 target)
          ∧ s.retires t sc target link s.self.csr ∧ (t.hart s.cur).fixed = []
      else exec (.jalr sc d a imm) s = .next (s.acting.raise s.cur .misalign target))

/-! ### Scalar floating point -/

/-- R156, R157, R160: FADD, FSUB, FMUL and the FMA family of latency 4 write the exact result rounded once by FRM, boxed, and
raise its flags.
R73, R156, R157, R159: the scoreboarded members of FP: quotient, root, minimum and maximum, comparisons, sign injections,
classes and moves. -/
def Obligations.FloatGroupResults : Prop :=
  (
    ∀ (sc : BitVec 3) (d a b c : BitVec 5) (p : BitVec 1) (s : State),
      let ins (m : Fmt) := (m.unbox (s.self.finalF a), m.unbox (s.self.finalF b), m.unbox (s.self.finalF c))
      let m := fmtOf p
      (s.canIssue (reachOp [.f a, .f b] [.f d] 4) →
        ∀ r ∈ ([(.fadd sc d a b p, m.add s.rm (ins m).1 (ins m).2.1), (.fsub sc d a b p, m.sub s.rm (ins m).1 (ins m).2.1)
          , (.fmul sc d a b p, m.mul s.rm (ins m).1 (ins m).2.1)] : List (Instr × (Nat × Flags))),
          s.writesFlags (exec r.1 s) sc (s.withF d (m.box r.2.1)) r.2.2)
      ∧ (s.canIssue (reachOp [.f a, .f b, .f c] [.f d] 4) →
        ∀ r ∈ ([(.fmaS sc d a b c, f32, false, false), (.fmsS sc d a b c, f32, false, true)
          , (.fnmaS sc d a b c, f32, true, true), (.fnmsS sc d a b c, f32, true, false)
          , (.fmaD sc d a b c, f64, false, false), (.fmsD sc d a b c, f64, false, true)
          , (.fnmaD sc d a b c, f64, true, true), (.fnmsD sc d a b c, f64, true, false)] : List (Instr × Fmt × Bool × Bool)),
          let m := r.2.1
          let v := m.fma s.rm r.2.2.1 r.2.2.2 (ins m).1 (ins m).2.1 (ins m).2.2
          s.writesFlags (exec r.1 s) sc (s.withF d (m.box v.1)) v.2)
  )
  ∧ (
    ∀ (sc : BitVec 3) (d a b : BitVec 5) (p : BitVec 1) (s : State),
      let m := fmtOf p
      let x := m.unbox (s.self.finalF a)
      let y := m.unbox (s.self.finalF b)
      let u := m.value x
      let w := m.value y
      let inject (neg : Bool) : Word := m.box (x % m.sign + if neg then m.sign else 0)
      (s.canIssue (reachOp [.f a, .f b] [.f d] 0) →
        ∀ r ∈ ([(.fdiv sc d a b p, m.div s.rm x y), (.fmin sc d a b p, m.minMax false x y, sigFlags [u, w])
          , (.fmax sc d a b p, m.minMax true x y, sigFlags [u, w])] : List (Instr × (Nat × Flags))),
          s.writesFlags (exec r.1 s) sc (s.withF d (m.box r.2.1)) r.2.2)
      ∧ (s.canIssue (reachOp [.f a] [.f d] 0) →
        s.writesFlags (exec (.fsqrt sc d a p) s) sc (s.withF d (m.box (m.sqrt s.rm x).1)) (m.sqrt s.rm x).2)
      ∧ (s.canIssue (reachOp [.f a, .f b] [.g d] 0) →
        ∀ r ∈ ([(.feq sc d a b p, u.eq w, u.signals || w.signals), (.flt sc d a b p, u.lt w, u.isNan || w.isNan)
          , (.fle sc d a b p, u.le w, u.isNan || w.isNan)] : List (Instr × Bool × Bool)),
          s.writesFlags (exec r.1 s) sc (s.withG d (if r.2.1 then 1 else 0)) (if r.2.2 then flInvalid else 0))
      ∧ (s.canIssue (regOp [.f a, .f b] [.f d] 0) →
        ∀ r ∈ ([(.fsgncpy sc d a b p, decide (m.sign ≤ y)), (.fsgnneg sc d a b p, decide (y < m.sign))
          , (.fsgnxor sc d a b p, decide (m.sign ≤ x) != decide (m.sign ≤ y))] : List (Instr × Bool)),
          s.writes (exec r.1 s) sc (s.withF d (inject r.2)))
      ∧ (s.canIssue (regOp [.f a] [.g d] 0) →
        s.writes (exec (.fclass sc d a p) s) sc (s.withG d (BitVec.ofNat 64 ((if m.sign ≤ x then 0x80 else 0)
          + match u with
            | .nan signalling => if signalling then 6 else 5
            | .inf _ => 4
            | .fin _ k _ => if k = 0 then 1 else if k < 2 ^ m.fbits then 2 else 3)))
        ∧ s.writes (exec (.fmvg sc d a p) s) sc (s.withG d
          (if p = 1 then s.self.finalF a else ((s.self.finalF a).truncate 32 : BitVec 32).signExtend 64)))
      ∧ (s.canIssue (regOp [.g a] [.f d] 0) →
        s.writes (exec (.fmvf sc d a p) s) sc (s.withF d
          (if p = 1 then s.self.finalG a else 0xFFFFFFFF#32 ++ ((s.self.finalG a).truncate 32 : BitVec 32))))
  )

/-- R44, R158: FCVT between float formats, from integers and to integers. -/
def Obligations.FloatConversions : Prop :=
  ∀ (sc : BitVec 3) (d a c : BitVec 5) (s : State),
    (∀ src dst, cvtForm c.toNat = some (.float src dst) → s.canIssue (reachOp [.f a] [.f d] 0) →
      let r := convertFp src dst s.rm (src.unbox (s.self.finalF a))
      s.writesFlags (exec (.fcvt sc d a c) s) sc (s.withF d (dst.box r.1)) r.2)
    ∧ (∀ signed wide dst, cvtForm c.toNat = some (.fromInt signed wide dst) → s.canIssue (reachOp [.g a] [.f d] 0) →
      let n : Int := match signed, wide with
        | true, true => (s.self.finalG a).toInt
        | false, true => (s.self.finalG a).toNat
        | true, false => ((s.self.finalG a).truncate 32 : BitVec 32).toInt
        | false, false => ((s.self.finalG a).truncate 32 : BitVec 32).toNat
      let r := dst.round s.rm (Fp.ofInt n)
      s.writesFlags (exec (.fcvt sc d a c) s) sc (s.withF d (dst.box r.1)) r.2)
    ∧ (∀ src signed wide, cvtForm c.toNat = some (.toInt src signed wide) → s.canIssue (reachOp [.f a] [.g d] 0) →
      let range := intRange signed (if wide then 64 else 32)
      let r := (src.value (src.unbox (s.self.finalF a))).toInt s.rm range.1 range.2
      s.writesFlags (exec (.fcvt sc d a c) s) sc (s.withG d (match signed, wide with
        | _, true => BitVec.ofInt 64 r.1
        | true, false => (BitVec.ofInt 32 r.1).signExtend 64
        | false, false => (BitVec.ofInt 32 r.1).zeroExtend 64)) r.2)

/-- R65: a magnitude q + r / 2^n, 0 < r < 2^n, rounds to q or q + 1: to nearest with ties to even or away from zero, toward
zero, down or up by its sign; an exact one stays. -/
def Obligations.RoundingModesChooseTheirNeighbour : Prop :=
  ∀ (neg : Bool) (q r n : Nat), r < 2 ^ n →
    (∀ rm, roundUp rm neg q 0 n = q)
    ∧ (0 < r →
      roundUp .rtz neg q r n = q
      ∧ roundUp .rdn neg q r n = (if neg then q + 1 else q)
      ∧ roundUp .rup neg q r n = (if neg then q else q + 1)
      ∧ roundUp .rmm neg q r n = (if 2 * r < 2 ^ n then q else q + 1)
      ∧ roundUp .rne neg q r n = (if 2 * r < 2 ^ n then q else if 2 ^ n < 2 * r then q + 1 else q + q % 2))

/-! ### Vector instructions -/

/-- R171: each member of VARITH and VUNARY computes lane i from lanes i of its operands under the element type, in the lanes its
mask selects; the other lanes of vD keep their value (R33). A result that would be an infinity of e5m2 is the largest finite
value (the model's reading, notes/assumptions/71.md), and a supervisor hart needs no lane group (the model's choice,
notes/assumptions/15.md).
R168, R171: an integer-only member under a float type, and any arithmetic member under nq4, raises ILLEGAL with its word. -/
def Obligations.VectorLanesFollowTheirRule : Prop :=
  (
    ∀ (sc : BitVec 3) (d a b : BitVec 5) (k : BitVec 3) (s : State),
      let t := s.vtype
      let w := elemWidth t
      let int (f : Int → Int → Int → Int) (float : Fmt → Nat → Nat → Nat → Nat) (x y z : Nat) : Nat :=
        match elemFmt t with
        | some m => float m x y z
        | none => wrapTo w (f (laneInt t x) (laneInt t y) (laneInt t z))
      let sat (n : Int) : Int := satInt (elemRange t) n
      let none3 (_ : Fmt) (_ _ _ : Nat) : Nat := 0
      let holds (legal : Prop) (reads : List (BitVec 5)) (l : List (Instr × (Nat → Nat → Nat → Nat))) : Prop :=
        s.canIssue (regOp ((reads.map .v) ++ .v d :: maskReg k) [.v d] 0) → s.hasLane → legal → ∀ r ∈ l,
          ∃ v, s.vecWrites (exec r.1 s) sc (s.withV d v) ∧ ∀ i, i < 512 / w →
            lane w v i = if (s.self.finalMask k).getLsbD i
              then r.2 (lane w (s.self.finalV a) i) (lane w (s.self.finalV b) i) (lane w (s.self.finalV d) i) % 2 ^ w
              else lane w (s.self.finalV d) i
      holds (elemTyped t = true) [a, b]
        [(.vadd sc d a b k, int (fun x y _ => x + y) fun m x y _ => (m.add s.rm x y).1)
          , (.vsub sc d a b k, int (fun x y _ => x - y) fun m x y _ => (m.sub s.rm x y).1)
          , (.vmul sc d a b k, int (fun x y _ => x * y) fun m x y _ => (m.mul s.rm x y).1)
          , (.vmin sc d a b k, int (fun x y _ => min x y) fun m x y _ => m.minMax false x y)
          , (.vmax sc d a b k, int (fun x y _ => max x y) fun m x y _ => m.minMax true x y)
          , (.vand sc d a b k, fun x y _ => x &&& y), (.vor sc d a b k, fun x y _ => x ||| y)
          , (.vxor sc d a b k, fun x y _ => x ^^^ y), (.vandn sc d a b k, fun x y _ => x &&& (y ^^^ (2 ^ w - 1)))
          , (.vmac sc d a b k, int (fun x y z => z + x * y) fun m x y z => (m.fma s.rm false false x y z).1)
          , (.vdiv sc d a b k, int (fun x y _ => (divRem (elemSigned t) w x y).1) fun m x y _ => (m.div s.rm x y).1)]
      ∧ holds (elemIsInt t = true) [a, b]
        [(.vmulh sc d a b k, int (fun x y _ => x * y / 2 ^ w) none3)
          , (.vsll sc d a b k, fun x y _ => x * 2 ^ (y % w)), (.vsrl sc d a b k, fun x y _ => x / 2 ^ (y % w))
          , (.vsra sc d a b k, fun x y _ => wrapTo w (signedOf w x / 2 ^ (y % w)))
          , (.vadds sc d a b k, int (fun x y _ => sat (x + y)) none3)
          , (.vsubs sc d a b k, int (fun x y _ => sat (x - y)) none3)]
      ∧ holds (elemTyped t = true) [a]
        [(.vabs sc d a k, int (fun x _ _ => sat x.natAbs) fun m x _ _ =>
              if (m.value x).isNan then m.nan else m.produced (x % m.sign))
          , (.vneg sc d a k, int (fun x _ _ => if elemSigned t then sat (-x) else -x) fun m x _ _ =>
              if (m.value x).isNan then m.nan
              else m.produced (if (m.value x).neg then x % m.sign else x % m.sign + m.sign))]
  )
  ∧ (
    ∀ (sc : BitVec 3) (d a b : BitVec 5) (k : BitVec 3) (s : State),
      s.canIssue (regOp (.v a :: .v b :: maskReg k) [.v d] 0) →
        (elemIsInt s.vtype = false →
          ∀ i ∈ ([.vmulh sc d a b k, .vsll sc d a b k, .vsrl sc d a b k, .vsra sc d a b k, .vadds sc d a b k
            , .vsubs sc d a b k] : List Instr), exec i s = .next (s.acting.raise s.cur .illegal (s.word.zeroExtend 64)))
        ∧ (elemTyped s.vtype = false →
          ∀ i ∈ ([.vadd sc d a b k, .vsub sc d a b k, .vmul sc d a b k, .vmin sc d a b k, .vmax sc d a b k, .vand sc d a b k
            , .vor sc d a b k, .vxor sc d a b k, .vandn sc d a b k, .vmac sc d a b k, .vdiv sc d a b k, .vabs sc d a k
            , .vneg sc d a k] : List Instr),
            exec i s = .next (s.acting.raise s.cur .illegal (s.word.zeroExtend 64)))
  )

/-- R172, R173, R176: selection, comparison into a mask, and the permutations, each under every type its rule allows. -/
def Obligations.VectorSelectCompareAndPermute : Prop :=
  ∀ (sc : BitVec 3) (d a b : BitVec 5) (kd k : BitVec 3) (c : BitVec 2) (s : State),
    let t := s.vtype
    let w := elemWidth t
    let n := 512 / w
    let x := s.self
    let A (i : Nat) : Nat := if i < n then lane w (x.finalV a) i else 0
    let on (i : Nat) : Bool := (x.finalMask k).getLsbD i
    let old (i : Nat) : Nat := lane w (x.finalV d) i
    let writesLanes (i : Instr) (f : Nat → Nat) : Prop :=
      ∃ v, s.vecWrites (exec i s) sc (s.withV d v) ∧ ∀ j, j < n → lane w v j = f j
    s.hasLane →
      (s.canIssue (regOp (.v a :: .v b :: maskReg k) [.v d] 0) →
        writesLanes (.vsel sc d a b k) fun i => if on i then A i else lane w (x.finalV b) i)
      ∧ (elemTyped t = true → s.canIssue (regOp (.v a :: .v b :: .k kd :: maskReg k) [.k kd] 0) →
        ∃ m, s.vecWrites (exec (.vcmp sc kd a b k c) s) sc (s.withK kd m) ∧ ∀ i, i < 64 →
          let u := laneFp t (A i)
          let v := laneFp t (lane w (x.finalV b) i)
          let holds := if c = 0 then u.eq v else if c = 1 then !u.eq v else if c = 2 then u.lt v else u.le v
          m.getLsbD i = (decide (i < n) && if on i then holds else (x.finalK kd).getLsbD i))
      ∧ (s.canIssue (regOp (.v a :: .v b :: .v d :: maskReg k) [.v d] 0) →
        writesLanes (.vperm sc d a b k) fun i => if on i then A (lane w (x.finalV b) i) else old i)
      ∧ (s.canIssue (regOp (.v a :: .g b :: .v d :: maskReg k) [.v d] 0) →
        (writesLanes (.vslideup sc d a b k) fun i =>
          if on i ∧ (x.finalG b).toNat ≤ i then A (i - (x.finalG b).toNat) else old i)
        ∧ writesLanes (.vslidedn sc d a b k) fun i => if on i then A (i + (x.finalG b).toNat) else old i)
      ∧ (s.canIssue (regOp (.g a :: .v d :: maskReg k) [.v d] 0) →
        writesLanes (.vbcast sc d a k) fun i => if on i then (x.finalG a).toNat % 2 ^ w else old i)
      ∧ (s.canIssue (regOp (.g a :: .g b :: .v d :: maskReg k) [.v d] 0) →
        writesLanes (.vins sc d a b k) fun i =>
          if on i ∧ i = (x.finalG b).toNat then (x.finalG a).toNat % 2 ^ w else old i)
      ∧ (s.canIssue (regOp (.v a :: .g b :: maskReg k) [.g d] 0) →
        let l := (x.finalG b).toNat
        let value : Word := if elemSigned t then BitVec.ofInt 64 (signedOf w (A l)) else BitVec.ofNat 64 (A l)
        s.vecWrites (exec (.vext sc d a b k) s) sc
          (if n ≤ l then s.withG d 0 else if on l then s.withG d value else x.settledRegs))

/-- R83-R85, R174, R175: a reduction leaves the root of the balanced tree in lane 0, or the identity where every lane is masked
off, and zeros above it; a scan runs from lane 0
up, restarts at the head flags of the segmented form, and leaves masked lanes as they were. -/
def Obligations.VectorReductionsAndScans : Prop :=
  ∀ (sc : BitVec 3) (d a : BitVec 5) (g : BitVec 1) (h k : BitVec 3) (s : State),
    let t := s.vtype
    let w := elemWidth t
    let x := s.self
    let xs := (List.range (512 / w)).map fun i => lane w (x.finalV a) i
    elemTyped t = true → s.hasLane →
      (s.canIssue (regOp (.v a :: maskReg k) [.v d] 0) →
        ∀ r ∈ ([(.vredAdd sc d a k, .add), (.vredMax sc d a k, .max), (.vredMin sc d a k, .min)] : List (Instr × RedOp)),
          ∃ v, s.vecWrites (exec r.1 s) sc (s.withV d v) ∧ v.toNat = (if ∃ i < 512 / w, (x.finalMask k).getLsbD i = true
            then treeRoot (r.2.combine t) (Nat.log2 (512 / w))
              (xs.zipIdx.map fun e => if (x.finalMask k).getLsbD e.2 then e.1 else r.2.identity t)
            else r.2.identity t) % 2 ^ w)
      ∧ (s.canIssue (regOp (.v a :: .v d :: .k h :: maskReg k) [.v d] 0) →
        ∀ r ∈ ([(.vscanAddI sc d a g h k, .add, true), (.vscanMaxI sc d a g h k, .max, true)
          , (.vscanMinI sc d a g h k, .min, true), (.vscanAddE sc d a g h k, .add, false)
          , (.vscanMaxE sc d a g h k, .max, false), (.vscanMinE sc d a g h k, .min, false)] : List (Instr × RedOp × Bool)),
          ∃ v, s.vecWrites (exec r.1 s) sc (s.withV d v) ∧ ∀ i, i < 512 / w → lane w v i
            = (scanFrom r.2.1 t r.2.2 (x.finalMask k) (if g = 1 then x.finalK h else 0) (r.2.1.identity t) 0
              (xs.zip ((List.range (512 / w)).map fun i => lane w (x.finalV d) i))).getD i 0 % 2 ^ w)

/-- R70-R72, R177, R178: VCVT converts the lanes that its half holds, the quantisers write the low byte lanes, and the
dequantisers read them. -/
def Obligations.VectorConversionsAndQuantisers : Prop :=
  ∀ (sc : BitVec 3) (d a b : BitVec 5) (dt : BitVec 4) (k : BitVec 3) (hi : Bool) (s : State),
    let t := s.vtype
    let u := dt.toNat
    let x := s.self
    let on (i : Nat) : Bool := (x.finalMask k).getLsbD i
    let scale := x.finalF b
    (s.canIssue (regOp (.v a :: .v d :: maskReg k) [.v d] 0) → s.hasLane → elemTyped t = true →
      (hi = true → elemWidth t ≠ elemWidth u) →
      ∃ v, s.vecWrites (exec (if hi then .vcvtHi sc d a dt k else .vcvtLo sc d a dt k) s) sc (s.withV d v)
        ∧ ∀ j, j < 512 / elemWidth u →
          let widens := elemWidth t < elemWidth u
          let first := if hi then (if widens then 512 / elemWidth u else 512 / elemWidth t) else 0
          let from_ := if elemWidth t ≤ elemWidth u then first + j else j - first
          let here := elemWidth t ≤ elemWidth u ∨ first ≤ j ∧ j < first + 512 / elemWidth t
          lane (elemWidth u) v j = if on j ∧ here
            then convertLane t u s.rm (if from_ < 512 / elemWidth t then lane (elemWidth t) (x.finalV a) from_ else 0)
              % 2 ^ elemWidth u
            else lane (elemWidth u) (x.finalV d) j)
    ∧ (s.canIssue (regOp (.v a :: .f b :: .v d :: maskReg k) [.v d] 0) → s.hasLane → elemIsFloat t = true →
      (∀ r ∈ ([(.vquantE43 sc d a b k, e4m3.rne), (.vquantE52 sc d a b k, e5m2.rne), (.vquantS8 sc d a b k, fun y =>
          if y.isNan then 0 else wrapTo 8 (y.toInt .rne (-128) 127).1)] : List (Instr × (Fp → Nat))),
        ∃ v, s.vecWrites (exec r.1 s) sc (s.withV d v) ∧ ∀ i, i < 64 → lane 8 v i = if on i ∧ i < 512 / elemWidth t
          then r.2 (scaled (laneFp t (lane (elemWidth t) (x.finalV a) i)) scale) % 256 else lane 8 (x.finalV d) i)
      ∧ ∀ r ∈ ([(.vdeqE43 sc d a b k, e4m3.value), (.vdeqE52 sc d a b k, e5m2.value)
          , (.vdeqS8 sc d a b k, fun q => Fp.ofInt (signedOf 8 q))] : List (Instr × (Nat → Fp))),
        ∃ v, s.vecWrites (exec r.1 s) sc (s.withV d v) ∧ ∀ m, elemFmt t = some m → ∀ i, i < 512 / elemWidth t →
          lane (elemWidth t) v i = if on i then m.rne (scaled (r.2 (lane 8 (x.finalV a) i)) scale) % 2 ^ elemWidth t
            else lane (elemWidth t) (x.finalV d) i)

/-- R35, R77-R79, R179, R180: VAMAX appends the largest magnitude of its active lanes to the hart's own history ring, SCLD writes
the power of two that ring gives; another hart's ring raises ILLEGAL, and every ring on a supervisor hart (the model's reading,
notes/assumptions/61.md).
R33, R170, R187: the MASK group works on the lanes of the element type; VSETT sets the type and answers its lane count, and
type 15 raises ILLEGAL. -/
def Obligations.MaskGroupVsettAndHistoryRings : Prop :=
  (
    ∀ (sc : BitVec 3) (d a : BitVec 5) (h : BitVec 2) (t : BitVec 4) (k : BitVec 3) (s : State),
      let tile := s.tile (hartVt s.cur)
      let mine := isSup s.cur = false ∧ h.toNat = hartSlot s.cur
      (s.canIssue (reachOp (.v a :: maskReg k) [] 0) →
        (mine → s.hasLane → elemTyped s.vtype = true →
          ∃ u, exec (.vamax sc h a k) s = .next u
            ∧ s.retiresOn u (s.laneTile.appendAmax h.toNat (amaxOf s.vtype (s.self.finalMask k) (s.self.finalV a))) sc
              (s.self.pc + 4) s.self.settledRegs s.self.csr)
        ∧ (¬ mine → exec (.vamax sc h a k) s = .next (s.acting.raise s.cur .illegal (s.word.zeroExtend 64))))
      ∧ (s.canIssue (regOp [] [.f d] 0) →
        (mine → s.writes (exec (.scld sc d h t) s) sc (s.withF d (f32.box
          ((scaleExp (fmtMaxOf t.toNat) ((largestFp ((tile.amaxEntries h.toNat).map f32.value)).getD (.fin false 0 0)) + 127).toNat
            * 2 ^ 23))))
        ∧ (¬ mine → exec (.scld sc d h t) s = .next (s.acting.raise s.cur .illegal (s.word.zeroExtend 64))))
  )
  ∧ (
    ∀ (sc kd ka kb : BitVec 3) (d a : BitVec 5) (t : BitVec 4) (s : State),
      let n := elemCount s.vtype
      let x := s.self.finalK ka
      let y := s.self.finalK kb
      let makes (i : Instr) (f : Nat → Bool) : Prop :=
        ∃ m, s.writes (exec i s) sc (s.withK kd m) ∧ ∀ j, j < 64 → m.getLsbD j = (decide (j < n) && f j)
      (s.canIssue (regOp [.k ka, .k kb] [.k kd] 0) →
        makes (.kand sc kd ka kb) (fun j => x.getLsbD j && y.getLsbD j)
        ∧ makes (.kor sc kd ka kb) (fun j => x.getLsbD j || y.getLsbD j)
        ∧ makes (.kxor sc kd ka kb) (fun j => x.getLsbD j != y.getLsbD j)
        ∧ makes (.kandn sc kd ka kb) fun j => x.getLsbD j && !y.getLsbD j)
      ∧ (s.canIssue (regOp [.k ka] [.k kd] 0) → makes (.knot sc kd ka) fun j => !x.getLsbD j)
      ∧ (s.canIssue (regOp [.k ka] [.g d] 0) →
        s.writes (exec (.kpop sc d ka) s) sc (s.withG d (BitVec.ofNat 64 ((List.range n).countP fun j => x.getLsbD j)))
        ∧ s.writes (exec (.kffs sc d ka) s) sc
          (s.withG d (BitVec.ofNat 64 (((List.range n).find? fun j => x.getLsbD j).getD 64)))
        ∧ s.writes (exec (.kmovg sc d ka) s) sc (s.withG d (BitVec.ofNat 64 (x.toNat % 2 ^ n))))
      ∧ (s.canIssue (regOp [.g a] [.k kd] 0) →
        makes (.ksetn sc kd a) (fun j => decide (j < (s.self.finalG a).toNat))
        ∧ makes (.kmovk sc kd a) fun j => (s.self.finalG a).getLsbD j)
      ∧ (s.canIssue (reachOp [.g a] [.g d] 0) →
        let u : BitVec 4 := if a = 0 then t else (s.self.finalG a).truncate 4
        if u = 15 then exec (.vsett sc d a t) s = .next (s.acting.raise s.cur .illegal (s.word.zeroExtend 64))
        else ∃ r, exec (.vsett sc d a t) s = .next r ∧ s.retires r sc (s.self.pc + 4)
          (s.withG d (if u = 14 then 128 else BitVec.ofNat 64 (512 / elemWidth u.toNat))) { s.self.csr with vtype := u })
  )

/-! ### Memory instructions -/

/-- R92, R152-R155, R291: scalar loads and LD.ACQ. A misaligned address traps MISALIGN before everything it leads to; otherwise
one access of the width at g[A] + the sign-extended immediate is outstanding, to write its register when it is answered.
R92, R152-R155: scalar stores and ST.REL post the low bytes of their register in memory order; ST.REL first waits for the
earlier writes to the homes of its scope and for the accumulates. -/
def Obligations.ScalarLoadsAndStores : Prop :=
  (
    ∀ (sc : BitVec 3) (d a : BitVec 5) (imm : BitVec 12) (e : BitVec 3) (z : BitVec 2) (s : State),
      let va := s.self.finalG a + imm.signExtend 64
      (∀ r ∈ ([(.ldb sc d a imm, .g d, .g d 1 true, 1), (.ldh sc d a imm, .g d, .g d 2 true, 2)
          , (.ldw sc d a imm, .g d, .g d 4 true, 4), (.ldd sc d a imm, .g d, .g d 8 true, 8)
          , (.ldbz sc d a imm, .g d, .g d 1 false, 1), (.ldhz sc d a imm, .g d, .g d 2 false, 2)
          , (.ldwz sc d a imm, .g d, .g d 4 false, 4), (.fldw sc d a imm, .f d, .f d 4, 4), (.fldd sc d a imm, .f d, .f d 8, 8)]
            : List (Instr × Reg × LoadDst × Nat)),
          s.canIssue (regOp [.g a] [r.2.1] 0) →
          if va.toNat % r.2.2.2 ≠ 0 then exec r.1 s = .next (s.acting.raise s.cur .misalign va)
          else s.loads (exec r.1 s) sc .load r.2.2.1 none [(va, r.2.2.2, 0)])
      ∧ (s.canIssue (regOp [.g a] [.g d] 0) →
        let va := s.self.finalG a
        if va.toNat % 2 ^ z.toNat ≠ 0 then exec (.ldAcq sc d a e z) s = .next (s.acting.raise s.cur .misalign va)
        else s.loads (exec (.ldAcq sc d a e z) s) sc .load (.g d (2 ^ z.toNat) false) (some e.toNat) [(va, 2 ^ z.toNat, 0)])
  )
  ∧ (
    ∀ (sc : BitVec 3) (v a : BitVec 5) (imm : BitVec 12) (e : BitVec 3) (z : BitVec 2) (s : State),
      let va := s.self.finalG a + imm.signExtend 64
      (∀ r ∈ ([(.stb sc v a imm, .g v, 1), (.sth sc v a imm, .g v, 2), (.stw sc v a imm, .g v, 4), (.std sc v a imm, .g v, 8)
          , (.fstw sc v a imm, .f v, 4), (.fstd sc v a imm, .f v, 8)] : List (Instr × Reg × Nat)),
          s.canIssue (reachOp [.g a, r.2.1] [] 0) →
          if va.toNat % r.2.2 ≠ 0 then exec r.1 s = .next (s.acting.raise s.cur .misalign va)
          else s.stores (exec r.1 s) sc
            [(va, (List.range r.2.2).map fun i => some ((s.self.settledRegs.read r.2.1).extractLsb' (8 * i) 8))])
      ∧ (s.canIssue (reachOp [.g a, .g v] [] 0) →
        let va := s.self.finalG a
        let n := 2 ^ z.toNat
        let clear := (∀ w ∈ s.self.posted, covers s.cur e.toNat w.place = false) ∧ s.self.accs = []
        (¬ clear → exec (.stRel sc a v e z) s = s.waits s.acting)
        ∧ (clear →
          if va.toNat % n ≠ 0 then exec (.stRel sc a v e z) s = .next (s.acting.raise s.cur .misalign va)
          else s.stores (exec (.stRel sc a v e z) s) sc
            [(va, (List.range n).map fun i => some ((s.self.finalG v).extractLsb' (8 * i) 8))]))
  )

/-- R33, R184-R186: vector loads. Lanes that the mask leaves out touch nothing; without an active lane nothing is loaded; the
lowest misaligned lane traps; elements are located in lane order, and a whole line's fault reports its lowest active lane.
R33, R184-R186: vector stores, whose masked lanes leave memory alone. -/
def Obligations.VectorLoadsAndStores : Prop :=
  (
    ∀ (sc : BitVec 3) (d a b : BitVec 5) (k : BitVec 3) (o : BitVec 9) (s : State),
      let x := s.self
      let w := elemWidth s.vtype
      let n := w / 8
      let mask := x.finalMask k
      let active := (List.range (512 / w)).filter fun i => mask.getLsbD i
      let lowest : Word := BitVec.ofNat 64 (active.headD 0 * n)
      let at_ (f : Nat → Word) (i : Nat) : Word := x.finalG a + f i
      let elements (i : Instr) (f : Nat → Word) : Prop :=
        match active.find? fun j => (at_ f j).toNat % n != 0 with
        | some j => exec i s = .next (s.acting.raise s.cur .misalign (at_ f j))
        | none =>
          if active = [] then s.writes (exec i s) sc x.settledRegs
          else s.loads (exec i s) sc .load (.v d n mask) none (active.map fun j => (at_ f j, n, j * n))
      (s.canIssue (regOp (.g a :: maskReg k) [.v d] 0) →
        let va := x.finalG a + 64 * o.signExtend 64
        (if va.toNat % 64 ≠ 0 then exec (.vld sc d a k o) s = .next (s.acting.raise s.cur .misalign va)
          else if active = [] then s.writes (exec (.vld sc d a k o) s) sc x.settledRegs
          else s.loads (exec (.vld sc d a k o) s) sc .load (.v d n mask) none [(va, 64, 0)] fun _ => va + lowest)
        ∧ (if active = [] then s.writes (exec (.vldb sc d a k) s) sc x.settledRegs
          else if (x.finalG a).toNat % n ≠ 0 then exec (.vldb sc d a k) s = .next (s.acting.raise s.cur .misalign (x.finalG a))
          else s.loads (exec (.vldb sc d a k) s) sc .load (.bcast d n mask) none [(x.finalG a, n, 0)]))
      ∧ (s.canIssue (regOp (.g a :: .g b :: maskReg k) [.v d] 0) →
        elements (.vlds sc d a b k) fun i => BitVec.ofNat 64 i * x.finalG b)
      ∧ (s.canIssue (regOp (.g a :: .v b :: maskReg k) [.v d] 0) →
        elements (.vgath sc d a b k) fun i => BitVec.ofInt 64 (signedOf w (lane w (x.finalV b) i)))
  )
  ∧ (
    ∀ (sc : BitVec 3) (d a b : BitVec 5) (k : BitVec 3) (o : BitVec 9) (s : State),
      let x := s.self
      let w := elemWidth s.vtype
      let n := w / 8
      let mask := x.finalMask k
      let active := (List.range (512 / w)).filter fun i => mask.getLsbD i
      let lowest : Word := BitVec.ofNat 64 (active.headD 0 * n)
      let byte (i : Nat) : Byte := (x.finalV d).extractLsb' (8 * i) 8
      let at_ (f : Nat → Word) (i : Nat) : Word := x.finalG a + f i
      let elements (i : Instr) (f : Nat → Word) : Prop :=
        match active.find? fun j => (at_ f j).toNat % n != 0 with
        | some j => exec i s = .next (s.acting.raise s.cur .misalign (at_ f j))
        | none =>
          if active = [] then s.writes (exec i s) sc x.settledRegs
          else s.stores (exec i s) sc (active.map fun j => (at_ f j, (List.range n).map fun q => some (byte (j * n + q))))
      (s.canIssue (reachOp (.g a :: .v d :: maskReg k) [] 0) →
        let va := x.finalG a + 64 * o.signExtend 64
        if va.toNat % 64 ≠ 0 then exec (.vst sc d a k o) s = .next (s.acting.raise s.cur .misalign va)
        else if active = [] then s.writes (exec (.vst sc d a k o) s) sc x.settledRegs
        else s.stores (exec (.vst sc d a k o) s) sc
          [(va, (List.range 64).map fun i => if mask.getLsbD (i / n) then some (byte i) else none)] fun _ => va + lowest)
      ∧ (s.canIssue (reachOp (.g a :: .g b :: .v d :: maskReg k) [] 0) →
        elements (.vsts sc d a b k) fun i => BitVec.ofNat 64 i * x.finalG b)
      ∧ (s.canIssue (reachOp (.g a :: .v b :: .v d :: maskReg k) [] 0) →
        elements (.vscat sc d a b k) fun i => BitVec.ofInt 64 (signedOf w (lane w (x.finalV b) i)))
  )

/-- R134, R137, R138: the full/empty instructions. A paged address takes the page fault of its kind; a dword one must be
aligned; SETFULL and STFILL are releases at panel scope. -/
def Obligations.FullEmptyInstructions : Prop :=
  ∀ (sc : BitVec 3) (d a b : BitVec 5) (s : State),
    let va := s.self.finalG a
    let clear := (∀ w ∈ s.self.posted, covers s.cur 3 w.place = false) ∧ s.self.accs = []
    let faults (i : Instr) (kind : AccessKind) (c : Cause) (dword : Bool) (ok : State → List Place → Prop) : Prop :=
      if va.toNat < 2 ^ 48 then exec i s = .next (s.acting.raise s.cur c va)
      else match s.placesOf kind [va] with
        | (u, .error (e, at_)) => s.placeless u (exec i s) e at_
        | (u, .ok ps) =>
          if dword ∧ va.toNat % 8 ≠ 0 then exec i s = .next (s.acting.raise s.cur .misalign va) else ok u ps
    let posts (i : Instr) (op : PostOp) (dword release : Bool) : Prop :=
      s.canIssue (reachOp (if dword then [.g a, .g b] else [.g a]) [] 0) →
        (dword = true → s.self.watchHit false true va 8 = none) →
        faults i .store .storePf dword fun u ps =>
          if (release → clear) ∧ s.roomFor s.cur ps then s.posts (exec i s) sc u (ps.map fun p => (va, p, op))
          else exec i s = s.waits s.acting
    posts (.setfull sc a) .setFull false true
    ∧ posts (.setempty sc a) .setEmpty false false
    ∧ posts (.stfill sc a b) (.fill ((List.range 8).map fun i => (s.self.finalG b).extractLsb' (8 * i) 8)) true true
    ∧ (s.canIssue (reachOp [.g a] [.g d] 0) → s.self.watchHit true false va 8 = none →
      faults (.ldtake sc d a) .load .loadPf true fun u ps =>
        s.begins (exec (.ldtake sc d a) s) sc u .take (.g d 8 false) (some 3) (ps.map fun p => (va, 8, 0, p)))
    ∧ (s.canIssue (regOp [.g a] [.g d] 0) →
      faults (.festat sc d a) .load .loadPf false fun u ps =>
        s.begins (exec (.festat sc d a) s) sc u .festat (.g d 8 false) none (ps.map fun p => (va, 8, 0, p)))

/-- R214, R215: an AMO checks its address as a read and a write, then leaves with its operand; AMOCAS takes the old value of
its destination for the comparison. -/
def Obligations.AtomicsLeaveWithTheirOperand : Prop :=
  ∀ (sc : BitVec 3) (d a b : BitVec 5) (w : BitVec 1) (s : State),
    let va := s.self.finalG a
    let n := if w = 1 then 8 else 4
    ∀ r ∈ ([(.amoadd sc d a b w, 0), (.amomin sc d a b w, 1), (.amomax sc d a b w, 2), (.amoand sc d a b w, 3)
      , (.amoor sc d a b w, 4), (.amoxor sc d a b w, 5), (.amoswap sc d a b w, 6), (.amocas sc d a b w, 7)]
        : List (Instr × BitVec 3)),
      s.canIssue (reachOp ([.g a, .g b] ++ if r.2 = 7 then [.g d] else []) [.g d] 0) →
      s.self.watchHit true true va n = none →
      if va.toNat % n ≠ 0 then exec r.1 s = .next (s.acting.raise s.cur .misalign va)
      else match s.placesOf .amo [va] with
        | (u, .error (e, at_)) => s.placeless u (exec r.1 s) e at_
        | (u, .ok ps) =>
          if s.roomFor s.cur ps then
            ∃ old, (r.2 = 7 → old = s.self.finalG d) ∧
              s.begins (exec r.1 s) sc u (.amo r.2 (w == 1) (s.self.finalG b) old) (.g d n true) none
                (ps.map fun p => (va, n, 0, p))
          else exec r.1 s = s.waits s.acting

/-- R34, R207, R208: rows and columns of matrix registers, and their loads and stores by rows. A register that U mode has not,
or one of no rows, traps first.
R191-R193: MLEASE completes with the lease HELD, MLEASE.B answers 0 with it and 1 without, MREL gives it up. -/
def Obligations.MatrixRegistersAndLeases : Prop :=
  (
    ∀ (sc m : BitVec 3) (d a b : BitVec 5) (s : State),
      let x := s.self
      let w := elemWidth s.vtype
      let n := x.mRows m
      let width := x.mWidth m
      let rows := x.m[m.toNat]'m.isLt
      let row (i : Nat) : VReg := entryAt rows i 0
      let i := (x.finalG b).toNat
      let base := x.finalG a
      let guarded (reads writes : List Reg) (i : Instr) (go : Prop) : Prop :=
        s.canIssue (reachOp reads writes 0) →
          if x.mode = .user ∧ x.mValid.getLsbD m.toNat = false then
            exec i s = .next (s.acting.raise s.cur .matrixUnavail (m.zeroExtend 64))
          else if n = 0 then exec i s = .next (s.acting.raise s.cur .mregUnconfig (m.zeroExtend 64))
          else go
      let sets (e : Instr) (inside : Prop) (f : Fin 16 → VReg → Prop) : Prop :=
        (inside → ∃ r : Vector VReg 16, (∀ j, f j r[j]) ∧ s.does (exec e s) sc (s.acting.onHart s.cur fun y =>
            { y with m := y.m.set m.toNat r m.isLt, mDirty := y.mDirty ||| BitVec.ofNat 8 (2 ^ m.toNat) }))
          ∧ (¬ inside → s.does (exec e s) sc s.acting)
      guarded [.v a, .g b] [.m m] (.mrowset sc m a b)
        (sets (.mrowset sc m a b) (i < n) fun j r =>
          r = if j.val = i then BitVec.ofNat 512 ((x.finalV a).toNat % 2 ^ (8 * width)) else rows[j])
      ∧ guarded [.v a, .g b] [.m m] (.mcolset sc m a b)
        (sets (.mcolset sc m a b) (i < width / (w / 8)) fun j r => ∀ c, c < 512 / w →
          lane w r c = if c = i ∧ j.val < min n (512 / w) then lane w (x.finalV a) j.val else lane w rows[j] c)
      ∧ guarded [.m m, .g b] [.v d] (.mrowget sc d m b)
        (s.writes (exec (.mrowget sc d m b) s) sc
          (s.withV d (if i < n then BitVec.ofNat 512 ((row i).toNat % 2 ^ (8 * width)) else 0)))
      ∧ guarded [.m m, .g b] [.v d] (.mcolget sc d m b)
        (∃ v, s.writes (exec (.mcolget sc d m b) s) sc (s.withV d v) ∧ ∀ j, j < 512 / w →
          lane w v j = if i < width / (w / 8) ∧ j < min n (512 / w) then lane w (row j) i else 0)
      ∧ guarded [.g a] [.m m] (.mldm sc m a)
        (if base.toNat % width ≠ 0 then exec (.mldm sc m a) s = .next (s.acting.raise s.cur .misalign base)
          else s.loads (exec (.mldm sc m a) s) sc .load (.m m width) none
            ((List.range n).map fun j => (base + BitVec.ofNat 64 (j * width), width, 64 * j)))
      ∧ guarded [.m m, .g a] [] (.mstm sc m a)
        (if base.toNat % width ≠ 0 then exec (.mstm sc m a) s = .next (s.acting.raise s.cur .misalign base)
          else s.stores (exec (.mstm sc m a) s) sc ((List.range n).map fun j =>
            (base + BitVec.ofNat 64 (j * width),
              ((List.range 64).map fun q => some ((row j).extractLsb' (8 * q) 8)).take width)))
  )
  ∧ (
    ∀ (sc : BitVec 3) (d : BitVec 5) (s : State),
      let v := hartVt s.cur
      let k := s.acting.keepSlot v
      let given := k.giveLease v s.cur
      let tiled := isSup s.cur = false
      (s.canIssue (reachOp [] [] 0) →
        (tiled → k.self.leaseEnding = false → k.self.lease = .held → s.does (exec (.mlease sc) s) sc k)
        ∧ (tiled → k.self.leaseEnding = false → k.self.lease ≠ .held →
          let asked := k.onHart s.cur fun x => { x with lease := .req }
          let t := if s.prompt then asked.grantLease v else asked
          if t.self.lease = .held then s.does (exec (.mlease sc) s) sc t else exec (.mlease sc) s = s.waits t)
        ∧ (tiled → k.self.leaseEnding = true → exec (.mlease sc) s = s.waits k)
        ∧ s.does (exec (.mrel sc) s) sc (s.acting.onHart s.cur fun x => { x with lease := .none, leaseEnding := false }))
      ∧ (tiled → s.canIssue (reachOp [] [.g d] 0) →
        s.does (exec (.mleaseB sc d) s) sc
          (if k.self.lease = .held ∧ k.self.leaseEnding = false then k.postG d 0
            else if k.leaseHolder v = none ∧ (k.leasePick v fun o => o == s.cur || (k.hart o).lease == .req) = some s.cur then
              given.postG d 0
            else k.postG d 1))
  )

/-- R66, R181, R182: a VSFU member captures source, type and mask in the tile's queue, which writes its destination later; a
supervisor hart has no queue and gets the result at once (the model's choice, notes/assumptions/15.md). An integer type
raises ILLEGAL. -/
def Obligations.SpecialFunctionsEnterTheQueue : Prop :=
  ∀ (sc : BitVec 3) (d a : BitVec 5) (k : BitVec 3) (s : State),
    let x := s.self
    let tile := s.acting.tile (hartVt s.cur)
    let e (fn : BitVec 4) (id : Nat) : SfuEntry :=
      { id := id, hart := s.cur, fn := fn, type := x.csr.vtype, k := k, vd := d, source := x.finalV a
        mask := x.finalMask k, seq := x.seq, discard := false }
    ∀ r ∈ ([(.vrcp sc d a k, 0), (.vrsqrt sc d a k, 1), (.vexp2 sc d a k, 2), (.vlog2 sc d a k, 3), (.vsqrt sc d a k, 4)]
      : List (Instr × BitVec 4)),
      s.canIssue (regOp (.v a :: .v d :: maskReg k) [.v d] 0) →
      (elemIsFloat s.vtype = false → exec r.1 s = .next (s.acting.raise s.cur .illegal (s.word.zeroExtend 64)))
      ∧ (elemIsFloat s.vtype = true →
        (isSup s.cur = false → tile.ckpting = none → s.sfuPlace s.cur = true →
          ∃ t id, exec r.1 s = .next t ∧ s.retiresOn t { tile with sfu := tile.sfu ++ [e r.2 id] } sc (x.pc + 4)
            x.settledRegs x.csr)
        ∧ (isSup s.cur = true → s.writes (exec r.1 s) sc (s.withV d ((e r.2 0).result (x.finalV d)))))

/-! ### Accumulates -/

/-- R217, R218, R221: an ACC that finds room takes the tail's entry of its key with it, merged under its class, and leaves as one
addend whose outcome is still to come, which a FLUSHRES that waits for the entry waits for; ACC.BF widens its sixteen low lanes
exactly.
R225, R226: FLUSHRES completes once the accumulates that the tile's harts had issued have outcomes and every tail entry it
then forced out has one; TAILSTAT tells how many entries and accumulates there are and whether the line has an entry, its
walk waiting like another's where R97 lets it wait (notes/assumptions/68.md) and marking nothing. -/
def Obligations.AccumulatesAndTheirTail : Prop :=
  (
    ∀ (sc : BitVec 3) (a b : BitVec 5) (s : State), isSup s.cur = false → s.canIssue (reachOp [.g a, .v b] [] 0) →
      let va := s.self.finalG a
      let v := hartVt s.cur
      ∀ r ∈ ([(.accF32 sc a b, .f32, false), (.accBf sc a b, .f32, true), (.accS32 sc a b, .s32, false)
        , (.accS64 sc a b, .s64, false)] : List (Instr × AccClass × Bool)),
        if va.toNat % 64 ≠ 0 then exec r.1 s = .next (s.acting.raise s.cur .misalign va)
        else match s.acting.locate (s.acting.ctx s.cur) va .amo true with
          | (u, .error c) => s.placeless u (exec r.1 s) c va
          | (u, .ok l) =>
            let key : AccKey := { place := l.place, cls := r.2.1, launch := s.self.csr.launchid, rdw := l.rdw }
            let old := (takeTail key (s.tile v).tail).1
            s.self.watchHit false true va 64 = none → s.self.accs.length < 32 → (s.tile v).cond ≠ .drain →
            (l.place.home = .slice v ∨ s.roomItems s.cur 1 = true) →
            ∃ x : VReg, ∃ id : Nat,
              (r.2.2 = false → x = s.self.finalV b)
              ∧ (r.2.2 = true → ∀ i, i < 16 → lane 32 x i = (convertFp bf16 f32 .rne (lane 16 (s.self.finalV b) i)).1 % 2 ^ 32)
              ∧ s.does (exec r.1 s) sc ((((u.onTile v fun t => { t with
                  tail := (takeTail key t.tail).2
                  flushing := if old.isSome then t.flushing.map fun f => if f.f.isNone then { f with e := f.e ++ [id] } else f
                    else t.flushing }).onHart s.cur fun y => { y with accs := y.accs ++ [id] }).sendAddend v
                { id := id, key := key, va := va
                  value := match old with
                    | some e => mergeAcc r.2.1 e.value x
                    | none => x
                  flush := false, srcVt := v, hart := some s.cur, since := s.cycle v }))
  )
  ∧ (
    ∀ (sc : BitVec 3) (d a : BitVec 5) (s : State), isSup s.cur = false →
      let v := hartVt s.cur
      let tile := s.tile v
      let mine (f : Flushing) : Bool := f.hart == s.cur
      let ended : State := s.acting.onTile v fun t => { t with flushing := t.flushing.filter fun f => !mine f }
      let va := s.self.finalG a
      (s.canIssue (reachOp [] [] 0) →
        ((∀ f ∈ tile.flushing, mine f = false) → tile.tail = [] → tile.flushes = [] → (∀ i, i < 4 → (s.hart (v * 4 + i)).accs = []) →
          s.does (exec (.flushres sc) s) sc ended)
        ∧ (∀ f ids, tile.flushing.find? (fun f => mine f && f.seq == s.self.seq) = some f → f.f = some ids →
          if ∃ w ∈ tile.flushes, w.id ∈ ids then exec (.flushres sc) s = s.waits s.acting
          else s.does (exec (.flushres sc) s) sc ended))
      ∧ (s.canIssue (regOp [.g a] [.g d] 0) →
        let word (hit : Bool) : Word :=
          BitVec.ofNat 64 (hit.toNat * 2 ^ 15 + s.self.accs.length % 128 * 2 ^ 8 + tile.tail.length % 256)
        if a = 0 then s.writes (exec (.tailstat sc d a) s) sc (s.withG d (word false))
        else if va.toNat % 64 ≠ 0 then exec (.tailstat sc d a) s = .next (s.acting.raise s.cur .misalign va)
        else if va.toNat < 2 ^ 48 ∧ s.acting.walkWaits (s.acting.ctx s.cur) va.toNat true false = true then
          exec (.tailstat sc d a) s = s.waits s.acting
        else match s.acting.locate (s.acting.ctx s.cur) va .amo false with
          | (u, .error c) => s.placeless u (exec (.tailstat sc d a) s) c va
          | (u, .ok l) => s.does (exec (.tailstat sc d a) s) sc (u.postG d
              (word (tile.tail.any fun e => e.key.place == l.place && e.key.launch == s.self.csr.launchid))))
  )

/-! ### Control and status registers -/

/-- R36, R161: each CSR instruction reads its register into g[D] and writes the source, the old value with the source's bits set,
or with them cleared; the last two write nothing for a source of 0. A number that names no register for the hart raises ILLEGAL.
R4, R36, R37: what a write leaves in the registers of a hart: fields that keep only legal values keep them, read-only ones
do not change. On a supervisor hart a register of a tile's units stops by name and a number that the map lacks is ILLEGAL (the
model's readings, notes/assumptions/61.md and 70.md). -/
def Obligations.CsrInstructionsReadAndWriteLegally : Prop :=
  (
    ∀ (sc : BitVec 3) (d a : BitVec 5) (c : BitVec 12) (s : State),
      let n := c.toNat
      let t := s.csrTarget s.cur n
      let x := s.self.finalG a
      let i : Word := a.zeroExtend 64
      let set (o m : Word) : Option Word := if m = 0 then none else some (o ||| m)
      let clear (o m : Word) : Option Word := if m = 0 then none else some (o &&& ~~~m)
      ∀ r ∈ ([(.csrrw sc d a c, [.g a], fun _ => some x), (.csrrs sc d a c, [.g a], fun o => set o x)
        , (.csrrc sc d a c, [.g a], fun o => clear o x), (.csrrwi sc d a c, [], fun _ => some i)
        , (.csrrsi sc d a c, [], fun o => set o i), (.csrrci sc d a c, [], fun o => clear o i)]
          : List (Instr × List Reg × (Word → Option Word))),
        (t = .missing → s.canIssue (regOp [] [] 0) → exec r.1 s = .next (s.acting.raise s.cur .illegal (s.word.zeroExtend 64)))
        ∧ (t ≠ .missing → s.self.mode.rank < (csrMode n).rank →
          exec r.1 s = .next (s.acting.raise s.cur .priv (s.word.zeroExtend 64)))
        ∧ (t ≠ .missing → (csrMode n).rank ≤ s.self.mode.rank → s.canIssue (reachOp r.2.1 [.g d] 0) →
          if t = .noTile then exec r.1 s = .refused .noTileUnit
          else if n = 0x018 ∧ s.self.mode = .user ∧ s.self.mValid ≠ 0xFF then
            exec r.1 s = .next (s.acting.raise s.cur .matrixUnavail 9)
          else
            let old := s.acting.readTarget t
            s.does (exec r.1 s) sc ((match r.2.2 old.2 with
              | some new => old.1.writeTarget t new
              | none => old.1).postG d old.2))
  )
  ∧ (
    ∀ (s : State) (h die pt : Nat) (v : Word),
      let c := (s.hart h).csr
      let after (n : Nat) (f : Csrs) : Prop :=
        (s.writeCsr h die pt n v).hart h = { s.hart h with csr := f }
      after 0x004 { c with fflags := v.truncate 5 }
      ∧ after 0x005 (if v.toNat % 8 ≤ 4 then { c with frm := v.truncate 3 } else c)
      ∧ after 0x008 (if v.toNat % 16 = 15 then c else { c with vtype := v.truncate 4 })
      ∧ after 0x010 c ∧ after 0x011 c ∧ after 0x019 c ∧ after 0x020 c ∧ after 0x021 c ∧ after 0x028 c
      ∧ after 0x053 { c with retrymax := v.truncate 16 }
      ∧ after 0x054 { c with retrygap := BitVec.ofNat 32 (max 16 (v.toNat % 2 ^ 32)) }
      ∧ after 0x060 { c with utvec := v &&& ~~~(3#64) } ∧ after 0x061 { c with uepc := v }
      ∧ after 0x062 { c with uh := v.getLsbD 63, ucode := v.truncate 8 } ∧ after 0x063 { c with utval := v }
      ∧ after 0x064 { c with uscratch := v }
      ∧ after 0x400 { c with stallchk := v.getLsbD 8, pm := if v.toNat / 16 % 4 ≤ 1 then BitVec.ofNat 2 (v.toNat / 16) else c.pm
                             sp := v.getLsbD 3, pie := v.getLsbD 1, ie := v.getLsbD 0 }
      ∧ after 0x401 { c with ktvec := v &&& ~~~(3#64) } ∧ after 0x402 { c with kepc := v }
      ∧ after 0x403 { c with kcause := v.truncate 8 } ∧ after 0x404 { c with ktval := v } ∧ after 0x405 { c with kscratch := v }
      ∧ after 0x407 c ∧ after 0x408 { c with udeleg := v } ∧ after 0x409 { c with kdeleg := v }
      ∧ after 0x410 (if v.toNat / 256 % 4 = 3 then c else { c with ptbase := v &&& 0x00FFFFFFFFFFFF01 })
      ∧ after 0x430 { c with pclass := v.truncate 3 }
      ∧ (s.self.mode = .kernel → v.toNat % 8 = 7 → s.writeTarget (.at_ h die pt 0x430) v = s)
      ∧ (let limit : BitVec 32 := v.truncate 32
        (s.writeCsr h die pt 0x431 v).hart h = { s.hart h with
          csr := { c with equotaLimit := limit }
          barred := limit != 0 && ((s.hart h).barred || decide (limit ≤ c.equotaUsed)) })
  )

/-! ### SYSTEM -/

/-- R163, R298-R303: the SYSTEM group where it completes: WFI with something to wake it, FENCE.I, TSTAMP, URET to UEPC, KRET to
KEPC with the mode and enable that KSTATUS saved, FRET to FEPC.
R257, R262, R263: a FENCE whose kind holds writes waits for the posted writes to the homes of its scope and for the
accumulates; every other fence retires at once, earlier reads having their values when it issues. One that orders nothing but
writes behind it lets later reads pass while it stands among the outstanding accesses. -/
def Obligations.SystemInstructionsAndFencesComplete : Prop :=
  (
    ∀ (sc : BitVec 3) (d : BitVec 5) (s : State),
      let x := s.self
      let illegal (i : Instr) : Prop := exec i s = .next (s.acting.raise s.cur .illegal (s.word.zeroExtend 64))
      (s.canIssue { reachOp [] [] 0 with low := .kernel } →
        (if s.awake s.cur then s.writes (exec (.wfi sc) s) sc x.settledRegs
          else exec (.wfi sc) s = s.waits (s.acting.onHart s.cur fun y => { y with wfi := some y.seq }))
        ∧ (if x.mode = .kernel ∧ x.csr.pm.toNat ≤ 1 then
            ∃ t, exec (.kret sc) s = .next t
              ∧ s.retiresFrom (s.acting.onHart s.cur fun y =>
                { y with mode := if x.csr.pm = 0 then .user else .kernel, csr := { y.csr with ie := x.csr.pie } })
                t sc (x.csr.kepc &&& ~~~(3#64))
          else illegal (.kret sc)))
      ∧ (s.canIssue { reachOp [] [] 0 with low := .firmware } →
        ∃ t, exec (.fret sc) s = .next t
          ∧ s.retiresFrom (s.acting.onHart s.cur fun y => { y with csr := { y.csr with fIe := x.csr.fPie } })
            t sc (x.csr.fepc &&& ~~~(3#64)))
      ∧ (s.canIssue (reachOp [] [] 0) →
        (if x.mode = .user ∧ x.csr.uh = true then
            ∃ t, exec (.uret sc) s = .next (t.trace s.cur 1 (x.csr.uepc &&& ~~~(3#64)))
              ∧ s.retires t sc (x.csr.uepc &&& ~~~(3#64)) x.settledRegs { x.csr with uh := false }
          else illegal (.uret sc))
        ∧ (if x.posted = [] then
            s.does (exec (.fenceI sc) s) sc (s.acting.onTile (hartVt s.cur) fun t => { t with icache := [] })
          else exec (.fenceI sc) s = s.waits s.acting))
      ∧ (s.canIssue (reachOp [] [.g d] 0) →
        let logged := s.acting.loggedResult s.cur (BitVec.ofNat 64 s.tick)
        s.does (exec (.tstamp sc d) s) sc (logged.1.postG d logged.2)
        ∧ (isSup s.cur = true ∨ (s.tile (hartVt s.cur)).replayLog = [] → logged.2 = BitVec.ofNat 64 s.tick))
  )
  ∧ (
    ∀ (sc k e : BitVec 3) (s : State),
      let clear := (∀ w ∈ s.self.posted, covers s.cur e.toNat w.place = false) ∧ s.self.accs = []
      if k.toNat ∈ [2, 4] then
        s.canIssue (regOp [] [] 0) →
          if clear ∧ s.settled s.cur = true then s.writes (exec (.fence sc k e) s) sc s.self.settledRegs
          else s.begins (exec (.fence sc k e) s) sc s.acting .load (.fence e.toNat) none []
      else
        s.canIssue (reachOp [] [] 0) →
          if k.toNat ∈ [0, 5] ∧ ¬ clear then exec (.fence sc k e) s = s.waits s.acting
          else s.writes (exec (.fence sc k e) s) sc s.self.settledRegs
  )

/-- R298, R351: ECALL takes ECALL_U or ECALL_K of its mode, and is illegal to a supervisor hart; EBREAK takes BREAK with its own
address, or enters debug halt where DBGCTL says so, at the tick of a halt of the whole panel (R353). A hart that would park finds
room for its record (R319). -/
def Obligations.CallsAndBreakpointsTakeTheirTrap : Prop :=
  ∀ (sc : BitVec 3) (s : State), s.canIssue (reachOp [] [] 0) → s.self.board = [] → s.sfuBusy s.cur = false →
    let taken (i : Instr) (c : Cause) (tval : Word) : Prop :=
      s.acting.parkRoom s.cur c = true → exec i s = .next (s.acting.takeTrap s.cur c tval s.word)
    taken (.ecall sc) (match s.self.mode with
      | .user => .ecallU
      | .kernel => .ecallK
      | .firmware => .illegal) (if s.self.mode = .firmware then s.word.zeroExtend 64 else 0)
    ∧ (s.self.csr.dbgctl.getLsbD 5 = true → exec (.ebreak sc) s = .next (s.enterHalt s.cur (s.panelHalt.getD s.tick)))
    ∧ (s.self.csr.dbgctl.getLsbD 5 = false → taken (.ebreak sc) .brk s.self.pc)

/-- R113: TLBINV of a drained hart removes, from the TLBs of every VT in its scope and of their dies, each entry of its tenant
that it names, and their walk-cache entries, and retires when the accesses under way at that time are performed.
R300, R301: SAVEPT of a hart whose SFU and array work is done goes on, or takes the pending preemption with the PC after it;
CKPT, once its hart is drained, begins to stop its tile, and retires when the checkpoint is committed. -/
def Obligations.TlbinvSaveptAndCkpt : Prop :=
  (
    ∀ (sc : BitVec 3) (a b : BitVec 5) (s : State), s.canIssue { reachOp [.g a, .g b] [] 0 with low := .kernel } →
      let w := s.self.finalG b
      let kind := w.toNat % 4
      let wide := w.getLsbD 8
      let tenant := s.self.csr.tenant
      let va := (s.self.finalG a).toNat
      let u := s.acting.invalidateAll s.cur wide kind va
      let performed (t : State) (n : TlbinvWait) : Prop := ∀ v ∈ t.invServes s.cur wide, t.pagedOut v tenant n = false
      let ended (t : State) : State := t.onHart s.cur fun x => { x with tlbinv := none }
      if 512 ≤ w.toNat ∨ 4 ≤ w.toNat % 256 ∨ kind = 3 then
        exec (.tlbinv sc a b) s = .next (s.acting.raise s.cur .illegal (s.word.zeroExtend 64))
      else s.drained s.cur = true →
        (s.self.tlbinv = none → performed u (u.tlbinvStart s.cur wide) → s.does (exec (.tlbinv sc a b) s) sc (ended u))
        ∧ (∀ n, s.self.tlbinv = some n → n.seq = s.self.seq → performed s.acting n →
          s.does (exec (.tlbinv sc a b) s) sc (ended s.acting))
        ∧ (∀ d, d = hartDie s.cur ∨ (∃ v ∈ s.invScope s.cur wide, vtDie v = d) →
          (∀ e ∈ (u.die d).tlb, e.stays tenant kind va = true) ∧ ∀ e ∈ (u.die d).walks, e.tenant ≠ tenant)
        ∧ ∀ v ∈ s.invScope s.cur wide, ∀ e ∈ (u.tile v).tlb, e.stays tenant kind va = true
  )
  ∧ (
    ∀ (sc : BitVec 3) (s : State), s.canIssue (reachOp [] [] 0) →
      let v := hartVt s.cur
      let tiled := isSup s.cur = false
      (s.sfuClear s.cur = true → s.arrayClear s.cur = true →
        (s.self.preemptable = false → s.writes (exec (.savept sc) s) sc s.self.settledRegs)
        ∧ (s.self.preemptable = true → s.self.board = [] → s.sfuBusy s.cur = false →
          s.leaves (exec (.savept sc) s) sc (s.acting.takeInterrupt s.cur 1 (s.self.pc + 4) true)))
      ∧ (tiled → s.inCkpt s.cur = false → s.ckptReady s.cur = true →
        exec (.ckpt sc) s = s.waits (s.acting.onTile v fun t => { t with
          ckpting := some { by_ := some s.cur, whole := false, committed := false } }))
      ∧ (tiled → s.inCkpt s.cur = true → (s.tile v).ckpting.any (·.committed) = true →
        s.does (exec (.ckpt sc) s) sc (s.acting.onTile v fun t => { t with ckpting := none }))
  )

/-! ### Messages and tasks -/

/-- R239, R240: SEND. Its operand checks trap first; at sixteen entries it traps SENDQ_FULL or, under .b, writes 1; behind
earlier writes to panel homes it waits; with room (and a c3 slot where it expects a reply) its message enters the send queue,
.p fetching the payload from memory first. -/
def Obligations.SendQueuesItsMessage : Prop :=
  ∀ (sc : BitVec 3) (d a b : BitVec 5) (r u p : BitVec 1) (s : State),
    let i : Instr := .send sc d a b r u p
    let w := s.self.finalG a
    let hd := s.self.finalG b
    let len := hdrLen hd
    let header := s.self.header s.cur hd (r == 1 || hdrRe hd)
    let at_ := s.self.finalG 4
    let busy (t : State) : State := if u = 1 then t.postG d 0 else t
    s.canIssue (reachOp ([.g a, .g b] ++ if p = 1 then [.g 4] else payloadRegs len) (if u = 1 then [.g d] else []) 0) →
      match s.acting.sendTrap s.cur w hd (r == 1) false with
      | some (c, tval) => exec i s = .next (s.acting.raise s.cur c tval)
      | none =>
        if 16 ≤ s.self.sendq.length then
          if u = 1 then s.writes (exec i s) sc (s.withG d 1) else exec i s = .next (s.acting.raise s.cur .sendqFull w)
        else if p = 1 ∧ at_.toNat % 8 ≠ 0 then exec i s = .next (s.acting.raise s.cur .misalign at_)
        else if s.released s.cur 3 = false then exec i s = s.waits s.acting
        else if p = 1 ∧ len ≠ 0 then
          s.loads (exec i s) sc .load (.payload (if u = 1 then some d else none) w header) none
            ((List.range len).map fun j => (at_ + BitVec.ofNat 64 (8 * j), 8, 8 * j))
        else if (hdrRe header = true ∧ s.self.freeReplies = 0) ∨ s.roomItems s.cur 2 = false then exec i s = s.waits s.acting
        else s.does (exec i s) sc ((busy s.acting).queueSend s.cur s.self.seq w
          { header := header, payload := (List.range len).map fun j => s.self.finalG (BitVec.ofNat 5 (4 + j)) } false)

/-- R242: SPAWN sends its message once and waits, with a latch of its own PC; accepted, it is done; refused, and its launch not
cancelled, the child runs in the spawner at its handler with g1 the link, g3 the header and the inline depth one higher. A
SPAWN that another interrupts has its latch put aside and taken up again (the model's choice, notes/assumptions/85.md). -/
def Obligations.SpawnSendsOrRunsInline : Prop :=
  ∀ (sc : BitVec 3) (a b : BitVec 5) (s : State),
    let i : Instr := .spawn sc a b
    let x := s.self
    let w := x.finalG a
    let hd := x.finalG b
    let len := hdrLen hd
    let m : Msg :=
      { header := x.header s.cur hd false, payload := (List.range len).map fun j => x.finalG (BitVec.ofNat 5 (4 + j)) }
    let idle : SpawnLatch := { armed := false, answered := false, accepted := false, retryAt := 0 }
    let l := x.takeLatch.spawn
    let mine : Prop := l.armed = true ∧ l.pc = x.pc
    let taken : State := s.acting.onHart s.cur Hart.takeLatch
    s.canIssue (reachOp ([.g a, .g b] ++ payloadRegs len) [] 0) →
      (x.spawnOuter = [] → x.takeLatch = x) ∧
      match taken.sendTrap s.cur w hd false true with
      | some (c, tval) => exec i s = .next (s.acting.raise s.cur c tval)
      | none =>
        (¬ mine → x.sendq.length < 16 → s.released s.cur 3 = true → s.roomItems s.cur 2 = true →
          exec i s = s.waits ((taken.onHart s.cur fun y => { y with
            spawn := { armed := true, answered := false, accepted := false, retryAt := 0, pc := x.pc, entry := x.seq }
            spawnOuter := (if x.spawn.armed then [x.spawn] else []) ++ x.spawnOuter }).queueSend s.cur x.seq w m true))
        ∧ (mine → l.answered = false → exec i s = s.waits taken)
        ∧ (mine → l.answered = true → l.accepted = true →
          s.does (exec i s) sc (taken.onHart s.cur fun y => { y with
            spawn := y.spawnOuter.headD idle, spawnOuter := y.spawnOuter.drop 1 }))
        ∧ (mine → l.answered = true → l.accepted = false →
          taken.launchMarked (hdrLaunch m.header) = false → x.csr.inld ≠ 255 → x.board = [] →
          ∀ u va e pc, taken.handlerEntry s.cur x.csr.tenant (hdrClass m.header) = (u, some (va, e)) → handlerPc e = some pc →
          s.jumpsTo (exec i s) sc (u.onHart s.cur fun y =>
            { (y.drain.setG 3 m.header).setG 1 (x.pc + 4) with
              spawn := y.spawnOuter.headD idle, spawnOuter := y.spawnOuter.drop 1
              csr := { y.csr with inld := y.csr.inld + 1 } }) pc)

/-- R243, R244: TEND ends an inline child by a jump to g1, otherwise the task; TEND.X ends all of it and cancels its launch;
TYIELD puts the message of g3-g10 at the tail of the task's channel. All first wait for what the task has set going. A supervisor
hart ends the same way and waits where a tile hart is dispatched (the model's reading, notes/assumptions/61.md); the low bits of
the address that control goes to are cleared (the model's choice, notes/assumptions/34.md).
R245: MSGPEEK writes how many messages wait in a channel and the class of the first; a channel above 3 is illegal. -/
def Obligations.TasksEndAndMessagesAreCounted : Prop :=
  (
    ∀ (sc : BitVec 3) (s : State),
      let x := s.self
      let l := x.csr.launchid
      let dropped := s.acting.onHart s.cur fun y => { y with lease := .none, leaseEnding := false }
      let ended (k : Int) : State := dropped.updateLaunch s.cur l (-k) (some s.cur) none none
      let waits (i : Instr) (ends : Bool) (go : Prop) : Prop :=
        match s.acting.taskWaits s.cur ends with
        | some t => exec i s = s.waits t
        | none => go
      (x.csr.inld ≠ 0 → s.canIssue (reachOp [.g 1] [] 0) →
        waits (.tend sc) false (s.jumpsTo (exec (.tend sc) s) sc
          ((ended 1).onHart s.cur fun y => { y with csr := { y.csr with inld := y.csr.inld - 1 } }) (x.finalG 1 &&& ~~~(3#64))))
      ∧ (s.canIssue (reachOp [] [] 0) →
        (x.csr.inld = 0 → waits (.tend sc) true (s.leaves (exec (.tend sc) s) sc ((ended 1).freeTask s.cur)))
        ∧ waits (.tendX sc) true (s.leaves (exec (.tendX sc) s) sc
          ((((ended (x.csr.inld.toNat + 1)).onHart s.cur fun y => { y with csr := { y.csr with inld := 0 } }).cancelLaunch s.cur
            l).freeTask s.cur)))
      ∧ (s.canIssue (reachOp (.g 3 :: payloadRegs 7) [] 0) →
        let c := (x.finalG 3).toNat % 256
        if x.csr.inld ≠ 0 ∨ c = 0xFF then exec (.tyield sc) s = .next (s.acting.raise s.cur .illegal (s.word.zeroExtend 64))
        else if x.mode = .user ∧ c < 0x10 then exec (.tyield sc) s = .next (s.acting.raise s.cur .priv (s.word.zeroExtend 64))
        else waits (.tyield sc) true (s.leaves (exec (.tyield sc) s) sc ((dropped.onHart s.cur fun y =>
          y.requeue c ((List.range 7).map fun j => x.finalG (BitVec.ofNat 5 (4 + j)))).freeTask s.cur)))
  )
  ∧ (
    ∀ (sc : BitVec 3) (d a : BitVec 5) (s : State), s.canIssue (regOp [.g a] [.g d] 0) →
      let c := (s.self.finalG a).toNat
      let waiting := (entryAt s.self.chans c []).filter fun m => !m.running
      if 3 < c then exec (.msgpeek sc d a) s = .next (s.acting.raise s.cur .illegal (s.word.zeroExtend 64))
      else s.writes (exec (.msgpeek sc d a) s) sc (s.withG d (BitVec.ofNat 64 (waiting.length % 32
        + 256 * ((waiting.head?.map fun m => m.msg.header.toNat % 256).getD 0))))
  )

/-! ### Barriers, monitors, counters -/

/-- R264-R268: the barrier instructions. The word is checked first; BARJOIN, BARARRIVE and BARWAIT take or make the hart's record
and trap BARRIER_FULL without a place; an operation that the home must hear of travels there; BARWAIT ends when its arrival is
applied and the phase has moved on, and a shed context enters shed hold in its wait (R338). -/
def Obligations.BarrierInstructions : Prop :=
  ∀ (sc : BitVec 3) (a b : BitVec 5) (s : State),
    let x := s.self
    let full := x.finalG a
    let w : BitVec 17 := full.truncate 17
    let free := s.released s.cur 3 = true ∧ s.roomItems s.cur 1 = true
    let record (r : BarrierRecord) (i : Fin 4) : State :=
      s.acting.onHart s.cur fun y => { y with barriers := y.barriers.set i.val r i.isLt }
    let checked (reads : List Reg) (i : Instr) (go : Prop) : Prop :=
      s.canIssue (reachOp reads [] 0) →
        match s.barrierTrap full with
        | some (c, tval) => exec i s = .next (s.acting.raise s.cur c tval)
        | none => go
    let withRecord (i : Instr) (go : Fin 4 → BarrierRecord → Prop) : Prop :=
      match x.takeRecord w with
      | none => exec i s = .next (s.acting.raise s.cur .barrierFull full)
      | some (n, r) => go n r
    checked [.g a, .g b] (.barinit sc a b)
      (if 2 ^ 16 ≤ (x.finalG b).toNat then
          exec (.barinit sc a b) s = .next (s.acting.raise s.cur .illegal (s.word.zeroExtend 64))
        else s.roomItems s.cur 1 = true →
          s.does (exec (.barinit sc a b) s) sc (s.acting.sendBarrier s.cur w (.init ((x.finalG b).truncate 16))))
    ∧ checked [.g a] (.barjoin sc a) (withRecord (.barjoin sc a) fun n r =>
      (r.joined = true → s.writes (exec (.barjoin sc a) s) sc x.settledRegs)
      ∧ (r.joined = false → s.roomItems s.cur 1 = true →
        s.does (exec (.barjoin sc a) s) sc ((record { r with joined := true } n).sendBarrier s.cur w .join)))
    ∧ checked [.g a] (.bararrive sc a) (withRecord (.bararrive sc a) fun n r =>
      (r.arrived = true → s.writes (exec (.bararrive sc a) s) sc x.settledRegs)
      ∧ (r.arrived = false → free →
        s.does (exec (.bararrive sc a) s) sc ((record { r with arrived := true } n).sendBarrier s.cur w .arrive)))
    ∧ checked [.g a] (.barwait sc a) (withRecord (.barwait sc a) fun n r =>
      (r.arrived = false → free →
        exec (.barwait sc a) s = s.waits ((record { r with arrived := true } n).sendBarrier s.cur w .arrive))
      ∧ (r.arrived = true → s.contextShed s.cur = true → s.sfuBusy s.cur = false →
        exec (.barwait sc a) s = s.waits (s.acting.holdShed s.cur))
      ∧ (r.arrived = true → s.contextShed s.cur = false → s.barrierOpsOut s.cur = false → (s.barrierAt w).ph ≠ r.phase →
        s.does (exec (.barwait sc a) s) sc
          (record (if r.joined then { r with arrived := false } else BarrierRecord.reset) n)))
    ∧ checked [.g a] (.bardrop sc a) (free →
      match x.record w with
      | none => s.does (exec (.bardrop sc a) s) sc (s.acting.sendBarrier s.cur w (.drop true))
      | some n => s.does (exec (.bardrop sc a) s) sc
          ((record BarrierRecord.reset n).sendBarrier s.cur w (.drop (!x.barriers[n].arrived))))

/-- R269, R270: LWATCH arms a watch on a line, 32 to a tile; LWAIT that begins without a watch or event ends with 3, and otherwise with 0
after a trigger, 2 after a spurious event, 1 when its limit of timebase ticks is reached; it gives its watches up. A replay
repeats the logged result (R322). -/
def Obligations.MonitorsWatchAndWait : Prop :=
  ∀ (sc : BitVec 3) (d a : BitVec 5) (s : State),
    let x := s.self
    let v := hartVt s.cur
    let va := x.finalG a
    let watches := (s.tile v).watches
    let mine := watches.filter fun w => w.hart == s.cur
    (isSup s.cur = false → s.canIssue (reachOp [.g a] [] 0) →
      match s.acting.locate (s.acting.ctx s.cur) va .load true with
      | (u, .error c) => s.placeless u (exec (.lwatch sc a) s) c va
      | (u, .ok l) =>
        if ∃ w ∈ watches, w.hart = s.cur ∧ w.place.line = l.place.line then s.does (exec (.lwatch sc a) s) sc u
        else if 32 ≤ watches.length then exec (.lwatch sc a) s = .next (s.acting.raise s.cur .lwatchFull va)
        else s.does (exec (.lwatch sc a) s) sc (u.onTile v fun t => { t with
          watches := t.watches ++ [{ hart := s.cur, place := l.place, trig := false, registered := false }] }))
    ∧ (s.canIssue (reachOp [.g a] [.g d] 0) →
      let t0 := x.lwaitSince.getD s.tick
      let limit : Option Nat := if va = ~~~0 then none else some (t0 + va.toNat)
      let ends (result : Word) : Prop :=
        let u := (s.acting.onTile v fun t => { t with watches := t.watches.filter fun w => w.hart != s.cur }).onHart s.cur
          fun y => { y with lwaitSince := none, lwaitUntil := none, lwaitExpired := false, lwaitSpurious := false }
        let logged := u.loggedResult s.cur result
        s.does (exec (.lwait sc d a) s) sc (logged.1.postG d logged.2)
      if x.lwaitSince = none ∧ mine = [] ∧ x.lwaitSpurious = false then ends 3
      else if (s.replayed s.cur).isSome = true then ends 1
      else if ∃ w ∈ mine, w.trig = true then ends 0
      else if x.lwaitSpurious = true then ends 2
      else if x.lwaitExpired = true ∨ (∃ l, limit = some l ∧ l ≤ s.tick) then ends 1
      else exec (.lwait sc d a) s = s.waits (s.acting.onHart s.cur fun y => { y with lwaitSince := some t0, lwaitUntil := limit }))

/-- R271, R272: the counter instructions check the counter's number and tenant; CNTADD sends the signed change behind earlier
writes, CNTREAD writes value and mark, CNTWAIT ends at the threshold, CANCEL ends once the level is marked or holds 0. -/
def Obligations.CounterInstructions : Prop :=
  ∀ (sc : BitVec 3) (d a b : BitVec 5) (s : State),
    let w := s.self.finalG a
    let n := s.self.finalG b
    let id := w.toNat / 4096 % 64 * 4096 + w.toNat % 4096
    let c := s.counter id
    let checked (i : Instr) (go : Prop) : Prop :=
      if 2 ^ 18 ≤ w.toNat ∨ 48 ≤ w.toNat / 4096 % 64 then exec i s = .next (s.acting.raise s.cur .illegal (s.word.zeroExtend 64))
      else if s.self.mode ≠ .firmware ∧ c.tenant ≠ some s.self.csr.tenant then
        exec i s = .next (s.acting.raise s.cur .tenantViol w)
      else go
    (s.canIssue (reachOp [.g a, .g b] [] 0) →
      checked (.cntadd sc a b)
        (if n.toInt < -2 ^ 31 ∨ 2 ^ 31 ≤ n.toInt then
            exec (.cntadd sc a b) s = .next (s.acting.raise s.cur .illegal (s.word.zeroExtend 64))
          else if s.released s.cur 3 = true ∧ s.roomItems s.cur 1 = true then
            s.does (exec (.cntadd sc a b) s) sc (s.acting.sendItem s.cur (.dieSup (id / 4096))
              (.counterUpdate id n.toInt s.self.csr.launchid (some s.cur) none none) .assured)
          else exec (.cntadd sc a b) s = s.waits s.acting)
      ∧ checked (.cntwait sc a b)
        (if c.value.toNat ≤ n.toNat % 2 ^ 32 then s.writes (exec (.cntwait sc a b) s) sc s.self.settledRegs
          else exec (.cntwait sc a b) s = s.waits s.acting))
    ∧ (s.canIssue (regOp [.g a] [.g d] 0) → checked (.cntread sc d a)
      (s.writes (exec (.cntread sc d a) s) sc
        (s.withG d (BitVec.ofNat 64 (c.value.toNat + 2 ^ 32 * (s.isMarked id).toNat)))))
    ∧ (s.canIssue (reachOp [.g a] [] 0) → checked (.cancel sc a)
      (if s.isMarked id = true ∨ c.value = 0 then s.writes (exec (.cancel sc a) s) sc s.self.settledRegs
        else s.cancelOut s.cur id = false → s.roomItems s.cur 1 = true →
          exec (.cancel sc a) s = s.waits (s.acting.sendItem s.cur (.dieSup (id / 4096)) (.cancel id s.self.csr.launchid) .assured)))

/-! ### The data engine and MREQ -/

/-- R117, R118, R128: SUBMIT and SUBMIT.B. A full FIFO makes SUBMIT wait and SUBMIT.B answer 1; a card that fails its checks sets
its tag's error and posts a fault record; an accepted card captures the hart's context and raises its tag's count.
R124, R125, R130: TMAP fetches a descriptor; the tag instructions look at or clear the hart's completion tags; in a replay WAITANY
and FFTAG repeat the logged tags once they are complete again (the model's reading, notes/assumptions/33.md).
R94-R96: MBIND binds or unbinds a reply tag; MREQ checks its operands, translates its source as a load and goes out with its
binding, holding a c3 slot of the hart bound. -/
def Obligations.EngineInstructions : Prop :=
  (
    ∀ (sc : BitVec 3) (d a : BitVec 5) (s : State), isSup s.cur = false →
      let x := s.self
      let dw := (List.range 4).map fun j => x.finalG (a + BitVec.ofNat 5 j)
      let reads := (List.range 4).map fun j => Reg.g (a + BitVec.ofNat 5 j)
      let tag := (dw.getD 0 0).toNat / 256 % 64
      let opc := (dw.getD 0 0).toNat % 256
      let idle := entryAt x.tagCount tag 0 = 0
      let each (b : Bool) (i : Instr) : Prop :=
        let result (t : State) (v : Word) : State := if b then t.postG d v else t
        s.canIssue (reachOp reads (if b then [.g d] else []) 0) →
          if 16 ≤ x.fifo.length then (if b then s.writes (exec i s) sc (s.withG d 1) else exec i s = s.waits s.acting)
          else if s.released s.cur 3 = false then exec i s = s.waits s.acting
          else match s.acting.cardCheck s.cur dw with
            | some c => s.roomItems s.cur 1 = true →
              s.does (exec i s) sc (result ((s.acting.onHart s.cur fun y => { y with csr := { y.csr with
                  tagerr := setBit y.csr.tagerr tag true
                  tags := if idle then setBit y.csr.tags tag true else y.csr.tags } }).cardFault s.cur dw 0 0 c x.csr.tenant
                x.csr.launchid) 2)
            | none => s.does (exec i s) sc (result (s.acting.onHart s.cur fun y =>
                { y with
                  csr := if idle then { y.csr with
                      tags := setBit y.csr.tags tag false, tagerr := setBit y.csr.tagerr tag false } else y.csr
                  tagCount := onAt y.tagCount tag (· + 1)
                  fifo := y.fifo ++ [({ id := accId s.cur x.seq, hart := s.cur, dw := dw, iset := x.csr.iset, tenant := x.csr.tenant
                                        mode := x.mode
                                        map := if opc = 2 ∨ opc = 3 then
                                            (s.tile (hartVt s.cur)).tmaps.find ((dw.getD 0 0).toNat / 2 ^ 16 % 32)
                                          else none } : Card)] }) 0)
      each false (.submit sc a) ∧ each true (.submitB sc d a)
  )
  ∧ (
    ∀ (sc : BitVec 3) (d a i : BitVec 5) (s : State),
      let x := s.self
      let m := x.finalG a
      let hit := x.csr.tags &&& m
      let idle := ∀ t, t < 64 → m.getLsbD t = true → entryAt x.tagCount t 0 = 0
      let logs (e : Instr) (w : Word) : Prop :=
        let logged := s.acting.loggedResult s.cur w
        s.does (exec e s) sc (logged.1.postG d logged.2)
      (s.canIssue (reachOp [.g a] [] 0) →
        (isSup s.cur = false → if m.toNat % 64 ≠ 0 then exec (.tmap sc a i) s = .next (s.acting.raise s.cur .misalign m)
          else s.loads (exec (.tmap sc a i) s) sc .load (.tmap i m) none [(m, 64, 0)])
        ∧ (idle → s.writes (exec (.waitall sc a) s) sc x.settledRegs)
        ∧ (¬ idle → exec (.waitall sc a) s = s.waits s.acting)
        ∧ ∃ t, exec (.clrtag sc a) s = .next t ∧ s.retires t sc (x.pc + 4) x.settledRegs
            { x.csr with tags := x.csr.tags &&& ~~~m, tagerr := x.csr.tagerr &&& ~~~m })
      ∧ (s.canIssue (reachOp [.g a] [.g d] 0) →
        let old := s.replayed s.cur
        let ready : Prop := match old with
          | some r => x.csr.tags &&& r = r
          | none => hit ≠ 0 ∨ idle
        let found : Prop := ∀ r, old = some r → r.toNat < 64 → x.csr.tags.getLsbD r.toNat = true
        (ready → logs (.waitany sc d a) hit)
        ∧ (¬ ready → exec (.waitany sc d a) s = s.waits s.acting)
        ∧ (found → ∃ r, logs (.fftag sc d a) r ∧ (hit = 0 → r = 64)
          ∧ ∀ k, k < 64 → hit.toNat % 2 ^ (k + 1) = 2 ^ k → r = BitVec.ofNat 64 k)
        ∧ (¬ found → exec (.fftag sc d a) s = s.waits s.acting))
  )
  ∧ (
    ∀ (sc : BitVec 3) (a b : BitVec 5) (s : State), isSup s.cur = false → s.canIssue (reachOp [.g a, .g b] [] 0) →
      let v := hartVt s.cur
      let tile := s.tile v
      let x := s.self.finalG a
      let y := s.self.finalG b
      (let cls := y.toNat % 256
       if 64 ≤ x.toNat ∨ 2048 ≤ y.toNat ∨ (y.getLsbD 10 = true ∧ (cls < 0x10 ∨ cls = 0xFF)) then
          exec (.mbind sc a b) s = .next (s.acting.raise s.cur .illegal (s.word.zeroExtend 64))
        else s.does (exec (.mbind sc a b) s) sc (s.acting.onTile v fun t => { t with
          replyTags := if y.getLsbD 10 then t.replyTags.put x.toNat
              { cls := BitVec.ofNat 8 cls, hart := BitVec.ofNat 2 (y.toNat / 256) }
            else t.replyTags.erase x.toNat }))
      ∧ (let tag := tile.replyTags.find (y.toNat / 2 ^ 29 % 64)
         match mreqTrap (s.word.zeroExtend 64) x y tag.isSome with
         | some (c, tval) => exec (.mreq sc a b) s = .next (s.acting.raise s.cur c tval)
         | none => ∀ r, tag = some r →
           match s.acting.locate (s.acting.ctx s.cur) x .load true with
           | (u, .error c) => s.placeless u (exec (.mreq sc a b) s) c x
           | (u, .ok l) =>
             if (s.hart (v * 4 + r.hart.toNat)).freeReplies = 0 ∨ tile.cond = .drain ∨ s.roomItems s.cur 1 = false then
               exec (.mreq sc a b) s = s.waits s.acting
             else s.does (exec (.mreq sc a b) s) sc (u.issueMreq x y r l.place))
  )

/-! ### The matrix array -/

/-- R81, R188, R191, R194, R196, R197: each MMA form. A bank not its own is illegal; in U mode the bank must belong to the
context; each ring must be enabled, the hart's own and of the form's entry size; the scale registers are read at issue. No bank
is a supervisor hart's own (the model's reading, notes/assumptions/61.md). -/
def Obligations.MmaFormsEnterTheArrayQueue : Prop :=
  ∀ (sc : BitVec 3) (n : BitVec 2) (r q : BitVec 3) (f : BitVec 5) (z : BitVec 1) (s : State),
    let tile := s.tile (hartVt s.cur)
    let own := isSup s.cur = false ∧ n.toNat = hartSlot s.cur
    let fit (ring : BitVec 3) (size : Nat) : Prop :=
      let c := entryAt tile.ringcfg ring.toNat 0
      c.getLsbD 39 = true ∧ tile.ringown.toNat / 4 ^ ring.toNat % 4 = hartSlot s.cur ∧ c.toNat / 2 ^ 24 % 256 = size
    let scale (i : BitVec 5) : Word := BitVec.ofNat 64 (f32.unbox (s.self.finalF i))
    ∀ e ∈ ([(.mmaBf sc n r q z, .bf, [], 64, 64), (.mmaHf sc n r q z, .hf, [], 64, 64)
      , (.mmaE44 sc n r q f z, .e44, [f, f + 1], 64, 64), (.mmaE45 sc n r q f z, .e45, [f, f + 1], 64, 64)
      , (.mmaE55 sc n r q f z, .e55, [f, f + 1], 64, 64), (.mmaI8 sc n r q z, .i8, [], 64, 64)
      , (.mmaNb sc n r q f z, .nb, [f], 128, 33), (.mmaNe sc n r q f z, .ne, [f, f + 1], 64, 33)]
        : List (Instr × MmaForm × List (BitVec 5) × Nat × Nat)),
      s.canIssue (reachOp (e.2.2.1.map .f) [] 0) →
      (¬ own → exec e.1 s = .next (s.acting.raise s.cur .illegal (s.word.zeroExtend 64)))
      ∧ (own → s.self.mode = .user → s.self.accValid = false →
        exec e.1 s = .next (s.acting.raise s.cur .matrixUnavail 8))
      ∧ (own → (s.self.mode = .user → s.self.accValid = true) →
        (r = q ∨ ¬ fit r e.2.2.2.1 → exec e.1 s = .next (s.acting.raise s.cur .ringFault (r.zeroExtend 64)))
        ∧ (r ≠ q → fit r e.2.2.2.1 → ¬ fit q e.2.2.2.2 → exec e.1 s = .next (s.acting.raise s.cur .ringFault (q.zeroExtend 64)))
        ∧ (r ≠ q → fit r e.2.2.2.1 → fit q e.2.2.2.2 → ∃ s0 s1 : Word,
          (∀ i, e.2.2.1[0]? = some i → s0 = scale i) ∧ (∀ i, e.2.2.1[1]? = some i → s1 = scale i)
          ∧ s.commands (exec e.1 s) sc fun t =>
            t.enqueueArray s.cur (.mma e.2.1 r.toNat q.toNat (z == 1) s0 s1) none))

/-- R202, R203, R205: bank control, MDRAIN and the ring instructions enter the array queue as their own commands, after their
checks in order; an MDRAIN keeps a place of the send queue for its wake from before its waits on. No bank or ring is a supervisor hart's own (the model's reading, notes/assumptions/61.md). -/
def Obligations.BankAndRingCommandsEnterTheQueue : Prop :=
  ∀ (sc : BitVec 3) (n : BitVec 2) (m r : BitVec 3) (c : BitVec 4) (d a b : BitVec 5) (s : State),
    let x := s.self
    let h := s.cur
    let tile := s.tile (hartVt h)
    let word : Word := m.zeroExtend 64
    let owns (i : Instr) (go : Prop) : Prop :=
      if isSup h = true ∨ n.toNat ≠ hartSlot h then exec i s = .next (s.acting.raise h .illegal (s.word.zeroExtend 64))
      else if x.mode = .user ∧ x.accValid = false then exec i s = .next (s.acting.raise h .matrixUnavail 8)
      else go
    let shaped (i : Instr) (go : Prop) : Prop :=
      if x.mRows m = 0 then exec i s = .next (s.acting.raise h .mregUnconfig word)
      else if x.mRows m ≠ 16 ∨ x.mWidth m ≠ 64 then exec i s = .next (s.acting.raise h .illegal (s.word.zeroExtend 64))
      else go
    let ring (i : Instr) (go : Prop) : Prop :=
      if isSup h = false ∧ (entryAt tile.ringcfg r.toNat 0).getLsbD 39 = true
          ∧ tile.ringown.toNat / 4 ^ r.toNat % 4 = hartSlot h then
        if s.arrayPlace h then go else exec i s = s.waits s.acting
      else exec i s = .next (s.acting.raise h .ringFault (r.zeroExtend 64))
    (s.canIssue (reachOp [] [] 0) →
      owns (.mzero sc n) (s.commands (exec (.mzero sc n) s) sc fun t => t.enqueueArray h .mzero none)
      ∧ ring (.rpop sc r) (s.does (exec (.rpop sc r) s) sc (s.acting.enqueueArray h (.rpop r.toNat) none)))
    ∧ (s.canIssue (reachOp [] [.g d] 0) → ring (.rstat sc d r)
      (s.does (exec (.rstat sc d r) s) sc (s.acting.enqueueArray h (.rstat r.toNat d) (some x.snapshot))))
    ∧ (s.canIssue (reachOp [] [.m m] 0) → owns (.maccget sc m n c)
      (if x.mode = .user ∧ x.mValid.getLsbD m.toNat = false then
          exec (.maccget sc m n c) s = .next (s.acting.raise h .matrixUnavail word)
        else shaped (.maccget sc m n c)
          (s.commands (exec (.maccget sc m n c) s) sc fun t => t.enqueueArray h (.maccget m c) none)))
    ∧ (s.canIssue (reachOp [.m m] [] 0) → owns (.maccput sc n m c) (shaped (.maccput sc n m c)
      (s.commands (exec (.maccput sc n m c) s) sc fun t =>
        t.enqueueArray h (.maccput (x.m[m.toNat]'m.isLt).toList c) none)))
    ∧ (s.canIssue (reachOp [.g a, .g b] [] 0) → owns (.mdrain sc n a b)
      (match s.acting.drainTrap (x.finalG a) (x.finalG b) with
        | some (cause, tval) => exec (.mdrain sc n a b) s = .next (s.acting.raise h cause tval)
        | none =>
          let kept := s.acting.reserveDrain (x.finalG a) (x.finalG b)
          if s.roomItems h 1 then
            s.commandsFrom kept (exec (.mdrain sc n a b) s) sc fun t => t.enqueueDrain (x.finalG a) (x.finalG b)
          else exec (.mdrain sc n a b) s = s.waits kept))

/-! ### Homes, and what keeps them -/

/-- R92, R93, R97, R135, R136, R154, R215, R28, R51: a posted store changes exactly its bytes when it reaches its home; a part that
nothing keeps joins its channel's queue; a load's part takes the bytes there, free ones where the rules state none
(notes/assumptions/32.md), and changes none; an AMO's part takes the old bytes and writes R215's result; the answers write the
register or trap MEM_ERROR at the lowest bad address; a load on an empty line is sent again after its 64 cycles and traps at its
lowest such address after FEWAIT. A word that names no instruction traps ILLEGAL. -/
def Obligations.HomesPerformLineRequests : Prop :=
  ∀ (s : State) (h id i : Nat) (a : Access) (p : Part) (w : Posted) (w32 : BitVec 32),
    let sound (q : Place) : Prop := Memory.wf s.mem = true ∧ s.unreadable q = false ∧ ∀ v, q.home = .slice v → (s.tile v).flips = []
    let put (q : Place) (bs : List (Option Byte)) (k : Nat) : Byte :=
      if q.key ≤ k then (((bs[k - q.key]?).join).getD (memByte s.mem k)) else memByte s.mem k
    let bytes := memBytes s.mem p.place.key p.len
    let statusAt (t : State) : Option PartStatus := (((t.hart h).access id).bind (·.parts[i]?)).map (·.status)
    let free : Prop := (s.hart h).access id = some a ∧ (∀ o ∈ (s.hart h).flights, o.id = id → o = a)
      ∧ a.parts[i]? = some p ∧ p.status = .sent ∧ p.released = true
      ∧ s.serves h p.place = true ∧ s.inTurn h p.place p.via p.seq = .inTurn ∧ a.blocked = false
      ∧ (∀ o ∈ (s.hart h).posted, o.meetsPart a p = false)
      ∧ (∀ o ∈ (s.hart h).flights, o.seq < a.seq → o.holdsBack h a p = false)
      ∧ (ownPlace h p.place = true ∨ p.place.isSlice = false ∨ (s.tile (hartVt h)).cond ≠ .replay)
    let arrives : Prop := free ∧ s.hbmReady id i p.place = true ∧ s.answerRoom h p.place = true
    let answered (found : List Byte) : PartStatus := match p.place.home with
      | .slice v => if isSup h = true ∨ v = hartVt h then .done found else .held found
      | _ => .done found
    exec (.reservedEncoding w32) s = .next ({ s with word := w32 }.raise s.cur .illegal (w32.zeroExtend 64))
    ∧ ((s.hart h).access id = none → (s.hart h).posted.find? (fun o => o.id == id) = some w → w.released = true →
      s.serves h w.place = true → s.hbmReady id 0 w.place = true → s.inTurn h w.place w.via w.seq = .inTurn →
      (∀ o ∈ (s.hart h).posted.takeWhile (fun o => o.id != id), o.meets w = false) → sound w.place →
      ∀ data, w.op = .store data →
        ∃ t, exec (.homeLineRequest h id i) s = .next t ∧ (∀ k, memByte t.mem k = put w.place data k)
          ∧ (t.hart h).posted = (s.hart h).posted.filter fun o => o.id != id)
    ∧ (free → s.hbmQueued id i p.place = false →
      exec (.homeLineRequest h id i) s = .next (s.enqueueHbm (hartVt h) id i p.place))
    ∧ (arrives → sound p.place → a.op = .load →
      (∀ v, p.place.home = .slice v → isSup h = false → (s.tile v).isEmpty p.place.off = false) →
        ∃ t found, exec (.homeLineRequest h id i) s = .next t ∧ (∀ k, memByte t.mem k = memByte s.mem k)
          ∧ statusAt t = some (answered found) ∧ found.length = p.len ∧ (p.place.unstated = false → found = bytes))
    ∧ (arrives → sound p.place → ∀ op dword b c, a.op = .amo op dword b c →
        ∃ t found, exec (.homeLineRequest h id i) s = .next t ∧ statusAt t = some (answered found)
          ∧ (p.place.unstated = false → found = bytes)
          ∧ ∀ k, memByte t.mem k = match amoNew op dword b c (bytesNat found) with
            | some new => put p.place (solid (natBytes p.len new)) k
            | none => memByte s.mem k)
    ∧ ((s.hart h).access id = some a → s.answersOf h id = [] →
      (∀ o ∈ (s.hart h).flights, o.seq < a.seq → o.op.waits = false
        ∨ ∀ q ∈ o.parts, q.place.isSlice = false ∨ q.status.performed = true) →
      (∀ d n sg, a.dst = .g d n sg → (∀ q ∈ a.parts, ∃ bs, q.status = .done bs) →
        exec (.accessAnswer h id) s = .next (s.setHart h
          (((s.hart h).endAccess a.id).writeResult a.seq (.g d) ((loadValue n sg (a.data n)).zeroExtend 512))))
      ∧ (a.performed = true → (∀ scope, a.dst ≠ .fence scope) → ∀ q ∈ a.parts, q.status = .bad →
        ∃ m : Nat, (∃ r ∈ a.parts, r.status = .bad ∧ a.lowest r = m) ∧ (∀ r ∈ a.parts, r.status = .bad → m ≤ a.lowest r)
          ∧ exec (.accessAnswer h id) s = .next (s.onHart h fun x => x.accessTrap id .memError (BitVec.ofNat 64 m))))
    ∧ ((∀ b bs, (s.hart h).board = b :: bs → exec (.resultWritten h) s = .next (s.setHart h
          ({ s.hart h with board := bs }.writeResult b.seq b.dst b.val)))
      ∧ ∀ f, (s.hart h).board = [] → (s.hart h).fixed = [f] → f.written = false →
        exec (.resultWritten h) s = .next (s.setHart h { s.hart h with
          regs := (s.hart h).regs.write f.dst (f.val.zeroExtend 512), fixed := [{ f with written := true }] }))
    ∧ ((s.hart h).access id = some a →
      (∀ at_, a.parts[i]? = some p → p.status = .retry at_ → at_ ≤ s.cycle (hartVt h) →
        exec (.feLoadRetry h id i) s = .next (s.setPart h id i .sent))
      ∧ (∀ c, a.since = some c → c + (s.tile (hartVt h)).feWait ≤ s.cycle (hartVt h) → ∀ q ∈ a.parts, s.partEmpty q = true →
        ∃ m : Nat, (∃ r ∈ a.parts, s.partEmpty r = true ∧ a.lowest r = m)
          ∧ (∀ r ∈ a.parts, s.partEmpty r = true → m ≤ a.lowest r)
          ∧ exec (.feTimeout h id) s
            = .next ((s.withdraw h id).onHart h fun x => x.accessTrap id .feTimeout (BitVec.ofNat 64 m))))

/-- R97-R99, R110, R142, R143, R269, R270: batches mark the oldest requests of each source and bank; mitigation clears a row's
count; the patrol logs an uncorrectable line; a scrub mends a flipped bit or fails the tile; walks, watches and the timeout of
LWAIT. The model's own choices: the form of a logged entry (notes/assumptions/73.md), the number by which a register write names
a row's count (notes/assumptions/13.md), and the place of rows, banks and channels in a stack (notes/assumptions/9.md). -/
def Obligations.HomesAreKept : Prop :=
  ∀ (s : State) (v d c bank row off i h : Nat) (f : PatrolFinding) (corrupt : Bool) (va : Word) (kind : AccessKind),
    let row128 := off % 2 ^ 22 / 128 * 128
    let ch := (s.die d).channels.get c default
    let setChannel (y : Channel) : State := s.onDie d fun x => { x with channels := x.channels.put c y }
    let w := (s.tile (hartVt h)).watches[i]?
    let lineOff := channelLine c (ch.patrolled % channelLines)
    let p := hbmPlace d lineOff
    (∀ o b, (s.tile v).flips = [(o, b)] → o % 8 = 0 → row128 ≤ o → o < row128 + 128 →
      let key := sliceKey v (o + b / 8)
      exec (.sramScrub v off) s = .next (({ s with mem := memPut s.mem key (memByte s.mem key ^^^ BitVec.ofNat 8 (2 ^ (b % 8))) }.setTile v
        { s.tile v with flips := [] }).countError v))
    ∧ ((s.tile v).sramLost row128 128 = true → (s.tile v).failed = false →
      exec (.sramScrub v off) s = .next ((s.onTile v fun t => { t with failed := true }).countError v))
    ∧ (d < 48 → c < 32 → (∀ r ∈ ch.queue, r.marked = false) → s.mitigating ch = false →
      ∃ q, exec (.hbmBatchForm d c) s = .next (setChannel
          { ch with queue := q, batch := (q.filter (·.marked)).map fun r => (r.source, r.bank) })
        ∧ ∀ j, q[j]? = (ch.queue[j]?).map fun r =>
          let older := (ch.queue.take j).countP fun o => o.source == r.source && o.bank == r.bank
          { r with marked := decide (older < s.hbm.batchCap) })
    ∧ (row < 2 ^ 20 → (corrupt = true ∨ s.hbm.actTh ≤ ch.activations.get (bank * 2 ^ 20 + row) 0) →
      exec (.refreshManagement d c bank (if corrupt then 2 ^ 20 + row else row)) s = .next (s.onDie d fun x =>
        let y := { x with channels := x.channels.put c { ch with activations := ch.activations.erase (bank * 2 ^ 20 + row) } }
        if corrupt then y.logCorrupt c bank row else y))
    ∧ (d < 48 → c < 32 → s.patrolDue ch ≤ s.tick → s.hbmAdmits .patrol p = true →
      let t := ((s.joinBatch .patrol p).openRow p).onDie d fun x =>
        let y := x.channels.get c default
        { x with channels := x.channels.put c { y with patrolled := y.patrolled + 1 } }
      exec (.patrolRead d c f) s = .next (match f with
        | .uncorrectable =>
          { t.onDie d fun x => x.logLine 0xFFF 0 lineOff with badLines := insertNat s.badLines (hbmKey d lineOff / 128) }
        | .corrected => t.onDie d fun x => { x with corrected := x.corrected + 1 }
        | .clean => t))
    ∧ (isSup h = false → exec (.pageWalk h va kind) s = .next (s.locate (s.ctx h) va kind true).1)
    ∧ (∀ x, w = some x → x.hart = h →
      ((∀ e, x.die = some e → s.directory e < 512) →
        exec (.watchRegister h i) s = .next (s.onTile (hartVt h) fun t =>
          { t with watches := t.watches.set i { x with registered := true } }))
      ∧ ∀ e, x.die = some e → 512 ≤ s.directory e → x.registered = true →
        exec (.watchEvict h i) s = .next ((s.onTile (hartVt h) fun t => { t with watches := t.watches.eraseIdx i }).onHart h
          fun y => { y with lwaitSpurious := true }))
    ∧ ∀ l, (s.hart h).lwaitSince.isSome = true → (s.hart h).lwaitUntil = some l → l ≤ s.tick →
      exec (.lwaitTimeout h) s = .next (s.setHart h { s.hart h with lwaitExpired := true })

/-! ### Messages, counters and barriers on their way -/

/-- R128, R241, R246, R247, R280, R318: a message on its last hop is discarded where a router shuts its tenant out, dropped as a
duplicate, returned out of turn, refused while the tile stops or the channel is full, otherwise placed in its channel and accepted;
a reply takes a reserved slot or is discarded with a record; a system message waits for room without keeping its stream;
supervisors take theirs into the mailbox, where a record that finds no room is counted. The model's own readings: the route is
checked at arrival, and a message discarded there has its number accepted and no answer (notes/assumptions/17.md); what a VT in
clock-loss hold accepts (notes/assumptions/18.md). -/
def Obligations.MessagesArriveOrComeBack : Prop :=
  ∀ (s : State) (id : Nat) (p : Packet) (dest : Word) (m : Msg) (sender entry : Option Nat) (spawn : Bool),
    s.packet id = some p → p.body = .message dest m sender entry spawn → p.outOfTurn = false →
    let v := destVt dest
    let h := v * 4 + destHart dest
    let c := destChan dest
    let r := exec (.messageArrival id) s
    let k := s.capture v (.item id)
    let x := k.hart h
    let gate := (k.tile v).mailGate
    let gone (u : State) : State := (u.acceptPacket p).dropPacket p.id
    let through : Prop := k.delivers p.src v m.header = true
    (p.dst = .tile v →
      (¬(through ∧ gate = .waits) →
        (k.verdict p = .duplicate → r = .next ((k.dropPacket id).acceptAnswer p sender entry spawn))
        ∧ (k.verdict p = .outOfTurn → r = .next (k.returnPacket id)))
      ∧ (k.verdict p = .inTurn →
        (¬through → r = .next ((gone k).postPanelEvent (vtDie v) (hdrTenant m.header) (hdrLaunch m.header)
          [m.header, 0, 0, 0, 0] (kind3 (hdrVt m.header) (hdrHart m.header) 0x0F)))
        ∧ (through → sender.isSome = true → hdrVnet m.header = 0 → gate ≠ .waits →
          let f := if gate = .takes ∧ (k.tile v).cond = .hold then k.freeBelow 2 else (0, k)
          r = .next (if gate = .takes ∧ (entryAt x.chans c []).length < 8 ∧ f.1 ≠ 1 then
            ((gone f.2).place h c m p.src.number).acceptAnswer p sender entry spawn
            else (f.2.dropPacket p.id).refuseAnswer p sender entry spawn))
        ∧ (through → sender.isSome = true → hdrVnet m.header = 1 → gate = .takes →
          (x.csr.replyres = 0 → (k.tile v).hasRoom 64 = true → r = .next (k.strayReply p v (destHart dest) m sender entry))
          ∧ (x.csr.replyres ≠ 0 → r = .next (((gone (k.setHart h { x with csr := { x.csr with replyres := x.csr.replyres - 1 } })).place
              h 3 m p.src.number).acceptAnswer p sender entry spawn)))
        ∧ (through → sender = none ∨ 2 ≤ hdrVnet m.header → gate = .takes →
          r = .next (if (c = 3 ∧ 16 ≤ (entryAt x.chans 3 []).length + x.csr.replyres)
              ∨ (c ≠ 3 ∧ 8 ≤ (entryAt x.chans c []).length) ∨ k.heldBefore p dest = true then k.holdMail p
            else ((gone k).place h c m p.src.number).acceptAnswer p sender entry spawn))))
    ∧ (∀ d, p.dst = .dieSup d → s.verdict p = .inTurn →
      let t := (gone s).acceptAnswer p sender entry false
      ((s.die d).mailbox.length < Config.mailboxSlots →
        r = .next (t.onDie d fun y => { y with mailbox := y.mailbox ++ [(p.src, senderHart m, m)] }))
      ∧ (Config.mailboxSlots ≤ (s.die d).mailbox.length → hdrClass m.header = 0x0F →
        ∃ u, r = .next u ∧ (u.die d).lostRecords = (t.die d).lostRecords + 1 ∧ (u.die d).mailbox = (t.die d).mailbox
          ∧ ∀ o ∈ (u.die d).dumps, o.started = true → o.incomplete = true))
    ∧ (p.dst = .panelSup → s.verdict p = .inTurn →
      let t := (gone s).acceptAnswer p sender entry false
      r = .next (if hdrClass m.header ∈ [0, 1, 7] then { t with supMailbox := t.supMailbox ++ [(p.src, senderHart m, m)] } else t))

/-- R240-R242, R247, R249, R264, R266, R318: answers reach the sender's queue and its tile's log, a refused entry goes again
after RETRYGAP or, past RETRYMAX, is undeliverable; returned and void items; a counter update that stays in range changes its
counter and is acknowledged; a barrier operation changes its entry as R266 says. The model's own choices: barrier operations are
logged at their home, and an arrival's phase at its hart's tile (notes/assumptions/45.md); MEMBERS less a greater PEND is taken
modulo 2^16 (notes/assumptions/44.md). -/
def Obligations.AnswersCountersAndBarrierOps : Prop :=
  ∀ (s : State) (id v h e : Nat) (p : Packet), s.packet id = some p →
    let logged (b : PacketBody) : State := ((s.capture v (.item p.id)).dropPacket p.id).logAt v v (.answer b)
    let open_ : Prop := p.dst = .tile v ∧ (s.tile v).gate = .takes ∧ (s.tile v).hasRoom 64 = true
    (open_ → p.body = .bounce h e → ∀ q, (s.hart h).sendq.find? (fun o => o.id == e) = some q →
      exec (.bounceReturn id) s = .next (if q.refusals + 1 ≤ (s.hart h).csr.retrymax.toNat then
        (logged p.body).onHart h fun x => { x with sendq := x.sendq.map fun (o : SendEntry) => if o.id = q.id then
          { o with state := .bounced (s.cycle (hartVt h) + (s.hart h).csr.retrygap.toNat), refusals := q.refusals + 1 } else o }
        else (logged p.body).undeliverable h q))
    ∧ (open_ → p.body = .acceptance h e → exec (.sendAcceptance id) s = .next ((logged p.body).dropSend h e))
    ∧ (∀ accepted, open_ → p.body = .spawnAnswer h e accepted → ∀ q, (s.hart h).sendq.find? (fun o => o.id == e) = some q →
      let l := if accepted then logged p.body else (logged p.body).voidEntry h q
      let told (o : SpawnLatch) : SpawnLatch :=
        if o.armed = true ∧ o.entry = e then { o with answered := true, accepted := accepted } else o
      exec (.spawnAnswer id) s
        = .next ((l.onHart h fun x => { x with spawn := told x.spawn, spawnOuter := x.spawnOuter.map told }).dropSend h e))
    ∧ (∀ q t, (s.hart h).sendq.find? (fun o => o.id == e) = some q → q.state = .bounced t → t ≤ s.cycle (hartVt h) →
      isSup h = false → (s.tile (hartVt h)).sends = true →
      exec (.sendRetry h e) s = .next ((s.onHart h fun x => { x with
          sendq := x.sendq.map fun (o : SendEntry) => if o.id = e then { o with state := .sent } else o }).inject
        { id := 0, src := .tile (hartVt h), dst := destNode q.dest, body := .message q.dest q.msg (some h) (some q.id) q.spawn
          stream := q.seq.map fun _ => msgStream q.msg, seq := q.seq, outOfTurn := false }))
    ∧ (∀ c delta l hart entry mreq, p.body = .counterUpdate c delta l hart entry mreq → p.outOfTurn = false →
      s.verdict p = .inTurn →
      let n : Int := ((s.counter c).value.toNat : Int) + delta
      (0 < n → n < 2 ^ 32 →
        exec (.counterUpdate id) s = .next ((((s.acceptPacket p).dropPacket id).setCounter c
          { (((s.acceptPacket p).dropPacket id).counter c) with value := BitVec.ofInt 32 n }).counterReply p hart entry mreq))
      ∧ (n < 0 ∨ 2 ^ 32 ≤ n →
        exec (.counterUpdate id) s = .next ((((s.acceptPacket p).dropPacket id).counterFault c delta l hart).counterReply p
          hart entry mreq)))
    ∧ (∀ n vt, p.body = .counterAck (some h) (some e) (some n) vt → s.holdsAnswers p.dst = false →
      exec (.counterUpdateAck id) s = .next (((((s.dropPacket id).onHart h fun x => { x with
          sendq := x.sendq.map fun (o : SendEntry) => if o.id = e then { o with acked := true } else o }).pumpSends h 16).onTile vt
        fun t => { t with mreqs := t.mreqs.map fun (o : Mreq) => if o.id = n then { o with acked := true } else o }).finishMreq vt n))
    ∧ (∀ w op, p.body = .barrier w op h → p.dst = .tile v → p.outOfTurn = false → (s.tile v).gate = .takes →
      s.verdict p = .inTurn →
      let b := (s.tile v).barriers.get (w.toNat / 4096) { members := 0, arr := 0, pend := 0, ph := 0 }
      let b1 : Barrier := match op with
        | .init n => { members := n, arr := 0, pend := 0, ph := b.ph + 1 }
        | .join => { b with members := if b.members = 65535 then 65535 else b.members + 1 }
        | .arrive => { b with arr := b.arr + 1 }
        | .drop arrives => { b with arr := b.arr + (if arrives then 1 else 0), pend := b.pend + 1 }
      let b2 : Barrier := if b1.members ≤ b1.arr ∧ ¬ (b1.arr = 0 ∧ b1.pend = 0) then
        { members := b1.members - b1.pend, arr := 0, pend := 0, ph := b1.ph + 1 } else b1
      let t := (((s.acceptPacket p).dropPacket id).onTile v fun t =>
        { t with barriers := t.barriers.put (w.toNat / 4096) b2 }).logAt v (hartVt h) (.barrierOp w op)
      exec (.barrierOpApply id) s = .next (if op = .arrive then
        (t.logAt (hartVt h) v (.answer (.barrier w (.init b.ph) h))).recordPhase h w b.ph else t))
    ∧ (p.outOfTurn = true → s.verdict p ≠ .outOfTurn → (∀ a, p.body ≠ .addend a ∧ ∀ q, p.body ≠ .switchAddend a q) →
      exec (.outOfTurnResend id) s
        = .next { s with net := s.net.map fun q => if q.id = id then { q with outOfTurn := false } else q })
    ∧ (p.body = .void → exec (.voidMarker id) s = .next (match s.verdict p with
        | .inTurn => (s.acceptPacket p).dropPacket id
        | .duplicate => s.dropPacket id
        | .outOfTurn => s))

/-! ### Accumulates, the copy engine, the array -/

/-- R218-R224, R228-R230, R318: a unit takes a normal delivery, or sends it back when its source's quota or its queue is full or
its tile stops; an application replaces the 64 bytes of the target by their merge with the addend and nothing else; refusals
merge into the tail, outcomes end the wait, answers to what was sent before a rollback are discarded (R322); a switch merges into buffers and delivers them after 1 microsecond or 64 addends. -/
def Obligations.AccumulatesReachTheirUnit : Prop :=
  ∀ (s : State) (id v n port : Nat) (p : Packet) (a : Addend) (b : SwitchBuffer),
    let taken := (s.acceptPacket p).dropPacket p.id
    let k := s.capture v (.item p.id)
    let fresh := (k.tile v).freshQuota (s.cycle v)
    let accepts := fresh.quota.toNat % 256
    let limit := if 1 ≤ fresh.quota.toNat / 256 ∧ fresh.quota.toNat / 256 ≤ 32 then fresh.quota.toNat / 256 else 32
    let full : Prop := (accepts ≠ 0 ∧ accepts ≤ fresh.accepted.get a.srcVt 0) ∨ limit ≤ fresh.unitQueue.length
    let back (t : State) : State := t.inject
      { id := 0, src := p.dst, dst := a.home, body := .accBounce a, stream := none, seq := p.seq, outOfTurn := false }
    let logged := (k.dropPacket id).logAt v v (.answer p.body)
    let done (t : State) : State := match a.hart with
      | some h => t.onHart h fun x => { x with accs := x.accs.filter fun o => o != a.id }
      | none => t
    let buffer := s.switch.find? fun o => o.key == a.key && o.port == port
    (s.packet id = some p → p.body = .addend a → p.dst = .tile v → p.outOfTurn = false → s.verdict p = .inTurn →
      a.flush = false →
      ((k.tile v).gate = .refuses → exec (.accDeliveryArrival id) s
        = .next (back ((k.onTile v fun t => { t with accref := t.accref + 1 }).dropPacket p.id)))
      ∧ ((k.tile v).gate = .takes → full → exec (.accDeliveryArrival id) s
        = .next (back ((k.onTile v fun _ => { fresh with accref := fresh.accref + 1 }).dropPacket p.id)))
      ∧ ((k.tile v).gate = .takes → ¬ full → exec (.accDeliveryArrival id) s
        = .next (((k.onTile v fun _ => { fresh with
            unitQueue := fresh.unitQueue ++ [{ p with body := .addend { a with since := s.cycle v } }]
            accok := fresh.accok + 1
            accepted := fresh.accepted.put a.srcVt (fresh.accepted.get a.srcVt 0 + 1) }).acceptPacket p).dropPacket p.id)))
    ∧ (∀ ps, v < 3072 → (s.tile v).unitRuns = true → s.accServed (.tile v) a.key.place = true → (s.tile v).unitTurn = false →
      (s.tile v).unitQueue = p :: ps → p.body = .addend a → a.flush = false → Memory.wf s.mem = true →
      s.unreadable a.key.place = false → (∀ u, a.key.place.home = .slice u → (s.tile u).flips = []) →
      let key := a.key.place.key
      let new := mergeAcc a.key.cls (bytesV (memBytes s.mem key 64)) a.value
      ∃ t, exec (.accApply v) s = .next t ∧ (t.tile v).unitQueue = ps ∧ ∀ k, memByte t.mem k =
        if key ≤ k ∧ k < key + 64 then BitVec.ofNat 8 (new.toNat / 256 ^ (k - key)) else memByte s.mem k)
    ∧ (s.packet id = some p → p.dst = .tile v → (k.tile v).gate = .takes →
      (a.flush = false → a.hart = none → (p.body = .accBounce a → exec (.accBounce id) s = .next (k.dropPacket id))
        ∧ (p.body = .accOutcome a false → exec (.accOutcome id) s = .next (k.dropPacket id)))
      ∧ (p.body = .accBounce a → a.flush = false → k.awaits v a = true → (s.tile v).tail.length < 128 → p.seq = some n →
        exec (.accBounce id) s = .next (((done logged).tailMerge v a).sendVoid (.tile v) p.src .refusable n))
      ∧ (p.body = .accOutcome a false → k.awaits v a = true → exec (.accOutcome id) s = .next (if a.flush = true then
          logged.onTile v fun t => { t with flushes := t.flushes.filter fun f => f.id != a.id } else done logged)))
    ∧ exec (.quotaWindow v) s = .next (s.onTile v fun t =>
        let w := max 256 t.qwin.toNat
        { t with accepted := if s.cycle v / w = t.quotaAt / w then t.accepted else [], quotaAt := s.cycle v })
    ∧ (s.packet id = some p → p.body = .switchAddend a port → p.outOfTurn = false → s.verdict p = .inTurn →
      (port = 255 → exec (.switchAddend id) s = .next (taken.sendFree .switch a.home (.accOutcome a true)))
      ∧ (port ≠ 255 → buffer = none → exec (.switchAddend id) s = .next { taken with
          nextId := s.nextId + 1
          switch := s.switch ++ [{ id := s.nextId, key := a.key, value := a.value, va := a.va, addends := [a], since := s.tick
                                   refused := false, sent := false, port := port }] })
      ∧ (port ≠ 255 → buffer = some b → b.sent = false → b.refused = true ∨ b.addends.length < 64 → exec (.switchAddend id) s = .next { taken with
          switch := s.switch.map fun (o : SwitchBuffer) => if o.id = b.id then
            { b with value := mergeAcc a.key.cls b.value a.value, addends := b.addends ++ [a] } else o }))
    ∧ (s.switch.find? (fun o => o.id == n) = some b → b.sent = false →
      (b.refused = false → b.since + 1050 ≤ s.tick ∨ 64 ≤ b.addends.length →
        exec (.switchDeliver n) s = .next (s.sendBuffer b false))
      ∧ (b.refused = true → b.since + 1050 ≤ s.tick → exec (.switchResend n) s = .next (s.sendBuffer b true)))

/-- R94, R116, R119-R123, R127-R129, R141, R252: the window takes the next FIFO's head with its edges; a card starts once the cards
it depends on have left; a piece is read, a source line at a time and in an open order (the model's choice,
notes/assumptions/62.md), then written to the slice or put in the hold, its full/empty change as an item of its own; a fault keeps
its address, and the card goes on below it; released writes change their bytes only; a ring entry moves TAIL; completion clears
the tag; an MREQ's line is read at its home and then lands in the slice. What a rollback left in the ring and in the slice
(notes/assumptions/33.md) is the model's own. -/
def Obligations.CardsAndMreqsMoveTheirLines : Prop :=
  ∀ (s : State) (v id i j : Nat) (c : Card) (w : WindowCard) (cw : CardWrite) (m : Mreq) (p : Place),
    let x := s.tile v
    let order (k : Nat) : Nat := (x.lastAdmit + 1 + k) % 4
    let foot := x.footprints v c
    let conflicts (o : WindowCard) : Bool := meets o.foot.2 foot.1 || meets o.foot.1 foot.2 || meets o.foot.2 foot.2
    let put (q : Place) (bs : List (Option Byte)) (k : Nat) : Byte :=
      if q.key ≤ k then (((bs[k - q.key]?).join).getD (memByte s.mem k)) else memByte s.mem k
    (∀ k rest, k < 4 → i = order k → (∀ l, l < k → (s.hart (v * 4 + order l)).fifo = []) → (s.hart (v * 4 + i)).fifo = c :: rest →
      (x.cond = .running ∨ x.cond = .replay) → x.window.length < 64 →
      exec (.cardAdmit v) s = .next ((s.onHart (v * 4 + i) fun y => { y with fifo := rest }).setTile v { x with
        window := x.window ++ [{ card := c, edges := (x.window.filter conflicts).map fun o => o.card.id, started := false
                                 marks := [], pending := [], outgoing := [], entries := 0, fail := none, admitted := s.cycle v
                                 foot := foot }]
        lastAdmit := i }))
    ∧ (x.card id = some w → x.cardsRun = true →
      (w.started = false → x.cond ≠ .hold → (x.window.filter (·.started)).length < 16 → (∀ e ∈ w.edges, x.card e = none) →
        exec (.cardStart v id) s = .next (s.setCard v (if x.ringOff_ w = true then
          { w with started := true, fail := w.fail.orElse fun _ => some (.ringFault, 0) }
          else { w with
            started := true, pending := List.range (w.pieces x)
            marks := if cardSe w.card.dw then List.range (w.pieces x) else [] })))
      ∧ (∀ from_ at_ n, w.started = true → x.cardWrites = [] → w.marks = [] → w.fail = none → w.bound = none → j ∈ w.pending →
        j < 2 ^ 32 → x.ringTurn w j = true → x.overfed w = false → x.pieceWhere w j = some (from_, at_, n) →
        let src := w.sources from_ at_ n
        let bs := w.bytesOf j at_ src
        (∀ a as, w.missing src bs = a :: as →
          let f := s.freeBelow (as.length + 1)
          let b := (a :: as).getD f.1 a
          (∀ u e va, f.2.cardLine (s.cardCtx w.card) b (spanOf src b) = (u, .error (some (e, va))) →
            exec (.cardLineAccess v id j) s = .next (u.setCard v { w with fail := some (e, va), bound := some va.toNat }))
          ∧ ∀ u xs, f.2.cardLine (s.cardCtx w.card) b (spanOf src b) = (u, .ok xs) →
            exec (.cardLineAccess v id j) s = .next (u.setCard v { w with fetched := w.fetched.put j (fillBytes src bs b xs) }))
        ∧ (w.missing src bs = [] → bs ≠ [] → (∀ o ∈ bs, o ≠ none) →
          let sf := cardSf w.card.dw
          let rest := w.pending.filter fun k => k != j
          let va := BitVec.ofNat 64 at_
          (∀ u e, s.locate (s.cardCtx w.card) va .store true = (u, .error (some e)) →
            exec (.cardLineAccess v id j) s = .next (u.setCard v { w with
              fail := some (e, va)
              pending := w.pending.filter fun k => k != j && (match (u.tile v).pieceWhere w k with
                | some (_, lo, _) => decide (lo < va.toNat)
                | none => true) }))
          ∧ ∀ t l, s.locate (s.cardCtx w.card) va .store true = (t, .ok l) →
            (l.place.home = .slice v → t.sramStops l.place bs.length = false → (t.tile v).logFull = false →
              (t.tile v).replaying = false →
              let fe := if sf then some true else none
              exec (.cardLineAccess v id j) s = .next
                (((t.writeWakes (some (v, .landing w.card.id j l.place.off bs fe)) l.place bs fe).chargeCard w.card).setCard v
                  { w with pending := rest, fetched := w.fetched.erase j }))
            ∧ (l.place.home ≠ .slice v → (t.tile v).hasRoom (if sf then 192 else 128) = true →
              let u := t.hold v (.cardWrite w.card.id j l.place bs none) 128
              let mark := 2 ^ 33 + j
              exec (.cardLineAccess v id j) s = .next
                (((if sf then u.hold v (.cardWrite w.card.id mark l.place [] (some true)) 64 else u).chargeCard w.card).setCard v
                  { w with pending := rest, fetched := w.fetched.erase j
                           outgoing := w.outgoing ++ (if sf then [j, mark] else [j]) }))))
      ∧ (w.started = true → w.outgoing = [] → w.marks = [] → w.pending = [] → w.fail = none → x.entriesDone w = true →
        exec (.cardComplete v id) s = .next (((s.setTile v { x with window := x.window.filter fun o => o.card.id != id }).onHart
          w.card.hart fun y => y.completeTag (cardTag w.card.dw) false).latency v 0 (s.cycle v - w.admitted)))
      ∧ (let n := cardRing w.card.dw
        let size := max 64 (x.ringSize n)
        let tail := if w.entries < w.fed then x.ringTail n else (x.ringTail n + 1) % (2 * max 1 (x.ringEntries n))
        let moved := onAt x.ringptr n fun q => setBits q 8 8 tail
        cardOpc w.card.dw = 5 → w.started = true → w.fail = none → w.entries < cardLen w.card.dw / size →
        (∀ k ∈ w.pending, k / entryPieces size ≠ w.entries) →
        exec (.ringfeedEntry v id) s = .next ((s.setTile v { x with ringptr := moved }).setCard v { w with entries := w.entries + 1 })))
    ∧ (x.cardWrites.find? (fun o => o.card == id && o.line == j) = some cw → Memory.wf s.mem = true →
      s.unwritable cw.place = false → cw.fe = none → s.servesEngine v cw.place = true → s.hbmAdmits (.tile v) cw.place = true →
      (∀ u, cw.place.home = .slice u → (s.tile u).flips = []) →
      seqVerdict (s.seqHigh (cw.via.getD (s.placeNode cw.place)) v .assured) (cw.seq.getD 0) = .inTurn →
      ∃ t, exec (.cardLineAccess v id j) s = .next t ∧ (∀ k, memByte t.mem k = put cw.place cw.data k)
        ∧ (t.tile v).cardWrites = x.cardWrites.filter fun o => o != cw)
    ∧ (x.mreqs.find? (fun o => o.id == id) = some m → m.places[j]? = some p → j ∈ m.pending → x.cardsRun = true →
      x.replaying = false →
      (m.fetched.find j = none → (∀ o ∈ (s.hart m.hart).posted, accId m.hart o.made < id → o.place.line ≠ p.line) →
        s.hbmAdmits (.tile v) p = true → s.unreadable p = false →
        exec (.mreqLineLand v id j) s = .next ((s.serveEngine v p).onTile v fun t => { t with
          mreqs := t.mreqs.map fun (o : Mreq) => if o.id = id then
            { m with fetched := m.fetched.put j (memBytes s.mem p.key 128) } else o }))
      ∧ ∀ bs, m.fetched.find j = some bs → (∃ k ∈ m.pending, k ≠ j) → bit m.desc 35 = false → x.flips = [] → x.logFull = false →
        Memory.wf s.mem = true →
        ∃ t, exec (.mreqLineLand v id j) s = .next t
          ∧ (∀ k, memByte t.mem k = put (slicePlace v (mreqOff m.desc + 128 * j)) (solid bs) k)
          ∧ (t.tile v).mreqs.find? (fun o => o.id == id)
            = some { m with pending := m.pending.filter fun k => k != j, fetched := m.fetched.erase j })

/-- R140, R189, R193, R198, R202-R205, R335: a ready command at the head of the queue occupies the cells from an idle array on;
an MMA reads its entries at its start and at its retirement pops its rings and owes a verdict, MMA.I8 with Z leaving the exact dot
products; MZERO, MACCGET and MACCPUT act at retirement, RPOP and RSTAT at their turn; a drain copies the bank, writes its
half-rows and wakes its destination. -/
def Obligations.ArrayCommandsRun : Prop :=
  ∀ (s : State) (v h id j : Nat) (c : ArrayCmd) (rest : List ArrayCmd) (r : RunningCmd) (d : Drain),
    let x := s.tile v
    let idle : Prop := x.running = none ∧ x.arrayStarts = true ∧ x.lastRetire < s.cycle v ∧ x.queue = c :: rest
      ∧ c.issued < s.cycle v ∧ x.commandReady c.op = true
    let run (a b : List Byte) : State := s.onTile v fun t => { t with
      queue := t.queue.filter fun o => o.id != c.id
      running := some { cmd := c, retireAt := s.cycle v + c.op.occupancy - 1, a := a, b := b } }
    let charge (t : State) (e : Nat) : State := t.onHart c.hart fun y => y.charge c.user e
    let free (t : State) : State := (t.onTile v fun y => { y with running := none, lastRetire := s.cycle v }).onHart r.cmd.hart
      fun y => if y.leaseEnding then { y with lease := .none, leaseEnding := false } else y
    let finish (t : State) : State := (free t).latency v 3 (s.cycle v - r.cmd.issued)
    let k := hartSlot r.cmd.hart
    let retires : Prop := x.running = some r ∧ r.retireAt ≤ s.cycle v
    let turn : Prop := x.running = none ∧ x.queue.find? (fun o => o.hart == h) = some c ∧ hartVt h = v ∧ c.issued < s.cycle v
      ∧ x.arrayStarts = true
    let popped (n : Nat) := onAt x.ringptr n fun q => setBits q 0 8 ((x.ringHead n + 1) % (2 * max 1 (x.ringEntries n)))
    let gone : Tile := { x with queue := x.queue.filter fun o => o.id != c.id }
    (∀ form ra rb z s0 s1, idle → c.op = .mma form ra rb z s0 s1 → x.flips = [] →
      exec (.mmaStart v) s = .next (charge (run (s.headEntry v ra) (s.headEntry v rb)) (Config.energyOfArray false)))
    ∧ (∀ form ra rb z s0 s1, retires → r.cmd.op = .mma form ra rb z s0 s1 →
      exec (.mmaRetire v) s = .next (finish (s.mmaResult v r form ra rb z s0 s1))
      ∧ (form = .i8 → z = true → r.a.length = 4096 → r.b.length = 4096 → k < 4 →
        (entryAt x.banks k Bank.reset).inject = none → ∀ m n, m < 64 → n < 64 →
        (entryAt ((entryAt ((s.mmaResult v r form ra rb z s0 s1).tile v).banks k Bank.reset).acc) (64 * m + n) 0)
          = BitVec.ofInt 32 (((List.range 64).map fun e => (r.a.getD (64 * m + e) 0).toInt * (r.b.getD (64 * n + e) 0).toInt).sum)))
    ∧ (idle → c.op.isControl = true → exec (.arrayCommandStart v) s = .next (run [] []))
    ∧ (retires →
      (r.cmd.op = .mzero → exec (.arrayCommandRetire v) s = .next (finish ((s.onTile v fun t => { t with
          banks := onAt t.banks k fun b => { b with acc := Vector.replicate 4096 0, chk := Vector.replicate 64 0 } }).onHart
            r.cmd.hart fun y => { y with accDirty := true, sat := false })))
      ∧ (∀ m blk, r.cmd.op = .maccget m blk → exec (.arrayCommandRetire v) s = .next (finish (s.onHart r.cmd.hart fun y => { y with
          m := y.m.set m.toNat ((entryAt x.banks k Bank.reset).getBlock blk.toNat) m.isLt
          mDirty := y.mDirty ||| BitVec.ofNat 8 (2 ^ m.toNat) })))
      ∧ ∀ rows blk, r.cmd.op = .maccput rows blk → exec (.arrayCommandRetire v) s = .next (finish ((s.onTile v fun t => { t with
          banks := onAt t.banks k fun b => b.putBlock blk.toNat rows }).onHart r.cmd.hart fun y => { y with accDirty := true })))
    ∧ (turn →
      let waited := s.cycle v - c.issued
      (∀ n, c.op = .rpop n → exec (.ringCommandTurn v h) s = .next ((s.setTile v (if x.ringFill n = 0 then gone else
        { gone with ringptr := popped n })).latency v 3 waited))
      ∧ ∀ n g, c.op = .rstat n g → exec (.ringCommandTurn v h) s = .next (((s.setTile v gone).onHart h fun y =>
        y.writeResult c.seq (.g g) ((BitVec.ofNat 64 ((bit (entryAt x.ringcfg n 0) 39).toNat * 256 + x.ringFill n)
          : Word).zeroExtend 512)).latency v 3 waited))
    ∧ (idle → c.op = .mdrain id → exec (.mdrainCopy v) s = .next ((charge (run [] []) (Config.energyOfArray true)).onTile v
      fun t => { t with egress := t.egress ++ [{ item := .drain id, needs := [], bytes := 16384 }] }))
    ∧ (retires → r.cmd.op = .mdrain id → exec (.mdrainCopy v) s = .next (finish (s.setTile v { x with
        egress := (x.egress.filter fun o => o.item != .drain id) ++ [{ item := .drain id, needs := x.unverified, bytes := 16384 }]
        drains := x.drains.map fun o => if o.id = id then { o with
          copy := some (entryAt x.banks k Bank.reset).acc.toList
          needs := (x.verdicts.filter fun q => q.hart == r.cmd.hart).map (·.id) } else o })))
    ∧ (x.drains.find? (fun o => o.id == id) = some d → d.released = true →
      (∀ u, u = destVt d.word → j ∈ d.rows → j < 128 → (s.tile u).gate = .takes → (s.tile u).flips = [] → Memory.wf s.mem = true →
        seqVerdict (s.seqHigh (.tile u) v .assured) ((x.numberOf (.tile u) .assured (d.rowKey j)).getD (d.seqs.headD 0)) = .inTurn →
        ∀ cells, d.copy = some cells → cells.length = 4096 →
        let key := sliceKey u (bits d.word 16 22 + 128 * j)
        ∃ t, exec (.mdrainRowWrite v id j) s = .next t ∧ ∀ a, memByte t.mem a = if key ≤ a ∧ a < key + 128 then
          BitVec.ofNat 8 ((cells.getD (32 * j + (a - key) / 4) 0).toNat / 256 ^ ((a - key) % 4)) else memByte s.mem a)
      ∧ (d.rows = [] → s.releasedBefore d.hart d.entry = true → s.roomItems d.hart 1 = true →
        exec (.mdrainWake v id) s = .next (((s.onTile v fun t => { t with
          drains := t.drains.filter fun o => o.id != id, egress := t.egress.filter fun o => o.item != .drain id }).onHart d.hart
          fun y => { y with sendq := y.sendq.map fun (e : SendEntry) => if e.id = d.entry then { e with state := .queued } else e }
          ).pumpSends d.hart 16)))

/-- R166, R182, R183, R190, R191: a slot boundary puts the written slot table in force and, the holder of an ended or claimed slot
displaced, grants the lease; the arbiter binds a free lane group; the SFU starts its queue's head and writes the lanes 12 cycles
later; withdrawn entries come back. -/
def Obligations.GrantsAndSpecialFunctionResults : Prop :=
  ∀ (s : State) (v h o g occ : Nat) (e : SfuEntry) (es : List SfuEntry) (es2 : List (SfuEntry × Nat)) (start : Nat),
    let x := s.tile v
    let slot := s.cycle v / 256
    let requests (q : Nat) : Bool := (s.hart q).lease == .req
    let boundary : State := s.onTile v fun t => { t with slotAt := slot, slottabNext := none, leaseUsed := [] }
    let nextSlot : Prop := x.slotAt + 1 = slot ∧ x.leasesMove = true ∧ x.slottabNext = none
    (x.slotAt < slot → ∃ t, exec (.slotBoundary v) s = .next t ∧ (t.tile v).slotAt = slot ∧ (t.tile v).slottabNext = none
      ∧ (t.tile v).slottab = x.slottabNext.getD x.slottab)
    ∧ (nextSlot → s.leaseHolder v = none → s.leasePick v requests = some h →
      exec (.slotBoundary v) s = .next (boundary.giveLease v h))
    ∧ (nextSlot → s.leaseHolder v = some h → (s.hart h).leaseEnding = false →
      (∀ q, hartVt q = v → q ≠ h → (s.hart q).holdsLease = false) → s.slotHart v = some o → o ≠ h → (s.hart o).lease = .req →
      exec (.slotBoundary v) s = .next ((boundary.setHart h { s.hart h with lease := .req }).giveLease v o))
    ∧ (slot ≤ x.slotAt → s.leaseHolder v = none → s.leasePick v requests = some h →
      exec (.leaseGrant v) s = .next (s.giveLease v h))
    ∧ (x.laneWant = [(h, occ)] → hartVt h = v → g < 4 → entryAt x.laneFree g 0 ≤ s.cycle v →
      (∀ k, k < g → s.cycle v < entryAt x.laneFree k 0) → (s.hart h).denied = false →
      ∃ t, exec (.laneGroupGrant v) s = .next t ∧ (t.tile v).laneGrants = x.laneGrants ++ [h] ∧ (t.tile v).laneWant = []
        ∧ ∀ k, k < 4 → entryAt (t.tile v).laneFree k 0 = if k = g then s.cycle v + occ else entryAt x.laneFree k 0)
    ∧ (x.sfu = e :: es → (∀ q ∈ x.sfuRunning, q.2 + 2 ≤ s.cycle v) →
      exec (.sfuEntryStart v) s = .next (s.onTile v fun t => { t with
        sfu := es, sfuRunning := t.sfuRunning ++ [(e, s.cycle v)] }))
    ∧ (x.sfuRunning = (e, start) :: es2 → start + 12 ≤ s.cycle v →
      let t := s.onTile v fun y => { y with sfuRunning := es2 }
      exec (.sfuResult v) s = .next (if e.discard = true then t else t.onHart e.hart fun y =>
        y.writeResult e.seq (.v e.vd) (e.result (y.regs.read (.v e.vd)))))
    ∧ (isSup h = false → s.stopped h = false → s.mayIssue h = true → (s.hart h).withdrawnSfu = [e] →
      (s.tile (hartVt h)).sfu.length < 8 →
      exec (.sfuReentry h) s = .next ((s.setHart h { s.hart h with withdrawnSfu := [] }).onTile (hartVt h) fun t => { t with
        sfu := t.sfu ++ [e] }))

/-! ### Traps as steps, supervisors, the host -/

/-- R241, R288, R290, R292-R294, R304, R351, R397: each of the twelve forms completes, with its own effect, in every state that
meets the conditions its clause names: a pending trap and a due interrupt are taken at the boundary; a die supervisor serves
TIMERSET, ROUTESET and PARKCTL of its mailbox, dumps and forwards FAULT records, and answers ECALL_K into the frame. The model's
own choices: which of several pending traps comes first and what a record shows of a trap that no instruction raised
(notes/assumptions/63.md), the count that a discarded task gives back (notes/assumptions/46.md), and the DISCARD in two calls, the
first of which leaves the message marked with 2^32 in the mailbox (notes/assumptions/87.md). -/
def Obligations.TrapStepsAndDieSupervisors : Prop :=
  ∀ (s : State) (h d : Nat) (p : PendingTrap) (ps : List PendingTrap) (a : Access) (rest : List Access) (src : Node) (o : Nat)
    (m : Msg) (mail : List (Node × Nat × Msg)) (park : ParkState) (x : Dump) (dumps : List Dump),
    let w (i : Nat) : Word := m.payload.getD i 0
    let served (cls : Nat) : Prop := (s.die d).mailbox = (src, o, m) :: mail ∧ hdrClass m.header = cls
    let u := s.onDie d fun y => { y with mailbox := mail }
    let target := (w 1).toNat
    let named : Prop := bits (w 0) 8 56 = 0 ∧ target < 12288 ∧ hartDie target = d
      ∧ (s.hart target).csr.tenant = hdrTenant m.header ∧ (s.hart target).parked = some park
    let entered (t : State) : Answer := .next ({ t with cur := h }.afterIssue h)
    -- TRAP_ENTRY
    (s.stopped h = false → s.inCkpt h = false → (s.hart h).lwaitSince = none → s.interruptDue h = none →
      (s.hart h).pendTraps = p :: ps → s.parkRoom h p.cause = true →
      let t := (s.setHart h { s.hart h with pendTraps := ps }).abandon h
      (p.access = none → (s.hart h).flights = [] → s.boundary h = true →
        exec (.trapEntry h) s = entered (t.takeTrap h p.cause p.tval (t.wordAt h)))
      ∧ (p.access = some a.id → (s.hart h).flights = a :: rest → s.rstats h = [] → (∀ b ∈ (s.hart h).board, a.seq ≤ b.seq) →
        (s.abandon h).sfuBusy h = false → exec (.trapEntry h) s = entered (t.takeTrap h p.cause p.tval a.word)))
    -- INTERRUPT_ENTRY
    ∧ (∀ n, (s.hart h).csr.kip.getLsbD 6 = false → s.interruptDue h = some n →
      exec (.interruptEntry h) s = entered ((s.abandon h).takeInterrupt h n ((s.abandon h).hart h).pc false))
    ∧ ((s.hart h).csr.kip.getLsbD 6 = true → (s.hart h).halted = none → (s.hart h).lwaitSince = none →
      (s.hart h).midStep = false → s.inCkpt h = false → (s.hart h).board = [] → s.mayAbandon h = true → (s.abandon h).sfuBusy h = false →
      exec (.interruptEntry h) s = .next ((s.abandon h).enterHalt h (s.panelHalt.getD s.tick)))
    -- TIMERSET, TIMER_DEADLINE
    ∧ (served 6 → (w 0).toNat < 12288 → hartDie (w 0).toNat = d →
      (fromSupervisor src = true ∨ s.inTenant (hdrTenant m.header) (hartVt (w 0).toNat) = true) →
      exec (.timerset d) s = .next (u.onHart (w 0).toNat fun y =>
        { y with timer := if w 1 = 0 then none else some (w 1).toNat }))
    ∧ (∀ t, (s.hart h).timer = some t → t ≤ s.tick →
      exec (.timerDeadline h) s = .next ((s.setHart h { s.hart h with timer := none }).requestInterrupt h 0 0))
    -- ROUTESET
    ∧ (∀ t, served 4 → s.tenants.find (hdrTenant m.header).toNat = some t → (w 0).toNat < 4 → hdrLen m.header = 7 →
      u.routesAccepted t (w 0).toNat d m.routeTable = true →
      ∃ v, exec (.routeset d) s = .next v
        ∧ (∀ i, i < 64 → t.hasVt (d * 64 + i) = true → (v.die d).routes.find (routeKey (d * 64 + i) (w 0).toNat) = some m.routeTable)
        ∧ v = u.setDie d { u.die d with routes := (v.die d).routes })
    -- PARKCTL
    ∧ (served 5 →
      (w 0 = 0 → (target = 0xFFFFFFFF ∨ target < 12288 ∧ s.inTenant (hdrTenant m.header) (hartVt target) = true) →
        (w 2).toNat % 16384 = 0 →
        exec (.parkctlRegister d) s = .next (u.onDie d fun y => { y with
          faultRegs := y.faultRegs.put (hdrTenant m.header).toNat
            { hart := if target = 0xFFFFFFFF then none else some target, dump := (w 2).toNat } }))
      ∧ (bits (w 0) 0 8 = 1 → named → park.cause.toNat ≠ 0x06 →
        exec (.parkctlResume d) s = .next (if u.frameWord target 336 &&& ~~~(3#64) = 0 then
            u.postPark target (u.hart target) park.cause.toNat park.tval park.word park.mode 0
          else ((u.reloadFrame target).onHart target fun y =>
            y.enterK park.cause.toNat park.tval y.pc).trace target 2 ((u.reloadFrame target).hart target).csr.ktvec))
      ∧ (bits (w 0) 0 8 = 2 → named → s.drained target = true → s.roomItems target 4 = true → s.zeroFlushed target = true →
        (o < 2 ^ 32 → exec (.parkctlDiscard d) s = .next ((((s.reloadFrame target).onHart target fun y =>
          { y with parked := some park }).dropBarriers target).onDie d fun y =>
            { y with mailbox := (src, o + 2 ^ 32, m) :: mail }))
        ∧ (2 ^ 32 ≤ o → s.barrierOpsOut target = false →
          exec (.parkctlDiscard d) s = .next (u.finishDiscard target))))
    -- FAULT_RECORD, PARK_DUMP
    ∧ (served 0x0F → (∀ y ∈ (s.die d).dumps, y.started = false) →
      let area := s.dumpArea d (hdrTenant m.header)
      (recordKind m ≠ 2 ∨ area = 0 → exec (.faultRecord d) s = .next ((u.onDie d fun y => { y with
          dumps := if recordKind m = 2 then y.dumps else appendRecord m y.dumps }).forwardRecord d m))
      ∧ (recordKind m = 2 → area ≠ 0 → exec (.faultRecord d) s = .next (u.onDie d fun y => { y with dumps := y.dumps ++
          [{ hart := recordHart m, launch := hdrLaunch m.header, tenant := hdrTenant m.header, record := m, area := area
             records := [], incomplete := false, started := false }] })))
    ∧ ((s.die d).dumps = x :: dumps →
      (x.started = false →
        let r := s.dumpWrite d x.area 0 ((List.range 512).map fun i => s.frameWord x.hart i)
        exec (.parkDump d) s = .next (r.1.onDie d fun y => { y with
          dumps := { x with started := true, incomplete := x.incomplete || !r.2 } :: dumps }))
      ∧ (x.started = true → (s.nextRecord d = none → exec (.parkDump d) s = .next (s.finishDump d x.area x dumps))
        ∧ ∀ e mail', s.nextRecord d = some (e, mail') → exec (.parkDump d) s = .next (s.takeRecord d e.2.2 mail')))
    -- FRAME_RELOAD, ECALL_K_SERVICE
    ∧ ((s.hart h).parked = some park → exec (.frameReload h) s = .next (s.reloadFrame h)
      ∧ (park.cause.toNat = 0x06 →
        let r := s.kService (hartDie h) (s.frameWord h 11).toNat ((List.range 7).map fun i => s.frameWord h (4 + i))
        exec (.ecallKService h) s = .next (((s.writeFrame h 4 ((List.range 7).map fun i => r.getD i 0)).writeFrame h 328
          [s.frameWord h 328 + 4]).reloadFrame h)))

/-- R275-R281, R360, R361: each of the eight forms completes in every state whose mailbox has its message first: the request
leaves the mailbox, is applied where every check of its rule passes, and the poster is answered with status 0 or with the number of
the first check that fails; an accepted launch holds its counter and is pending. The model's own choices: the record's PA names a
stack line of the panel as a supervisor's does (notes/assumptions/20.md), its line request counts at die 0
(notes/assumptions/74.md), whether an extent or a page is the poster's own is open (notes/assumptions/21.md), and a predecessor that
is pending itself is not satisfied (notes/assumptions/88.md). -/
def Obligations.PanelSupervisorServesRequests : Prop :=
  ∀ (s : State) (src : Node) (o : Nat) (m : Msg) (mail : List (Node × Nat × Msg)),
    s.supMailbox = (src, o, m) :: mail → s.host.doorbells = [] →
    let w (i : Nat) : Word := m.payload.getD i 0
    let cls := hdrClass m.header
    let op := bits (w 0) 0 8
    let u : State := { s with supMailbox := mail }
    let answered (t : State) (status : Nat) : State := t.reply src m status
    let area := areaOf (w 1)
    let tenant := bits (w 1) 32 6
    let permitted (t : BitVec 6) : Bool := (s.tenants.find t.toNat).isSome && (src == .host || t == hdrTenant m.header)
    let owns (t : BitVec 6) (id : Option Nat) : Prop := ∃ q, id = some q ∧ (s.counter q).tenant = some t
    let pages : List Nat := s.execPages.filter fun k => k != (w 1).toNat / 4096
    -- LAUNCH
    (cls = 0 →
      let v := u.launchRead (w 0)
      (∀ status, v.launchStatus src m (u.launchRecord (w 0)) = status → status ≠ 0 → exec .launch s = .next (answered v status))
      ∧ ∀ p a id, (w 0).toNat % 64 = 0 → s.supPlace (w 0).toNat = some p → s.unreadable p = false →
        let r := (List.range 8).map fun i => dwordAt (memBytes s.mem p.key 64) i
        let t := recTenant r
        recordFormed r = true → permitted t = true → s.tenants.find t.toNat = some a → recInside r a = true →
        launchCounter (recLaunch r) = some id → (s.counter id).tenant = some t → (s.counter id).value = 0 →
        (s.counter id).held = false →
        (recPv r = true → owns t (counterId (BitVec.ofNat 64 (recParent r)))) →
        (recLv r = true → s.inTenant t (recListen r / 4) = true) → (∀ q ∈ recPreds r, owns t (launchCounter q)) →
        exec .launch s = .next (answered (v.acceptLaunch r) 0)
          ∧ ((v.acceptLaunch r).counter id).held = true
          ∧ ∃ l : Launch, (v.acceptLaunch r).launches = s.launches ++ [l] ∧ l.number = recLaunch r ∧ l.injecting = false)
    -- CANCEL
    ∧ (cls = 1 →
      (counterId (w 0) = none → exec .cancelMessage s = .next (answered u 1))
      ∧ ∀ id, counterId (w 0) = some id →
        ((s.counter id).tenant = none → exec .cancelMessage s = .next (answered u 3))
        ∧ ∀ t, (s.counter id).tenant = some t →
          exec .cancelMessage s = .next (if permitted t = true then answered (u.cancelCounter id) 0 else answered u 2))
    -- MGMT
    ∧ (cls = 7 → op = 1 →
      (counterId (w 1) = none ∨ 64 ≤ (w 2).toNat → exec .mgmtAssignCounter s = .next (answered u 1))
      ∧ ∀ id, counterId (w 1) = some id → (w 2).toNat < 64 → exec .mgmtAssignCounter s = .next (
        if permitted (BitVec.ofNat 6 (w 2).toNat) = false then answered u 2
        else if (s.counter id).tenant.isSome then answered u 3
        else answered (u.setCounter id { s.counter id with tenant := some (BitVec.ofNat 6 (w 2).toNat) }) 0))
    ∧ (cls = 7 → op = 2 →
      (counterId (w 1) = none → exec .mgmtFreeCounter s = .next (answered u 1))
      ∧ ∀ id, counterId (w 1) = some id →
        ((s.counter id).tenant = none → exec .mgmtFreeCounter s = .next (answered u 3))
        ∧ ∀ t, (s.counter id).tenant = some t → exec .mgmtFreeCounter s = .next (
          if permitted t = false then answered u 2
          else if (s.counter id).value = 0 ∧ (s.counter id).held = false then
            answered (u.setCounter id { s.counter id with tenant := none }) 0
          else answered u 3))
    ∧ (cls = 7 → op = 3 →
      let k := (w 1).toNat * 256 + (w 2).toNat
      let back := s.extents.put k { s.extents.get k default with state := 0 }
      exec .mgmtExtentUnmapped s = .next (
        if ¬ ((w 1).toNat < 4 ∧ (w 2).toNat < 256 ∧ (s.extents.get k default).state = 3) then answered u 1
        else if src = .host then answered { u with extents := back } 0
        else if Config.freeNat s.free % 2 = 0 then answered { u with free := s.free + 1 } 2
        else answered { u with free := s.free + 1, extents := back } 0))
    ∧ (cls = 7 → op = 4 →
      ((w 1).toNat % 4096 ≠ 0 ∨ (w 1).toNat / 2 ^ 43 ≠ s.panel → exec .mgmtUnmarkExecutable s = .next (answered u 1))
      ∧ ((w 1).toNat % 4096 = 0 → (w 1).toNat / 2 ^ 43 = s.panel →
        (src = .host → exec .mgmtUnmarkExecutable s = .next (answered { u with execPages := pages } 0))
        ∧ (src ≠ .host → exec .mgmtUnmarkExecutable s = .next (
          if Config.freeNat s.free % 2 = 0 then answered { u with free := s.free + 1 } 2
          else answered { u with free := s.free + 1, execPages := pages } 0))))
    ∧ (cls = 7 → op = 5 → exec .mgmtDefineTenant s = .next (
      if areaFormed (w 1) = false ∨ w 2 ≠ 0 then answered u 1
      else if src ≠ .host ∨ (∃ e ∈ s.tenants, e.1 ≠ tenant ∧ e.2.overlaps area = true) then answered u 2
      else if (s.tenants.find tenant).isSome then answered u 3
      else answered { u with tenants := s.tenants.put tenant area } 0))
    ∧ (cls = 7 → op = 6 → exec .mgmtRemoveTenant s = .next (
      if 64 ≤ (w 1).toNat ∨ w 2 ≠ 0 ∨ s.tenants.find (w 1).toNat = none then answered u 1
      else if src ≠ .host then answered u 2
      else if s.hasCounters (w 1).toNat then answered u 3
      else answered { u with tenants := s.tenants.erase (w 1).toNat } 0))

/-- R102, R134, R163, R278, R355, R358, R360, R362, R363, R366-R368, R387, R389, R392: each of the eleven forms completes, with its
own effect, in every state that meets the conditions its clause names: launch injection, bring-up, the message window, the host's
window on memory, extents, verified images, quotes, failing links, samples and the flash. The model's own choices: stacks keep
their data over a panel reset (notes/assumptions/47.md), BAR2 reaches places as a supervisor does (notes/assumptions/20.md) and
its size (notes/assumptions/82.md), the descriptor that a signature covers (notes/assumptions/48.md), the die that an image's
requests count at (notes/assumptions/74.md), an extent's acceptance as a second step (notes/assumptions/89.md). -/
def Obligations.PanelAndHostEvents : Prop :=
  ∀ (s : State) (die launch id port i base length off link slot : Nat) (failing : List Nat) (l : Launch) (im : BolliaImage)
    (nonce bs key : List Byte) (good signed : Bool) (p : Place),
    let k := port * 256 + i
    let b := s.host
    let vts := s.launchVts l.record
    let harts := recHartList l.record
    -- MWBELL: any slot; a class the host may not post is answered with status 6; during bring-up the message is held
    (let raw := s.host.window.get (slot % 1024) (List.replicate 64 0)
      let m : Msg := { header := dwordAt raw 0, payload := (List.range 7).map fun i => dwordAt raw (i + 1) }
      let posted : State := { s with supMailbox := s.supMailbox ++ [(.host, 0, m)] }
      (s.tick < s.readyAt → exec (.mwbell slot) s = .next { s with host := { b with doorbells := b.doorbells ++ [m] } })
      ∧ (s.readyAt ≤ s.tick → b.doorbells = [] → exec (.mwbell slot) s = .next (posted.flushRejected 1024)
        ∧ ((∀ e ∈ posted.supMailbox, e.1 = .host → [0, 1, 7].contains (hdrClass e.2.2.header) = true) →
          exec (.mwbell slot) s = .next posted)))
    -- PANEL_RESET
    ∧ (let cause : Option ResetCause := if signed = false then some .signature
        else if s.blob.magic = 0x42464C42 ∧ (∀ y ∈ s.blob.reserved, y = 0) then
          (if s.blob.version < s.blob.minVersion then some .version else none)
        else some .header
      ∃ t, exec (.panelReset signed failing) s = .next t ∧ t.inReset = cause ∧ t.mem = resetCells s.mem ∧ t.flash = s.flash
        ∧ t.tick = 0 ∧ t.tenants = [] ∧ t.launches = [] ∧ t.host = HostBlock.reset
        ∧ t.grid = { Grid.reset with vpoint := s.blob.vpoint, fpoint := s.blob.fpoint, ctl := s.blob.gridctl }
        ∧ (cause = none → ∀ d, d < 48 →
          let passed := (List.range 72).filter fun q => (t.pt d q).state != .retired
          (∀ q, q < 72 → (failing.contains (d * 72 + q) = true → (t.pt d q).state = .retired)
            ∧ (q ∈ passed → (t.pt d q).state = if q ∈ passed.take 64 then .inService else .readySpare))
          ∧ ∀ k, k < 64 → match passed[k]? with
            | some q => t.ptOf (d * 64 + k) = q
            | none => (t.tile (d * 64 + k)).cond = .lost))
    -- FLASH_REWRITE
    ∧ exec .flashRewrite s = .next { s with flash := s.pts.map fun e => (e.1, e.2.state, e.2.stress.toNat, e.2.errors.toNat) }
    -- LAUNCH_INJECT
    ∧ (s.launches = [l] → l.number.toNat = launch → launchCounter l.number = some id →
      (l.injecting = true → exec (.launchInject launch die) s = .next (s.injectOne l id die))
      ∧ (l.injecting = false → recPreds l.record = [] → vts.length * harts.length = 0 →
        exec (.launchInject launch die) s
          = .next (({ s.setCounter id (launchCount (s.counter id) l.record 0) with launches := [] } : State).counterZero id))
      ∧ (l.injecting = false → recPreds l.record = [] → vts.length * harts.length ≠ 0 →
        ∃ t, exec (.launchInject launch die) s = .next t
          ∧ (t.counter id).value = BitVec.ofNat 32 (vts.length * harts.length)))
    -- CXL_EXTENT_OFFER, CXL_EXTENT_RELEASE_REQUEST
    ∧ (port < 4 → i < 256 → base % 4096 = 0 → length % 4096 = 0 → base + length ≤ 2 ^ 43 → (s.extents.get k default).state = 0 →
      exec (.cxlExtentOffer port i base length) s
        = .next { s with extents := s.extents.put k { base := base, length := length, state := 1 } })
    ∧ (port < 4 → i < 256 → base % 4096 = 0 → length % 4096 = 0 → base + length ≤ 2 ^ 43 →
      s.extents.get k default = { base := base, length := length, state := 1 } → exec (.cxlExtentOffer port i base length) s
        = .next { s with extents := s.extents.put k { base := base, length := length, state := 2 } })
    ∧ ((s.extents.get k default).state = 2 → exec (.cxlExtentReleaseRequest port i) s
      = .next { s with extents := s.extents.put k { s.extents.get k default with state := 3 } })
    -- IMAGE_LOAD
    ∧ (im.magic ≠ 0x314D4942 ∨ 8 ≤ im.keySlot ∨ im.segments.length < im.count ∨ Map.find s.blob.imageKeys im.keySlot = none →
      exec (.imageLoad im) s = .next s)
    ∧ (im.magic = 0x314D4942 → im.keySlot < 8 → im.count = im.segments.length → Map.find s.blob.imageKeys im.keySlot = some key →
      (verifySegments key im.file b.meas im.segments).2 = false →
      exec (.imageLoad im) s = .next { s with host := { b with meas := (verifySegments key im.file b.meas im.segments).1 } })
    ∧ (∀ g q bytes v, im.magic = 0x314D4942 → im.keySlot < 8 → im.count = 1 → im.segments = [g] →
      Map.find s.blob.imageKeys im.keySlot = some key → sha512 (segmentBytes g im.file) = g.digest →
      let u : State := { s with host := { b with meas := sha512 (b.meas ++ g.digest) } }
      u.segmentPlaces im.hart g.target (pageCuts g.target.toNat (segmentBytes g im.file) (g.length / 4096 + 2))
        = (v, some [(q, bytes)]) →
      let t := (v.serveLines 0 q bytes.length).write (some 3840) q (solid bytes) none
      exec (.imageLoad im) s = .next (if Config.verifySegment key (segmentDescriptor g) g.digest g.signature = false then s
        else if g.isText = true then
          { t with execPages := match t.placePpn q with
            | some n => insertNat t.execPages n
            | none => t.execPages }
        else t))
    -- NONCE_WRITE
    ∧ (nonce.length = 64 → exec (.nonceWrite nonce) s = .next { s with host := { b with
        nonce := nonce, quote := b.meas ++ Config.identitySign (sha512 (nonce ++ b.meas)) } })
    -- BAR2_ACCESS
    ∧ (s.supPlace (s.panel * 2 ^ 43 + b.base.toNat + off) = some p → 0 < length → p.off % 128 + length ≤ 128 →
      off + length ≤ 2 ^ b.bar2 → Memory.wf s.mem = true → s.hbmAdmits (.ioDie 0) p = true →
      (∃ t, exec (.bar2Access off length none) s = .next t ∧ t.mem = s.mem
        ∧ (s.unreadable p = true → t.host.answer = none)
        ∧ (s.unreadable p = false → p.unstated = false → t.host.answer = some (memBytes s.mem p.key length)))
      ∧ (s.unreadable p = false → bs.length = length → ∃ t, exec (.bar2Access off length (some bs)) s = .next t
        ∧ ∀ a, memByte t.mem a = if p.key ≤ a ∧ a < p.key + length then bs.getD (a - p.key) 0 else memByte s.mem a))
    -- LINK_CRC_RETRY
    ∧ (s.portsDown.contains link = false → good = false → s.linkFails.get link 0 < 15 →
      exec (.linkCrcRetry link good) s
        = .next { s with linkFails := s.linkFails.put link (s.linkFails.get link 0 + 1) })
    ∧ (s.portsDown.contains link = false → 15 ≤ s.linkFails.get link 0 →
      ∃ t, exec (.linkCrcRetry link false) s = .next t ∧ t.portsDown = insertNat s.portsDown link)
    -- SAMPLE_PULSE
    ∧ (bit (s.die die).sampctl 0 = true →
      (s.die die).lastPulse + max 1 (bits (s.die die).sampctl 8 24) * 1024 ≤ s.tick →
      ∃ t record, exec (.samplePulse die) s = .next t ∧ t.host.samples = b.samples ++ [record]
        ∧ record.take 2 = [BitVec.ofNat 64 s.tick, BitVec.ofNat 64 die]
        ∧ t.host.sampHead = b.sampHead + BitVec.ofNat 64 (8 * record.length) ∧ (t.die die).lastPulse = s.tick)

/-- R34-R36, R140, R190, R210, R310, R324, R334, R349, R351, R353, R354: the host writes a register of a halted hart as the hart
itself would, DBGCTL at any time; haltings and resumptions of one hart and of the panel; a supervisor's VMAP, FETCHDUTY, TRACECTL
and diagnostic injections. The numbers by which a write names registers that no CSR number reaches are the model's own
(notes/assumptions/13.md). -/
def Obligations.RegisterWritesAsSteps : Prop :=
  ∀ (s : State) (h n die pt row col b off : Nat) (v : Word),
    let d := hartDie h
    let q := s.ptOf (hartVt h)
    let vt := s.vtOf die pt
    (isSup h = false →
      ((s.hart h).halted.isSome = true →
        (∀ c : BitVec 12, c.toNat < 0x800 ∨ (0xC00 ≤ c.toNat ∧ c.toNat < 0xD00) → c.toNat ≠ 0xC41 → s.csrExists c.toNat = true →
          exec (.csrWrite h c v) s = .next (s.writeCsr h d q c.toNat v))
        ∧ (∀ a : BitVec 5, exec (.csrWrite h (0xE00 + a.zeroExtend 12) v) s = .next (s.onHart h fun x => x.setG a v))
        ∧ exec (.mshapeWrite h v) s = .next (s.onHart h fun x => x.writeMshape v)
        ∧ exec (.slottabWrite h v) s = .next (s.onTile (hartVt h) fun t => { t with slottabNext := some (v &&& 0xBBBBBBBBBBBBBBBB) })
        ∧ exec (.leasenWrite h v) s = .next (s.writeLeasen (hartVt h) v)
        ∧ exec (.msaveClaim h v) s = .next (s.onHart h fun x => { x with
          csr := { x.csr with msave := v &&& ~~~(63#64) }, mValid := 0xFF, accValid := true, mDirty := 0, accDirty := false
          disc := false, sat := v.getLsbD 2 })
        ∧ exec (.msaveInval h v) s = .next (s.onHart h fun x => { x with
          csr := { x.csr with msave := v &&& ~~~(63#64) }, mValid := 0, accValid := false })
        ∧ (n < 8 → exec (.ringcfgWrite h n v) s = .next (s.writeRingcfg h n v))
        ∧ exec (.hrdataWrite h v) s = .next (s.writeHrdata h v))
      ∧ exec (.dbgctlResume h) s = .next (s.onHart h fun x =>
        if x.halted.isSome then { x with halted := none, stepping := x.csr.dbgctl.getLsbD 6 } else x)
      ∧ exec (.dbgctlHaltreq h) s = .next (s.requestInterrupt h 6 0)
      ∧ exec (.csrWrite h 0xC41 v) s = (
        let t := s.onHart h fun x =>
          if v.getLsbD 3 && x.halted.isSome then { x with
            csr := { x.csr with dbgctl := v &&& 0x70 }, halted := none, stepping := v.getLsbD 6 }
          else { x with csr := { x.csr with dbgctl := v &&& 0x70 } }
        .next (if v.getLsbD 2 then t.requestInterrupt h 6 0 else t))
      ∧ exec (.fetchdutyWrite h v) s = (
        let duty := min 16 (v.toNat % 32)
        let t := s.onHart h fun x => { x with csr := { x.csr with fetchduty := BitVec.ofNat 5 duty } }
        .next (if duty < (s.hart h).csr.fetchduty.toNat then t.requestInterrupt h 2 (BitVec.ofNat 64 duty) else t))
      ∧ exec (.tracectlWrite h v) s = .next (s.onHart h fun x => x.writeTracectl v))
    ∧ (s.panelHalt = none → ∃ t, exec .panelHalt s = .next t ∧ t.panelHalt = some s.tick
      ∧ ∀ o, o < 12288 → (s.tile (hartVt o)).cond ≠ .lost →
        ((s.hart o).halted = none → (t.hart o).csr.kip.getLsbD 6 = true)
        ∧ ((s.hart o).halted.isSome = true → (t.hart o).halted = some s.tick))
    ∧ (s.panelHalt.isSome = true → ∃ t, exec .panelResume s = .next t ∧ t.panelHalt = none
      ∧ ∀ o, o < 12288 → (t.hart o).halted = none ∧ (t.hart o).csr = { (s.hart o).csr with kip := (s.hart o).csr.kip &&& ~~~(64#7) }
        ∧ (t.hart o).stepping = if (s.hart o).halted.isSome then (s.hart o).csr.dbgctl.getLsbD 6 else (s.hart o).stepping)
    ∧ (s.ptOf (die * 64 + (s.die die).vidx.toNat) < 4096 →
      exec (.vmapRotate die) s
        = .next (s.onDie die fun x => { x with rotateNext := some (die * 64 + x.vidx.toNat) })
      ∧ exec (.vmapMarkRetire die) s = .next ((s.setDie die (s.die die)).markRetire die (s.die die).ptq.toNat))
    ∧ (∀ w, vt = some w →
      (b < 32 → exec (.diaginjAccBit die pt h row col b) s = .next (s.onTile w fun t => { t with
        banks := onAt t.banks (h % 4) fun k => { k with inject := some (row % 64 * 64 + col % 64, b) } }))
      ∧ (off < 2 ^ 22 → off % 8 = 0 → b < 64 → (s.tile w).flips = [] →
        let key := sliceKey w (off + b / 8)
        exec (.diaginjSramBit die pt off b) s
          = .next (({ s with mem := memPut s.mem key (memByte s.mem key ^^^ BitVec.ofNat 8 (2 ^ (b % 8))) } : State).onTile w fun t =>
            { t with flips := [(off, b)] }))
      ∧ exec (.diaginjSignature die pt h) s = .next (s.onHart (w * 4 + h % 4) fun x =>
        { x with checker := { x.checker with corrupt := true } }))

/-! ### Checks, checkpoints, rollback, rotation, clock, power -/

/-- R201, R234, R251, R301, R313-R319, R321, R322, R325: a passing verdict or check releases what it held and a failing one fails
the tile and tells the supervisor; checkpoints are requested, forced and committed; a failed tile is claimed a spare or lost,
rebuilt there from its image and fed its log; dispatch and load levelling. The model's own choices: a committed checkpoint is
one image, whose layout the spec leaves open (notes/assumptions/32.md), and what a replay does again and what it takes from the
log (notes/assumptions/33.md). -/
def Obligations.ChecksCheckpointsAndReplay : Prop :=
  ∀ (s : State) (v h q : Nat) (d : Verdict) (ds : List Verdict) (c : PendingCheck) (cs : List PendingCheck) (i : Held)
    (p : Packet) (e : LogEntry) (log : List LogEntry) (m : Msg),
    let x := s.tile v
    let moon := v ^^^ 1
    let pass (t : State) (u id : Nat) : State := t.onTile u fun y => { y with unverified := y.unverified.filter fun o => o != id }
    (x.verdicts = d :: ds → d.retired + 4 ≤ s.cycle v →
      let t := s.onTile v fun y => { y with verdicts := ds }
      exec (.screenVerdict v) s = .next (if d.pass = true then pass t v d.id
        else (t.logNote (vtDie v) (.screenFail (t.ptOf v) (hartSlot d.hart) d.row)).failVt v .screenFail))
    ∧ ((s.hart h).checker.pending = c :: cs → c.retired + 4 ≤ s.cycle (hartVt h) →
      let t := s.onHart h fun y => { y with checker := { y.checker with pending := cs } }
      exec (.blockCheck h) s = .next (if c.pass = true then pass t (hartVt h) c.checkId else t.failVt (hartVt h) .sigMismatch))
    ∧ (isSup h = false → (s.hart h).csr.ckptctl ≠ 0 → (s.hart h).ckptDue ≤ s.tick → exec (.ckptInterval h) s
      = .next ((s.setHart h { s.hart h with ckptDue := (s.hart h).ckptDue + (s.hart h).csr.ckptctl.toNat }).requestInterrupt h 3 0))
    ∧ (x.mayCkpt = true →
      let forced (whole : Bool) : State := (s.onTile v fun y => { y with
        ckpting := some { by_ := none, whole := whole, committed := false } }).logNote (vtDie v) (.forcedCkpt v)
      (x.logFull = true → exec (.logForcedCkpt v) s = .next (forced false))
      ∧ (x.hasCkpt = false → v < 3072 → exec (.moonForcedCkpt v) s = .next (forced true)))
    ∧ (s.ckptDone v = true → v < 3072 → x.flips = [] → Memory.wf s.mem = true → x.ckpting.bind (·.merge) = none →
      (x.mustMerge = true → exec (.ckptCommit v) s = .next (s.onTile v fun y => { y with
        ckpting := y.ckpting.map fun k => { k with merge := some (s.cycle v + y.increments) } }))
      ∧ (x.mustMerge = false →
        let area := hbmKey (vtDie v) (0xBF0000000 + v % 64 * 2 ^ 22)
        ∃ t, exec (.ckptCommit v) s = .next t ∧ (t.tile v).log = [] ∧ (t.tile v).dirty = []
          ∧ (t.tile v).hasCkpt = true ∧ (t.tile v).lastCkpt = s.tick
          ∧ t.ckpt.find v = some { tile := { t.tile v with window := (t.tile v).window.map fun o => o.asSubmitted (t.tile v)
                                                           cardWrites := [] }
                                   harts := (List.range 4).map fun k => t.hart (v * 4 + k), sram := t.sramCells v }
          ∧ ∀ k, memByte t.mem k = if x.toBase = true ∧ area ≤ k ∧ k < area + sliceBytes then
            memByte s.mem (sliceKey v 0 + (k - area)) else memByte s.mem k))
    ∧ (x.egress = i :: [] → i.item = .packet p → p.stream = none → x.failed = false →
      (∀ n ∈ i.needs, x.unverified.contains n = false) →
      exec (.egressRelease v) s = .next ((s.onTile v fun y => { y with egress := [] }).inject p))
    ∧ (v < 3072 → x.failed = true → x.cond = .running →
      ((s.die (vtDie v)).rotation = none → (s.tile moon).cond = .running →
        let t := (s.stopVt v).moonGone moon
        exec (.rollback v) s = .next (t.claimSpare v)
        ∧ (t.tile moon).hasCkpt = false ∧ (t.tile moon).log = []
        ∧ ((s.tile moon).failed = false → ∃ k, (t.tile moon).ckpting = some k ∧ k.whole = true ∧ k.committed = false)
        ∧ (x.hasCkpt = true → t.pickSpare v = some q → ∃ u, exec (.rollback v) s = .next u ∧ (u.tile v).cond = .rebuilding q)
        ∧ (x.hasCkpt = false → ∃ u, exec (.rollback v) s = .next u ∧ (u.tile v).cond = .lost)))
    ∧ (x.cond = .rebuilding q → (s.pt (vtDie v) q).state = .readySpare → (s.pt (vtDie v) q).awake = true →
      (s.pt (vtDie v) q).clockLost = false → v < 3072 → q ≠ s.ptOf v → Memory.wf s.mem = true →
      ∃ t, exec (.replayResume v) s = .next t ∧ (t.tile v).cond = .replay ∧ (t.tile v).failed = false ∧ t.ptOf v = q
        ∧ (t.pt (vtDie v) q).state = .inService
        ∧ (∀ k, k < sliceKey v 0 ∨ sliceKey (v + 1) 0 ≤ k → (∀ z ∈ (s.imageOf v).sram, z.1 ≠ k) → memByte t.mem k = memByte s.mem k)
        ∧ ∀ j, j < 4 → (t.hart (v * 4 + j)).regs = ((s.imageOf v).harts.getD j (Hart.reset (v * 4 + j))).regs
          ∧ (t.hart (v * 4 + j)).pc = ((s.imageOf v).harts.getD j (Hart.reset (v * 4 + j))).pc)
    ∧ (x.cond = .replay → (x.replayLog = [] → exec (.replayLogEvent v) s = .next (s.onTile v fun y => { y with cond := .running }))
      ∧ (x.replayLog = e :: log → ∀ k ch, e.body = .placed k ch m → s.reached v e.instret = true → ch ≠ 3 →
        exec (.replayLogEvent v) s = .next ((s.onHart k fun y => { y with
          chans := onAt y.chans ch fun l => l ++ [{ msg := m, running := false, moved := none }] }).onTile v fun y =>
            { y with replayLog := log })))
    ∧ (∀ ch pc u va, s.mayDispatch h = true → s.pickChannel (hartDie h) (s.hart h) = some ch →
      s.waitingHead (hartDie h) (s.hart h) ch = some m → s.launchMarked (hdrLaunch m.header) = false → hdrClass m.header ≠ 0xFF →
      s.handlerEntry h (hdrTenant m.header) (hdrClass m.header) = (u, some (va, some pc)) → bit pc 0 = true → bit pc 1 = false →
      ∃ t, exec (.dispatch h) s = .next t ∧ (t.hart h).task = some { chan := ch, inlineWords := none }
        ∧ (t.hart h).mode = .user ∧ (t.hart h).pc = pc &&& ~~~(3#64) ∧ (t.hart h).csr.launchid = hdrLaunch m.header
        ∧ (t.hart h).csr.tenant = hdrTenant m.header ∧ (t.hart h).lastChan = ch ∧ (t.hart h).regs.read (.g 3) = m.header.zeroExtend 512
        ∧ ∀ k : Fin 7, (t.hart h).regs.read (.g (BitVec.ofNat 5 (4 + k.val)))
          = ((m.payload.take (hdrLen m.header)).getD k.val 0).zeroExtend 512)
    ∧ (∀ w, x.llint ≠ 0 → s.cycle v % x.llint.toNat = 0 → s.levels v = true → x.levelled ≠ some (s.cycle v) →
      leastOf s.sharedOf (s.levelNeighbours v) = some w → s.levels w = true → s.sharedOf w + 2 ≤ s.sharedOf v →
      exec (.loadLevel v) s = .next ((List.range (min 4 ((s.sharedOf v - s.sharedOf w) / 2))).foldl
        (fun t _ => t.levelMove v w (s.cycle v / x.llint.toNat)) (s.onTile v fun y => { y with levelled := some (s.cycle v) })))

/-- R306-R309, R311, R325-R328, R331, R341, R345-R348: rotations start, drain, pause, move and are given up; self-tests, waking,
ageing and failing regulator phases; a lost clock holds its VT, and re-rooting, the standby hub and the alternate root restore it.
The model's own choices: a pause in two calls (notes/assumptions/58.md), and which of two requested VTs is rotated first
(notes/assumptions/30.md). -/
def Obligations.RotationAgeingAndClock : Prop :=
  ∀ (s : State) (d p v q g vb tb : Nat) (r : Rotation),
    let x := s.pt d p
    let onRotation (t : State) (o : Option Rotation) : State := t.onDie d fun y => { y with rotation := o }
    let settle (t : State) (c : VtCondition) : State := t.onTile r.vt fun y => { y with cond := c }
    (d < 48 → (s.die d).nextRotation ≤ s.tick → (s.die d).rotation = none → s.panelHalt = none →
      let t := s.onDie d fun y => { y with nextRotation := y.nextRotation + 21000000 }
      ((t.freeSpares d).length < 2 →
        exec (.rotationStart d) s = .next (t.onDie d fun y => { y with skipped := y.skipped + 1 }))
      ∧ (2 ≤ (t.freeSpares d).length → t.rotationPick d = some p → t.vtOf d p = some v → t.pickSpare v = some q →
        t.wakeRoom d = true → exec (.rotationStart d) s = .next ((t.onPt d q fun y =>
          { y with waking := true, wakeWaits := false, since := s.tick }).onDie d fun y => { y with
          rotation := some { vt := v, from_ := p, to_ := q, phase := .preCopy, since := s.tick }, rotateNext := none })))
    ∧ ((s.die d).rotation = some r → (s.pt d r.to_).state = .readySpare →
      (r.phase = .preCopy → (s.pt d r.to_).awake = true → (s.pt d r.to_).since + 33293 ≤ s.tick → (s.tile r.vt).cond = .running →
        (s.tile r.vt).failed = false →
        exec (.rotationDrain d) s = .next (onRotation (settle s .drain) (some { r with phase := .drain, since := s.tick })))
      ∧ ((s.tile r.vt).cond = .drain → s.hasDrained r.vt = true →
        ∃ t, exec (.rotationPause d) s = .next t ∧ (t.tile r.vt).cond = .pause ∧ t.mem = s.mem)
      ∧ ((s.tile r.vt).cond = .pause → (s.tile r.vt).failed = false → (s.tile r.vt).flips = [] → (s.pt d r.to_).clockLost = false → vtDie r.vt = d →
        r.from_ ≠ r.to_ → ∃ t, exec (.rotationPause d) s = .next t ∧ (t.tile r.vt).cond = .running ∧ t.ptOf r.vt = r.to_
          ∧ (t.die d).rotation = none ∧ t.mem = s.mem ∧ (t.pt d r.to_).state = .inService
          ∧ ∀ i, i < 4 → (t.hart (r.vt * 4 + i)).regs = (s.hart (r.vt * 4 + i)).regs)
      ∧ ((s.tile r.vt).cond = .drain → r.phase = .drain → r.since + 2100000 ≤ s.tick → (s.tile r.vt).abandoned ≠ 3 →
        ∃ t, exec (.rotationAbandon d) s = .next t ∧ (t.tile r.vt).cond = .running ∧ (t.die d).rotation = none
          ∧ (t.tile r.vt).abandoned = (s.tile r.vt).abandoned + 1))
    ∧ (x.state = .eclipse → x.clockLost = false → x.since + 15750000 ≤ s.tick →
      exec (.selfTestEnd d p true) s = .next (if x.marked = true ∨ x.dark = true then
        (s.onPt d p fun y => { y with sinceTest := s.tick }).retirePt d p
        else s.onPt d p fun y => { y with state := .readySpare, sinceTest := s.tick }))
    ∧ (x.state = .eclipse → ∃ t, exec (.selfTestEnd d p false) s = .next t ∧ (t.pt d p).state = .retired
      ∧ (t.die d).faultLog.length = (s.die d).faultLog.length + 2)
    ∧ (x.state = .readySpare → x.waking = true → x.clockLost = false → x.since + 525 ≤ s.tick → (∀ k, k < 72 → (s.pt d k).wakeWaits = false) →
      exec (.tileWakeDone d p) s = .next (s.onPt d p fun y => { y with waking := false }))
    ∧ (x.state = .inService → vb < 8 → tb < 8 →
      exec (.ageStressTick d p vb tb) s = .next ((s.onPt d p fun y => { y with
        stress := y.stress + (if Config.nominalBin vb tb = true then 1 else (Config.stressWeight vb tb).zeroExtend 48) }).checkAge d p))
    ∧ (d < 48 → g < 18 → let n := (s.die d).phasesFailed.get g 0 + 1
      let t := s.onDie d fun y => { y with phasesFailed := y.phasesFailed.put g n }
      n ≤ 6 → exec (.regulatorPhaseFail d g) s = .next (if n = 2 then t.darken d g else t))
    ∧ (d < 48 → p < 72 → x.clockLost = false → x.parent.isSome = true →
      ∃ t, exec (.clockLoss d p) s = .next t ∧ ∀ k ∈ s.tilesUnder d p, (t.pt d k).clockLost = true)
    ∧ (d < 48 → p < 72 → x.clockLost = false → x.parent.isSome = true → s.tilesUnder d p = [p] → (s.die d).rotation = none →
      let lost (t : State) : State :=
        (t.onPt d p fun y => { y with clockLost := true }).onDie d fun y => { y with rerooting := true }
      (s.vtOf d p = none → exec (.clockLoss d p) s = .next (lost s))
      ∧ (s.vtOf d p = some v → (s.tile v).cond = .running →
        let t := lost (s.onTile v fun y => { y.dropCkpt with oscTicks := 0, oscCycles := 0 })
        t.canHold v = true →
        exec (.clockLoss d p) s = .next (t.enterHold v) ∧ ((t.enterHold v).tile v).cond = .hold
          ∧ ∀ i, i < 4 → ((t.enterHold v).hart (v * 4 + i)).fixed = []))
    ∧ (s.vtOf d p = some v → (s.tile v).cond = .hold → x.clockLost = false → (s.tile v).hasCkpt = true →
      exec (.clockLock d p) s = .next (s.onTile v fun y => { y with
        cond := if y.replayLog ≠ [] then .replay
          else if (s.die (vtDie v)).rotation.any (fun o => o.vt == v && o.phase == .drain) = true then .drain
          else .running }))
    ∧ (d < 48 → (s.die d).rerooting = true → s.dieCanHold d = true → (s.hubClocked d = true ∨ (s.die d).hubLost = true) →
      ∃ t, exec (.reroot d) s = .next t ∧ (t.die d).rerooting = false)
    ∧ (d < 48 → (s.die d).hubLost = false → (s.die d).standbyHub = true →
      exec (.hubFailover d) s = .next (s.onDie d fun y => { y with standbyHub := false }))
    ∧ (s.altRoot = false → s.allCanHold = true → ∃ t, exec .rootFailover s = .next t ∧ t.altRoot = true)

/-- R332-R340: droop trips stretch and then halve the clock; duties follow the budget; quotas renew; shelf frames and the fallback
move the class limit, which reaches the dies, holds shed harts and lets them go. The model's own readings: the count of bad frames
wraps (notes/assumptions/54.md), and a quota with LIMIT 0 keeps USED (notes/assumptions/53.md). -/
def Obligations.DroopBudgetAndPowerClasses : Prop :=
  ∀ (s : State) (v h d watts : Nat) (p16 : List Nat) (bytes : List (BitVec 8)),
    let q := s.ptOf v
    let pt := s.pt (vtDie v) q
    let g := s.grid
    let a := (Grid.allowed g bytes)
    (pt.droopth &&& 31 ≠ 0 → (s.tile v).cond ≠ .hold → pt.clockLost = false → exec (.droopTrip v) s
      = .next ((s.onPt (vtDie v) q fun y => { y with trips := y.trips + 1 }).onTile v fun t => { t with
        stretch := some (pt.stretchLen.toNat + 1), half := (match t.stretch with | some (_ + 1) => t.half | _ => true)
        halve := none }))
    ∧ ((s.tile v).stretch = some 0 → exec (.droopStretchEnd v) s = .next (s.onTile v fun t => { t with
        stretch := none, half := false, halve := some (s.cycle v + pt.halveLen.toNat) }))
    ∧ (∀ e, (s.tile v).halve = some e → e ≤ s.cycle v →
      exec (.droopHalveEnd v) s = .next (s.onTile v fun t => { t with halve := none }))
    ∧ ((∀ i, i < 48 → p16.getD i 0 ≠ 0) → ∃ t, exec (.budgetTick watts p16) s = .next t ∧ ∀ i, i < 48 → ∀ k, k < 256 →
      let o := i * 256 + k
      let total := ((List.range 48).map fun j => p16.getD j 0).sum
      (t.hart o).csr.fetchduty.toNat = min (min 16 (16 * g.share watts / total)) (s.dutyCap (hartVt o)))
    ∧ ((s.hart h).window < s.tick / 1050000 → exec (.equotaRenew h) s = .next (s.onHart h fun x =>
        let used := if x.csr.equotaLimit.toNat < x.csr.equotaUsed.toNat then x.csr.equotaUsed - x.csr.equotaLimit else 0
        { x with
          csr := { x.csr with equotaUsed := used }, window := x.window + 1
          barred := decide (x.csr.equotaLimit ≠ 0 ∧ x.csr.equotaLimit.toNat ≤ used.toNat) }))
    ∧ (frameGood bytes = false → exec (.shelfFrame bytes) s
      = .next { s with grid := { g with stat := BitVec.ofNat 64 ((g.bad + 1) % 2 ^ 16 * 2 ^ 16 + g.fallback.toNat * 8 + g.limit) } })
    ∧ (frameGood bytes = true → ∃ t, exec (.shelfFrame bytes) s = .next t ∧ t = { s with grid := t.grid }
      ∧ t.grid.lastSeq = some (frameField bytes 2 2) ∧ t.grid.lastFrame = s.tick ∧ t.grid.fallback = false
      ∧ t.grid.gaps = g.gaps + (if g.lastSeq = none ∨ g.lastSeq.any (fun l => frameField bytes 2 2 == (l + 1) % 2 ^ 16) = true
          then 0 else 1)
      ∧ ∀ c, a = some c → c < g.limit → 0 < g.holdoff → t.grid.limit = c ∧ t.grid.lowered = s.tick)
    ∧ (g.fallback = false → g.lastFrame + 10500000 ≤ s.tick → ∃ t, exec .shelfFallback s = .next t ∧ t = { s with grid := t.grid }
      ∧ t.grid.fallback = true ∧ t.grid.limit = min g.limit (bits g.ctl 8 3))
    ∧ (d < 48 → g.limit < (s.die d).limit → ∃ t, exec (.shedLimitUpdate d) s = .next t ∧ (t.die d).limit = g.limit
      ∧ (t.die d).sheds = (s.die d).sheds ++ [(g.limit, g.lowered)] ∧ ∀ k, k < 256 → (s.hart (d * 256 + k)).task.isSome = true →
        g.limit < (s.hart (d * 256 + k)).csr.pclass.toNat → (s.hart (d * 256 + k)).csr.pclass ≠ 7 →
        (t.hart (d * 256 + k)).csr.kip.getLsbD 4 = true)
    ∧ (s.contextShed h = true → (s.hart h).shedHold = false →
      (∃ f ∈ (s.die (hartDie h)).sheds, f.1 < (s.hart h).csr.pclass.toNat ∧ f.2 + 1575000 ≤ s.tick) →
      s.mayAbandon h = true → (s.hart h).board = [] → (s.abandon h).sfuBusy h = false → s.inCkpt h = false → s.stopped h = false →
      exec (.shedHoldTimeout h) s
        = .next ((((s.abandon h).withdrawSfu h).endLease h).onHart h fun x => { x with shedHold := true }))
    ∧ (let n := (g.raise s.tick).limit
      d < 48 → (s.die d).limit < n → (∀ e, e < d → n ≤ (s.die e).limit) →
      ∃ t, exec (.shedRestore d) s = .next t ∧ (t.die d).limit = n ∧ t.grid.limit = n
        ∧ ∀ k, k < 256 → (s.hart (d * 256 + k)).csr.pclass.toNat ≤ n → (t.hart (d * 256 + k)).shedHold = false)

/-! ### Reset -/

/-- R37, R134, R190, R310, R387, R392: what reset leaves: the reset column of the CSR map on every tile hart, slices full and
matrix units idle, VT i of a die on PT i with PT 64-71 ready spares, harts waiting for dispatch, nothing in transit. The g, f, v
and k registers at 0 are the model's choice (notes/assumptions/3.md). -/
def Obligations.ResetLeavesItsTables : Prop :=
  ∀ h d p v : Nat, h < 12288 → d < 48 → p < 72 → v < 3072 →
    let s := State.reset
    let csr (n : Nat) := s.csrValue h (hartDie h) (s.ptOf (hartVt h)) n
    (∀ n ∈ [0x004, 0x005, 0x008, 0x010, 0x011, 0x018, 0x019, 0x020, 0x021, 0x029, 0x02A, 0x030, 0x031, 0x032, 0x033, 0x038, 0x039
        , 0x040, 0x041, 0x042, 0x043, 0x044, 0x045, 0x046, 0x047, 0x048, 0x049, 0x04A, 0x04B, 0x04C, 0x04D, 0x04E, 0x04F
        , 0x051, 0x052, 0x060, 0x061, 0x062, 0x063, 0x064, 0x401, 0x402, 0x403, 0x404, 0x405, 0x406, 0x407, 0x408, 0x409, 0x410
        , 0x418, 0x419, 0x420, 0x422, 0x430, 0x438, 0x440, 0x441, 0x480, 0x481, 0x482, 0x488, 0x489, 0x48A, 0xC30, 0xC40, 0xC41
        , 0xC48], csr n = some 0)
    ∧ csr 0x028 = some (BitVec.ofNat 64 h) ∧ csr 0x050 = some 0xD2 ∧ csr 0x053 = some 64 ∧ csr 0x054 = some 256
    ∧ csr 0x400 = some 256 ∧ csr 0x411 = some 0xFFFFFFFFFFFF ∧ csr 0x421 = some 16 ∧ csr 0x428 = some (24 * 256 + 16)
    ∧ csr 0x429 = some 4096 ∧ csr 0x431 = some 0 ∧ csr 0x448 = some 4096 ∧ csr 0xC10 = some 16 ∧ csr 0xC11 = some 8
    ∧ csr 0xC12 = some (64 * 2 ^ 16 + 6) ∧ csr 0xC18 = some 0 ∧ csr 0xC19 = some 0
    ∧ csr 0xC1A = some (0x9000 * 2 ^ 32 + 16) ∧ csr 0xC28 = some 1050000
    ∧ (s.hart h).mode = .user ∧ (s.hart h).task = none ∧ (∀ c : Fin 4, (s.hart h).chans[c] = []) ∧ s.stopped h = true
    ∧ (s.hart h).regs = { g := Vector.replicate 32 0, f := Vector.replicate 32 0, v := Vector.replicate 32 0
                          k := Vector.replicate 8 0 }
    ∧ (s.tile v).empty = [] ∧ (s.tile v).running = none ∧ (s.tile v).queue = [] ∧ (s.tile v).cond = .running
    ∧ s.ptOf v = v % 64 ∧ (s.pt d p).state = (if p < 64 then .inService else .readySpare)
    ∧ s.net = [] ∧ s.launches = [] ∧ s.tenants = [] ∧ s.tick = 0
    ∧ s.grid.ctl = BitVec.ofNat 64 (50 * 2 ^ 16 + 6 * 2 ^ 8)

/-! ### Steps, fetch and decoding -/

/-- R25, R49-R51, R288, R292, R350, R351: a step makes the next move; a hart's turn that issues runs exec of the instruction that
the fetched words decode to, or of the reserved encoding when they name none, in the state whose current hart and word they are, and
then what `finish` adds (answers of a prompt move, the halt of R352). A turn takes a requested debug halt first, then a due
interrupt; with none, no pending trap and a hart that may issue it fetches: a failing fetch traps, then a breakpoint that matches,
else the instruction issues, as an LWAIT that waits does. The order of moves is the model's (notes/assumptions/1.md). -/
def Obligations.StepRunsTheDecodedInstruction : Prop :=
  ∀ (s : State),
    let m := s.nextMove.1
    let u := s.nextMove.2.prepare m
    let ending (h : Nat) (r : Answer) : Answer := match r with
      | .next t => .next (t.finish h)
      | r => r
    (∀ e, m.what = .event e →
      (u.inReset = none ∨ ∃ signed failing, e = .panelReset signed failing) → step s = exec e u)
    ∧ (∀ e, m.what = .event e → u.inReset ≠ none → (∀ signed failing, e ≠ .panelReset signed failing) → step s = .next u)
    ∧ ∀ h, m.what = .hart h →
      (∀ t, u.turn h = .still t → step s = .next t)
      ∧ (∀ v w w2, u.turn h = .issue v w w2 →
        (∀ i, decode w w2 = .ok i → step s = ending h (exec i v))
        ∧ (∀ e, decode w w2 = .error e → step s = ending h (exec (.reservedEncoding w) v)))
      ∧ (u.inReset ≠ none → u.turn h = .still (u.preemptHeld h))
      ∧ (u.inReset = none →
        let p := u.preemptHeld h
        let x := p.hart h
        let taking (t : State) (w : Word32) (c : Cause) (tval : Word) : State :=
          ({ t with cur := h, word := w }.acting.raise h c tval).afterIssue h
        (x.csr.kip.getLsbD 6 = true → x.halted = none → x.lwaitSince = none → p.inCkpt h = false →
          u.turn h = .still (if x.midStep = true ∧ p.trapDue h = true then ({ p.pendingTrap h with cur := h } : State).afterIssue h
            else p.debugHalt h))
        ∧ (p.lwaitRuns h = true → ∀ t w w2, p.fetch h = (t, .ok (w, w2)) → (t.hart h).lwaitSince.isSome = true →
          u.turn h = .issue { t with cur := h, word := w } w w2)
        ∧ (x.csr.kip.getLsbD 6 = false → x.lwaitSince = none → p.stopped h = false →
          ((p.interruptDue h).isSome = true → u.turn h = .still ({ p.interrupt h with cur := h }.afterIssue h))
          ∧ (p.interruptComing h = none → x.pendTraps = [] → p.mayIssue h = true →
            let v := if isSup h then p else p.reenterSfu h 4
            (∀ t w w2, v.fetch h = (t, .ok (w, w2)) → (t.hart h).atBreakpoint = false →
              u.turn h = .issue { t with cur := h, word := w } w w2)
            ∧ (∀ t w w2, v.fetch h = (t, .ok (w, w2)) → (t.hart h).atBreakpoint = true → (t.hart h).lwaitSince = none →
              (t.hart h).csr.dbgctl.getLsbD 4 = false → u.turn h = .still (taking t w .watch (t.hart h).pc))
            ∧ (∀ t, v.fetch h = (t, .error none) → u.turn h = .still t)
            ∧ (∀ t c tval, v.fetch h = (t, .error (some (c, tval))) → u.turn h = .still (taking t 0 c tval)))))

/-- R3, R22, R235, R303: a hart fetches four bytes, lowest first, at the place its PC translates to: from its tile's instruction
cache if the line is there, else from memory (a supervisor hart where the rules state what stands there,
notes/assumptions/32.md); EXT fetches the word after it too. An inline task fetches the words of its
message, and nothing else in U mode outside a handler. -/
def Obligations.FetchReadsTheBytesAtThePc : Prop :=
  ∀ (s : State) (h : Nat),
    let x := s.hart h
    let inl := x.task.bind (·.inlineWords)
    let word (m : List Host.Cell) (k : Nat) : Word32 :=
      memByte m (k + 3) ++ memByte m (k + 2) ++ memByte m (k + 1) ++ memByte m k
    let wordAt (u : State) (l : Located) : Word32 :=
      match (if isSup h then none else (u.tile (hartVt h)).icache.find l.place.line) with
      | none => word u.mem l.place.key
      | some bs => bytesWord (bs.drop (l.place.key % 128))
    let admitted (u : State) (l : Located) : Prop :=
      (isSup h = false ∧ (u.tile (hartVt h)).icache.find l.place.line ≠ none) ∨ u.hbmAdmits (.tile (hartVt h)) l.place = true
    (∀ i, slotIndex x.pc = some i →
      (∀ n, inl = some n → i < n → x.mode = .user →
        (fld (x.slotWord i) 22 7 ≠ 0x7F → s.fetch h = (s, .ok (x.slotWord i, 0)))
        ∧ (fld (x.slotWord i) 22 7 = 0x7F →
          s.fetch h = if i + 1 < n then (s, .ok (x.slotWord i, x.slotWord (i + 1)))
            else (s, .error (some (.inlineFault, x.pc + 4)))))
      ∧ ((∀ n, inl = some n → n ≤ i ∨ x.mode ≠ .user) → s.fetch h = (s, .error (some (.inlineFault, x.pc)))))
    ∧ (slotIndex x.pc = none → inl ≠ none → x.mode = .user → x.csr.uh = false → s.fetch h = (s, .error (some (.inlineFault, x.pc))))
    ∧ (slotIndex x.pc = none → (inl = none ∨ x.mode ≠ .user ∨ x.csr.uh = true) →
      (∀ u c, s.locate (s.ctx h) x.pc .fetch true = (u, .error c) → s.fetch h = (u, .error (c.map fun e => (e, x.pc))))
      ∧ ∀ u l, s.locate (s.ctx h) x.pc .fetch true = (u, .ok l) → u.unreadable l.place = false → l.place.key % 4 = 0 →
        admitted u l → (isSup h = true → l.place.unstated = false) →
        let w := wordAt u l
        (fld w 22 7 ≠ 0x7F → (s.fetch h).2 = .ok (w, 0))
        ∧ (fld w 22 7 = 0x7F →
          let v := (s.fetchWord h x.pc x.pc).1
          (∀ t c, v.locate (v.ctx h) (x.pc + 4) .fetch true = (t, .error c) →
            (s.fetch h).2 = .error (c.map fun e => (e, if e = .memError then x.pc + 4 else x.pc)))
          ∧ ∀ t m, v.locate (v.ctx h) (x.pc + 4) .fetch true = (t, .ok m) → t.unreadable m.place = false →
            m.place.key % 4 = 0 → admitted t m → (isSup h = true → m.place.unstated = false) → (s.fetch h).2 = .ok (w, wordAt t m)))

/-- R38-R50: words written out from the tables of the encoding chapter decode to the instructions they stand for, and reserved
ones to none. -/
def Obligations.WordsDecodeAsTheSpecEncodesThem : Prop :=
  (∀ e ∈ ([(0x40485300, .add 2 4 5 6), (0x00485301, .sub 0 4 5 6), (0x00485322, .addsh 0 4 5 6 2)
      , (0x00704018, .clz 0 24 4), (0x0088530A, .sraw 0 4 5 6), (0x00C85302, .mulhz 0 4 5 6)
      , (0x01085FFF, .addi 0 4 5 0xFFF), (0x02884083, .srai 0 4 4 3), (0x02884183, .sraiw 0 4 4 3)
      , (0x03081234, .lui 0 4 0x1234), (0x05820005, .jal 0 1 5), (0x05C01000, .jalr 0 0 1 0)
      , (0x06C82008, .ldd 0 4 2 8), (0x08C82010, .std 0 4 2 16), (0x0A08500F, .ldAcq 0 4 5 3 3)
      , (0x0A0042AA, .stRel 0 4 5 2 2), (0x10022180, .fadd 0 1 2 3 0), (0x1008151C, .fcvt 0 4 1 10)
      , (0x10422190, .fmaS 0 1 2 3 4), (0x0C740011, .csrrs 0 26 0 0x011), (0x0CC02005, .csrrwi 0 0 2 0x005)
      , (0x0D88000B, .tstamp 0 4), (0x0D800002, .uret 0), (0x0E804000, .submit 0 4), (0x0E404280, .barinit 0 4 5)
      , (0x15422500, .vcvtLo 0 1 2 10 0), (0x1A022286, .maccput 0 1 2 5)] : List (Word32 × Instr)), decode e.1 0 = .ok e.2)
  ∧ (∀ w w2 : Word32, (fld w 22 7).toNat ∈ [0x00, 0x0E, 0x0F, 0x1F, 0x2C, 0x2D, 0x2E, 0x2F, 0x3B, 0x3C, 0x3D, 0x3E, 0x3F, 0x43, 0x44
      , 0x45, 0x46, 0x47, 0x48, 0x49, 0x4A, 0x4B, 0x4C, 0x4D, 0x4E, 0x4F, 0x5D, 0x5E, 0x5F, 0x6A, 0x6B, 0x6C, 0x6D, 0x6E, 0x6F, 0x70
      , 0x71, 0x72, 0x73, 0x74, 0x75, 0x76, 0x77, 0x78, 0x79, 0x7A, 0x7B, 0x7C, 0x7D, 0x7E] →
    decode w w2 = .error .unassignedOpcode)
  ∧ (∀ w2, decode 0x00704098 w2 = .error .nonzeroField ∧ decode 0x0A0042BE w2 = .error (.illFormed .scopeCode)
    ∧ (decode 0xFFFFFFFF w2).toOption = none)

/-- Every well-formed instruction with a word is read back from its bytes, with every operand at every value it can take; the
words of events, which have none, are 0, and 0 is no instruction. -/
def Obligations.EveryInstructionSurvivesItsEncoding : Prop :=
  ∀ i : Instr, i.WellFormed → (∀ w, i ≠ .reservedEncoding w) →
    if encode i = 0 then (∀ w, (decode 0 w).toOption = none)
    else decodeBytes (wordBytes (encode i) ++ wordBytes (encodeSecond i)) = .ok i

/-- No bit of a word is ignored: whatever decodes is the encoding of what it decodes to, so reserved fields are refused. -/
def Obligations.EveryDecodedWordIsItsEncoding : Prop :=
  ∀ (w w2 : Word32) (i : Instr), decode w w2 = .ok i →
    i.WellFormed ∧ encode i = w ∧ (instrBytes i = 8 → encodeSecond i = w2)

/-- Whatever the next move is, memory stays in its canonical form: addresses strictly rising and no cell that reads as an unlisted
one does. -/
def Obligations.StepsKeepMemoryCanonical : Prop :=
  ∀ s t : State, Memory.wf s.mem = true → step s = .next t → Memory.wf t.mem = true

/-! ### Traps -/

/-- R26, R164, R183, R287, R288: a trap of a tile hart goes to U where UDELEG sends it, the cause may go to U, no handler of U runs
and UTVEC is set; else to K where KDELEG sends it, unless it is ECALL_K, and KTVEC is set; else the hart parks. The level's
registers take the PC, the TVAL and the cause, results in flight are written and SFU entries withdrawn. Besides these only what
the instruction was waiting in changes (the model's reading, notes/assumptions/37.md): its WFI, the age of its handler's look-up,
its reserved send-queue entry, its FLUSHRES, its place in the contention for lanes and its grant, and the open block of the
checker. A trap of a supervisor hart goes to FTVEC.
R287, R292: an interrupt is taken at K: its cause's pending bit is cleared, KEPC, KTVAL and KCAUSE take the PC to return to,
the value requested and 0x80 + n, and 0x80 and 0x81 end the lease of a hart whose command does not run. -/
def Obligations.TrapsAndInterruptsEnterTheirLevel : Prop :=
  (
    ∀ (s : State) (h : Nat) (c : Cause) (tval : Word) (w : Word32),
      let x := (s.hart h).drain
      let v := hartVt h
      let tile := s.tile v
      let out : Hart := { x with
        withdrawnSfu := (tile.sfu.filter fun e => e.hart == h) ++ x.withdrawnSfu
        wfi := none, handlerSince := none
        sendq := x.sendq.filter fun e => !(e.id == x.seq && e.state == .reserved)
        checker := { x.checker with block := none, resync := true } }
      let k : Tile := { tile with
        sfu := tile.sfu.filter fun e => e.hart != h, flushing := tile.flushing.filter fun f => f.hart != h
        laneWant := tile.laneWant.filter fun e => e.1 != h, laneGrants := tile.laneGrants.filter (· != h) }
      let toU := x.mode = .user ∧ x.csr.uh = false ∧ x.csr.udeleg.getLsbD c.code = true
        ∧ c.code ∉ [0x05, 0x06, 0x10, 0x15, 0x16, 0x19, 0x1A] ∧ x.csr.utvec ≠ 0
      let toK := x.csr.kdeleg.getLsbD c.code = true ∧ c.code ≠ 0x06 ∧ x.csr.ktvec ≠ 0
      (isSup h = false → x.mode ≠ .firmware →
        (toU → ∃ t, s.takeTrap h c tval w = t.trace h 2 x.csr.utvec ∧ s.hartAndTile t h k
          ∧ t.hart h = { out with
            pc := x.csr.utvec
            csr := { x.csr with uepc := x.pc, utval := tval, ucode := BitVec.ofNat 8 c.code, uh := true } })
        ∧ (¬ toU → toK → ∃ t, s.takeTrap h c tval w = t.trace h 2 x.csr.ktvec ∧ s.hartAndTile t h k
          ∧ t.hart h = { out with
            pc := x.csr.ktvec, mode := .kernel
            csr := { x.csr with kepc := x.pc, ktval := tval, kcause := BitVec.ofNat 8 c.code
                                pm := if x.mode = .user then 0 else 1, pie := x.csr.ie, ie := false } })
        ∧ (¬ toU → ¬ toK → ∃ t, s.takeTrap h c tval w = t.park h c tval w ∧ s.hartAndTile t h k ∧ t.hart h = out))
      ∧ (isSup h = true → x.mode = .firmware →
        s.onlyHart (s.takeTrap h c tval w) h
        ∧ (s.takeTrap h c tval w).hart h = { x with
          pc := x.csr.ftvec
          csr := { x.csr with fepc := x.pc, ftval := tval, fcause := BitVec.ofNat 8 c.code, fPie := x.csr.fIe, fIe := false } })
  )
  ∧ (
    ∀ (s : State) (h n : Nat) (epc : Word) (sp : Bool), isSup h = false → n < 6 →
      let x := (s.hart h).drain
      let tile := s.tile (hartVt h)
      (∀ r, tile.running = some r → r.cmd.hart ≠ h) →
      ∃ t : State, s.takeInterrupt h n epc sp = t.trace h 2 x.csr.ktvec
        ∧ (∀ i, i ≠ h → t.hart i = s.hart i) ∧ (∀ v, v ≠ hartVt h → t.tile v = s.tile v) ∧ t.mem = s.mem
        ∧ t.hart h = { x with
          pc := x.csr.ktvec, mode := .kernel
          withdrawnSfu := (tile.sfu.filter fun e => e.hart == h) ++ x.withdrawnSfu
          wfi := none, handlerSince := none
          sendq := x.sendq.filter fun e => !(e.id == x.seq && e.state == .reserved)
          checker := { x.checker with block := none, resync := true }
          lease := if n ≤ 1 then .none else x.lease
          leaseEnding := if n ≤ 1 then false else x.leaseEnding
          csr := { x.csr with
            kepc := epc, kcause := BitVec.ofNat 8 (0x80 + n), kip := x.csr.kip &&& ~~~(BitVec.ofNat 7 (2 ^ n))
            ktval := match n with
              | 2 => x.irq.throttle
              | 4 => x.irq.shed
              | 5 => x.irq.cancel
              | _ => 0
            pm := if x.mode = .user then 0 else 1, pie := x.csr.ie, ie := false
            sp := if n = 1 then sp else x.csr.sp } }
  )

/-- R293, R294, R296: a parking hart stops, writes its frame to its slot of the tile's SRAM, changing no other byte, and posts its
kind-2 record, the words of the tile's SRAM holding no error; a reload takes registers, PC, mode and CSRs back from the frame,
with g0 zero. The model's own readings: a frame that names mode 2 or 3 (notes/assumptions/10.md), the low bits of its PC
(notes/assumptions/34.md), and TAGS, which it does not bring back (notes/assumptions/79.md). -/
def Obligations.ParkingWritesTheFrame : Prop :=
  ∀ (s : State) (h : Nat) (c : Cause) (tval : Word) (w : Word32), isSup h = false → Memory.wf s.mem = true →
    (s.tile (hartVt h)).flips = [] →
    let x := s.hart h
    let t := s.parkFrame h c tval w
    let base := sliceKey (hartVt h) (0x3F0000 + h % 4 * 0x1000)
    let word := parkWord c w
    t.stopped h = true ∧ (t.hart h).withdrawnSfu = []
    ∧ (∀ a, a < base ∨ base + 4096 ≤ a → memByte t.mem a = memByte s.mem a)
    ∧ t.frameWord h 0 = 0 ∧ (∀ i : Fin 32, i.val ≠ 0 → t.frameWord h i = x.regs.g[i])
    ∧ (∀ i : Fin 32, t.frameWord h (32 + i) = x.regs.f[i])
    ∧ (∀ (i : Fin 32) (j : Nat), j < 8 → t.frameWord h (64 + 8 * i + j) = x.regs.v[i].extractLsb' (64 * j) 64)
    ∧ (∀ i : Fin 8, t.frameWord h (320 + i) = x.regs.k[i])
    ∧ t.frameWord h 328 = x.pc ∧ t.frameWord h 329 = BitVec.ofNat 64 (x.mode.code * 256 + c.code) ∧ t.frameWord h 330 = tval
    ∧ (∀ e ∈ ([(331, x.csr.kstatus), (332, x.csr.kepc), (334, x.csr.ktval), (335, x.csr.kscratch), (336, x.csr.ktvec)
        , (337, x.csr.uepc), (338, x.csr.ucause), (339, x.csr.utval), (340, x.csr.uscratch), (341, x.csr.utvec)
        , (342, x.csr.fflags.zeroExtend 64), (349, x.csr.launchid.zeroExtend 64), (350, x.csr.tenant.zeroExtend 64)
        , (358, x.csr.tags), (359, x.csr.tagerr), (360, x.csr.ptbase), (367, x.csr.udeleg), (368, x.csr.kdeleg)
        , (369, x.csr.kie)] : List (Nat × Word)), t.frameWord h e.1 = e.2)
    ∧ (∃ u : State, t = u.postFault (hartVt h) (h % 4) x.csr.tenant x.csr.launchid
        [x.pc, tval, word, BitVec.ofNat 64 (x.mode.code * 2 ^ 24 + x.csr.tenant.toNat * 2 ^ 16 + x.csr.launchid.toNat), 0
        , BitVec.ofNat 64 (hartVt h % 4096 * 2 ^ 20 + h % 4 * 2 ^ 18 + 2 * 2 ^ 16 + c.code)])
    ∧ (let y := (s.reloadFrame h).hart h
       y.parked = none ∧ y.pc = s.frameWord h 328 &&& ~~~(3#64)
       ∧ y.mode = (if (s.frameWord h 329).toNat / 256 % 4 = 1 then .kernel else .user)
       ∧ (∀ i : Fin 32, y.regs.g[i] = if i.val = 0 then 0 else s.frameWord h i)
       ∧ (∀ i : Fin 32, y.regs.f[i] = s.frameWord h (32 + i)) ∧ (∀ i : Fin 8, y.regs.k[i] = s.frameWord h (320 + i))
       ∧ y.csr.kepc = s.frameWord h 332 ∧ y.csr.uepc = s.frameWord h 337 ∧ y.csr.udeleg = s.frameWord h 367
       ∧ y.csr.kdeleg = s.frameWord h 368 ∧ y.csr.kie = s.frameWord h 369 ∧ y.csr.tags = x.csr.tags
       ∧ y.csr.kip = x.csr.kip ||| (s.frameWord h 370).truncate 7 ∧ y.fixed = [])

/-! ### Checks before any effect -/

/-- R9, R17, R25-R28, R51, R286, R299: a mode too low traps PRIV; under STALLCHK a distance too short traps STALL_VIOL with the
consumer's word; an instruction whose operand is still to come waits with nothing changed. Without STALLCHK the consumer
reads what the register held before its producer, and of two writers too close the older one's value stays. Only a U-mode
instruction outside an open block, under SIGBASE.EN, is looked up in the signature table first (R321). On a supervisor
hart the instructions of a tile's units stop by name (the model's choice, notes/assumptions/61.md). -/
def Obligations.ChecksComeBeforeEffects : Prop :=
  ∀ (sc : BitVec 3) (d a b : BitVec 5) (s : State),
    let x := s.self
    let word : Word := s.word.zeroExtend 64
    let card := (List.range 4).map fun j => Reg.g (a + BitVec.ofNat 5 j)
    let stops (i : Instr) (c : Cause) : Prop := exec i s = .next (s.acting.raise s.cur c word)
    let aluBad (p : FixedResult) : Prop := 0 < p.left ∧ (p.dst = .g a ∨ p.dst = .g b ∨ p.dst = .g d)
    (x.mode = .user → stops (.wfi sc) .priv ∧ stops (.kret sc) .priv ∧ stops (.tlbinv sc a b) .priv)
    ∧ (x.mode ≠ .firmware → stops (.fret sc) .priv)
    ∧ (x.csr.stallchk = true →
      ((∃ p ∈ x.fixed, aluBad p) → stops (.add sc d a b) .stallViol)
      ∧ ((∃ p ∈ x.fixed, 0 < p.left ∧ (p.dst = .g a ∨ p.dst = .g b ∨ p.dst = .g d ∧ 3 ≤ p.left)) →
        stops (.mul sc d a b) .stallViol))
    ∧ (x.fixed = [] → s.mustWait s.cur [.g a, .g b, .g d] = true →
      let waits : Answer := .next (s.waiting s.cur).idle
      exec (.add sc d a b) s = waits ∧ exec (.mul sc d a b) s = waits)
    ∧ (∀ p, x.csr.stallchk = false → x.fixed = [p] → 0 < p.left → s.mustWait s.cur [.g a, .g b, .g d] = false →
      (p.written = false → p.dst = .g a → a ≠ b → d ≠ a →
        ∃ t, exec (.add sc d a b) s = .next t
          ∧ s.retires t sc (x.pc + 4) (s.withG d ((x.regs.read (.g a)).truncate 64 + x.finalG b)) x.csr)
      ∧ (p.written = true → p.dst = .g a → a ≠ b → d ≠ a →
        ∃ t, exec (.add sc d a b) s = .next t ∧ s.retires t sc (x.pc + 4) (s.withG d (p.old + x.finalG b)) x.csr)
      ∧ (p.dst = .g d → d ≠ a → d ≠ b →
        ∃ t, exec (.add sc d a b) s = .next t ∧ s.retires t sc (x.pc + 4) x.settledRegs x.csr))
    ∧ (isSup s.cur = true →
      ∀ r ∈ ([(.accF32 sc a b, [.g a, .v b], []), (.accBf sc a b, [.g a, .v b], []), (.accS32 sc a b, [.g a, .v b], [])
        , (.accS64 sc a b, [.g a, .v b], []), (.flushres sc, [], []), (.tailstat sc d a, [.g a], [.g d]), (.mlease sc, [], [])
        , (.mleaseB sc d, [], [.g d]), (.submit sc a, card, []), (.submitB sc d a, card, [.g d]), (.tmap sc a b, [.g a], []), (.mreq sc a b, [.g a, .g b], [])
        , (.mbind sc a b, [.g a, .g b], []), (.lwatch sc a, [.g a], []), (.ckpt sc, [], [])] : List (Instr × List Reg × List Reg)),
        s.canIssue (reachOp r.2.1 r.2.2 0) → exec r.1 s = .refused .noTileUnit)
    ∧ (x.csr.inld ≠ 0 → s.canIssue (reachOp (.g 3 :: payloadRegs 7) [] 0) → stops (.tyield sc) .illegal)
    ∧ (isSup s.cur = true ∨ x.mode ≠ .user ∨ x.csr.sigbase.getLsbD 0 = false ∨ x.checker.block.isSome = true → s.acting = s)

/-! ### Addresses -/

/-- R16, R105, R110, R112, R134: the own-slice alias and the window reach the bytes of a slice of the tenant below the moon region
and fetch nothing; any other address above the paged region, and any paged one while PTBASE is off, faults; a translation writes
nothing but A, and D for a write, into the entries it uses. -/
def Obligations.AddressesReachTheirHomes : Prop :=
  ∀ (s : State) (c : Ctx) (va : Word) (kind : AccessKind), c.mode ≠ .firmware →
    let off := va.toNat % 2 ^ 22
    let slice (v : Nat) : Prop :=
      if s.inTenant c.tenant v = false then s.locate c va kind true = (s, .error (some .tenantViol))
      else if 0x300000 ≤ off then s.locate c va kind true = (s, .error (some (pfCause kind)))
      else if kind = .fetch then s.locate c va kind true = (s, .error (some .fetchPf))
      else s.locate c va kind true = (s, .ok { place := slicePlace v off, rdw := false })
    (0xFFFF000000000000 ≤ va.toNat → va.toNat < 0xFFFF000000400000 → slice c.vt)
    ∧ (0xFFFE000000000000 ≤ va.toNat → va.toNat < 0xFFFE000400000000 → slice (va.toNat / 2 ^ 22 % 4096))
    ∧ (2 ^ 48 ≤ va.toNat → va.toNat < 0xFFFE000000000000 ∨ 0xFFFE000400000000 ≤ va.toNat ∧ va.toNat < 0xFFFF000000000000
        ∨ 0xFFFF000000400000 ≤ va.toNat → s.locate c va kind true = (s, .error (some (pfCause kind))))
    ∧ (va.toNat < 2 ^ 48 → c.ptbase.getLsbD 0 = false → s.locate c va kind true = (s, .error (some (pfCause kind))))
    ∧ (Memory.wf s.mem = true → ∀ t l, s.locate c va kind true = (t, .ok l) →
      t = { s with mem := t.mem, tiles := t.tiles, dies := t.dies, free := t.free }
      ∧ ∀ a, memByte t.mem a = memByte s.mem a ∨ memByte t.mem a = memByte s.mem a ||| 0x40
        ∨ (kind = .store ∨ kind = .amo) ∧ memByte t.mem a = memByte s.mem a ||| 0xC0)

/-! ### Watchpoints -/

/-- R350: an access that touches a byte of the dword that an enabled watchpoint names, of a kind that it watches, changes
nothing, and raises WATCH with the lowest address of the access in the dword, or enters debug halt under BPACT; the other
watchpoint is off. A load reads, a store and an ACC write, an AMO does both; of several elements or rows the first that
touches the dword is reported, and a masked lane touches nothing. -/
def Obligations.WatchpointsStopAccesses : Prop :=
  ∀ (sc : BitVec 3) (d a b : BitVec 5) (k m e : BitVec 3) (imm : BitVec 12) (o : BitVec 9) (z : BitVec 2) (u : BitVec 1)
    (i : Fin 2) (s : State),
    let x := s.self
    let wp := x.csr.wp[i]
    wp.getLsbD 0 = true → (x.csr.wp[1 - i]).getLsbD 0 = false →
    let lo := wp.toNat / 8 * 8
    let kinds := wp.toNat / 2 % 4
    let stops (j : Instr) (at_ : Word) : Prop :=
      exec j s = .next (
        if x.csr.dbgctl.getLsbD 4 = false then s.acting.raise s.cur .watch at_
        else if s.boundary s.cur then s.enterHalt s.cur (s.panelHalt.getD s.tick) else s.idle)
    let placed (kind : AccessKind) (vas : List Word) : Prop := ∃ u ps, s.placesOf kind vas = (u, .ok ps)
    let inDword (va : Word) (n : Nat) : Prop := va.toNat % n = 0 ∧ va.toNat / 8 * 8 = lo
    let va := x.finalG a + imm.signExtend 64
    let base := x.finalG a
    let n := elemWidth s.vtype / 8
    let mask := x.finalMask k
    let active := (List.range (64 / n)).filter fun j => mask.getLsbD j
    let line := base + 64 * o.signExtend 64
    let first (f : Nat → Word) (j : Nat) : Prop :=
      j ∈ active ∧ (f j).toNat / 8 * 8 = lo ∧ ∀ q ∈ active, (f q).toNat % n = 0 ∧ (q < j → (f q).toNat / 8 * 8 ≠ lo)
    let elements (kind : AccessKind) (i : Instr) (f : Nat → Word) : Prop :=
      ∀ j, first f j → placed kind (active.map f) → stops i (f j)
    let wholeLine (kind : AccessKind) (i : Instr) : Prop :=
      let f (j : Nat) : Word := line + BitVec.ofNat 64 (j * n)
      ∀ j, line.toNat % 64 = 0 → first f j → placed kind [line] → stops i (f j)
    let width := x.mWidth m
    let rows (kind : AccessKind) (i : Instr) : Prop :=
      (x.mode = .user → x.mValid.getLsbD m.toNat = true) → width ≤ 64 → base.toNat % width = 0 →
      let row (j : Nat) : Word := base + BitVec.ofNat 64 (j * width)
      ∀ j, j < x.mRows m → (row j).toNat ≤ lo → lo < (row j).toNat + width →
        (∀ q, q < j → lo < (row q).toNat ∨ (row q).toNat + width ≤ lo) →
        placed kind ((List.range (x.mRows m)).map row) → stops i (BitVec.ofNat 64 lo)
    (kinds % 2 = 1 →
      (∀ r ∈ ([(.ldb sc d a imm, .g d, 1), (.ldh sc d a imm, .g d, 2), (.ldw sc d a imm, .g d, 4), (.ldd sc d a imm, .g d, 8)
          , (.ldbz sc d a imm, .g d, 1), (.ldhz sc d a imm, .g d, 2), (.ldwz sc d a imm, .g d, 4), (.fldw sc d a imm, .f d, 4)
          , (.fldd sc d a imm, .f d, 8)] : List (Instr × Reg × Nat)),
        s.canIssue (regOp [.g a] [r.2.1] 0) → inDword va r.2.2 → placed .load [va] → stops r.1 va)
      ∧ (s.canIssue (regOp [.g a] [.g d] 0) → inDword base (2 ^ z.toNat) → placed .load [base] → stops (.ldAcq sc d a e z) base)
      ∧ (s.canIssue (reachOp [.g a] [.g d] 0) → 2 ^ 48 ≤ base.toNat → inDword base 8 → placed .load [base] →
        stops (.ldtake sc d a) base)
      ∧ (s.canIssue (regOp (.g a :: maskReg k) [.v d] 0) →
        wholeLine .load (.vld sc d a k o)
        ∧ (active ≠ [] → inDword base n → placed .load [base] → stops (.vldb sc d a k) base))
      ∧ (s.canIssue (regOp (.g a :: .g b :: maskReg k) [.v d] 0) →
        elements .load (.vlds sc d a b k) fun j => base + BitVec.ofNat 64 j * x.finalG b)
      ∧ (s.canIssue (regOp (.g a :: .v b :: maskReg k) [.v d] 0) →
        elements .load (.vgath sc d a b k) fun j => base + BitVec.ofInt 64 (signedOf (8 * n) (lane (8 * n) (x.finalV b) j)))
      ∧ (s.canIssue (reachOp [.g a] [.m m] 0) → rows .load (.mldm sc m a)))
    ∧ (2 ≤ kinds →
      (∀ r ∈ ([(.stb sc d a imm, .g d, 1), (.sth sc d a imm, .g d, 2), (.stw sc d a imm, .g d, 4), (.std sc d a imm, .g d, 8)
          , (.fstw sc d a imm, .f d, 4), (.fstd sc d a imm, .f d, 8)] : List (Instr × Reg × Nat)),
        s.canIssue (reachOp [.g a, r.2.1] [] 0) → inDword va r.2.2 → placed .store [va] → stops r.1 va)
      ∧ (s.canIssue (reachOp [.g a, .g b] [] 0) →
        ((∀ w ∈ x.posted, covers s.cur e.toNat w.place = false) → x.accs = [] → inDword base (2 ^ z.toNat) →
          placed .store [base] → stops (.stRel sc a b e z) base)
        ∧ (2 ^ 48 ≤ base.toNat → inDword base 8 → placed .store [base] → stops (.stfill sc a b) base))
      ∧ (isSup s.cur = false → s.canIssue (reachOp [.g a, .v b] [] 0) → base.toNat % 64 = 0 → lo / 64 * 64 = base.toNat →
        placed .amo [base] →
        ∀ i ∈ ([.accF32 sc a b, .accBf sc a b, .accS32 sc a b, .accS64 sc a b] : List Instr), stops i (BitVec.ofNat 64 lo))
      ∧ (s.canIssue (reachOp (.g a :: .v d :: maskReg k) [] 0) → wholeLine .store (.vst sc d a k o))
      ∧ (s.canIssue (reachOp (.g a :: .g b :: .v d :: maskReg k) [] 0) →
        elements .store (.vsts sc d a b k) fun j => base + BitVec.ofNat 64 j * x.finalG b)
      ∧ (s.canIssue (reachOp (.g a :: .v b :: .v d :: maskReg k) [] 0) →
        elements .store (.vscat sc d a b k) fun j => base + BitVec.ofInt 64 (signedOf (8 * n) (lane (8 * n) (x.finalV b) j)))
      ∧ (s.canIssue (reachOp [.m m, .g a] [] 0) → rows .store (.mstm sc m a)))
    ∧ (kinds ≠ 0 → inDword base (if u = 1 then 8 else 4) → placed .amo [base] →
      ∀ r ∈ ([(.amoadd sc d a b u, []), (.amomin sc d a b u, []), (.amomax sc d a b u, []), (.amoand sc d a b u, [])
        , (.amoor sc d a b u, []), (.amoxor sc d a b u, []), (.amoswap sc d a b u, []), (.amocas sc d a b u, [.g d])]
          : List (Instr × List Reg)),
        s.canIssue (reachOp ([.g a, .g b] ++ r.2) [.g d] 0) → stops r.1 base)
end

