-- ==== Sys2Proof/Laws/Encoding.lean ====
section
/-! SUPPORT. Fields of packed words: what the encoder puts at a place the decoder finds there (R23). -/

namespace Sys2Proof.Laws

theorem ext_lo {m k : Nat} (x : BitVec m) (y : BitVec k) (lo n : Nat) (h : lo + n ≤ k) :
    (x ++ y).extractLsb' lo n = y.extractLsb' lo n := by
  apply BitVec.eq_of_getLsbD_eq
  intro i hi
  simp only [BitVec.getLsbD_extractLsb', hi, decide_true, Bool.true_and, BitVec.getLsbD_append]
  rw [if_pos (by omega)]

theorem ext_hi {m k : Nat} (x : BitVec m) (y : BitVec k) (lo n : Nat) (h : k ≤ lo) :
    (x ++ y).extractLsb' lo n = x.extractLsb' (lo - k) n := by
  apply BitVec.eq_of_getLsbD_eq
  intro i hi
  simp only [BitVec.getLsbD_extractLsb', hi, decide_true, Bool.true_and, BitVec.getLsbD_append]
  rw [if_neg (by omega)]
  congr 1
  omega

theorem ext_all {n : Nat} (x : BitVec n) : x.extractLsb' 0 n = x := by
  apply BitVec.eq_of_getLsbD_eq
  intro i hi
  simp [hi]

/-- A field that spans the end of an append: its low part, then the rest. -/
theorem ext_span {m k : Nat} (x : BitVec m) (y : BitVec k) (n : Nat) (h : k ≤ n) :
    ((x ++ y).extractLsb' 0 n).toNat = (x.extractLsb' 0 (n - k)).toNat * 2 ^ k + y.toNat := by
  have hy := y.isLt
  have hn : 2 ^ n = 2 ^ k * 2 ^ (n - k) := by rw [← Nat.pow_add]; congr 1; omega
  rw [BitVec.extractLsb'_toNat, BitVec.extractLsb'_toNat, Nat.shiftRight_zero, Nat.shiftRight_zero, BitVec.toNat_append,
    ← Nat.shiftLeft_add_eq_or_of_lt hy, Nat.shiftLeft_eq, hn, Nat.mod_mul, Nat.mul_comm x.toNat, Nat.mul_add_mod,
    Nat.mod_eq_of_lt hy, Nat.mul_add_div (Nat.two_pow_pos k), Nat.div_eq_of_lt hy, Nat.add_zero, Nat.add_comm, Nat.mul_comm]

theorem fld_lo (sc : BitVec 3) (op : BitVec 7) (b : BitVec 22) (lo n : Nat) (h : lo + n ≤ 22) :
    fld (pack sc op b) lo n = b.extractLsb' lo n := by
  unfold fld pack
  exact ext_lo (sc ++ op) b lo n h

theorem fld_op (sc : BitVec 3) (op : BitVec 7) (b : BitVec 22) : fld (pack sc op b) 22 7 = op := by
  unfold fld pack
  rw [ext_hi (sc ++ op) b 22 7 (by decide), ext_lo sc op 0 7 (by decide), ext_all]

theorem fld_sc (sc : BitVec 3) (op : BitVec 7) (b : BitVec 22) : fld (pack sc op b) 29 3 = sc := by
  unfold fld pack
  rw [ext_hi (sc ++ op) b 29 3 (by decide), ext_hi sc op 7 3 (by decide), ext_all]

/-- The decoder reads the fields, then checks them. -/
theorem decode_of_fields {w w2 : Word32} {i : Instr} (h : decodeFields w w2 = .ok i) (hw : i.WellFormed) :
    decode w w2 = .ok i := by
  unfold decode
  rw [h]
  have hw' : i.illFormed = none := hw
  simp only [hw']

/-! ### Opcodes -/

theorem decodeFields_01 (w w2 : Word32) (h : fld w 22 7 = 1#7) : decodeFields w w2 =
    (decodeINT w) := by
  unfold decodeFields; rw [h]; rfl

theorem decodeFields_02 (w w2 : Word32) (h : fld w 22 7 = 2#7) : decodeFields w w2 =
    (decodeINTW w) := by
  unfold decodeFields; rw [h]; rfl

theorem decodeFields_03 (w w2 : Word32) (h : fld w 22 7 = 3#7) : decodeFields w w2 =
    (decodeMULDIV w) := by
  unfold decodeFields; rw [h]; rfl

theorem decodeFields_04 (w w2 : Word32) (h : fld w 22 7 = 4#7) : decodeFields w w2 =
    (.ok (.addi (fld w 29 3) (fld w 17 5) (fld w 12 5) (fld w 0 12))) := by
  unfold decodeFields; rw [h]; rfl

theorem decodeFields_05 (w w2 : Word32) (h : fld w 22 7 = 5#7) : decodeFields w w2 =
    (.ok (.andi (fld w 29 3) (fld w 17 5) (fld w 12 5) (fld w 0 12))) := by
  unfold decodeFields; rw [h]; rfl

theorem decodeFields_06 (w w2 : Word32) (h : fld w 22 7 = 6#7) : decodeFields w w2 =
    (.ok (.ori (fld w 29 3) (fld w 17 5) (fld w 12 5) (fld w 0 12))) := by
  unfold decodeFields; rw [h]; rfl

theorem decodeFields_07 (w w2 : Word32) (h : fld w 22 7 = 7#7) : decodeFields w w2 =
    (.ok (.xori (fld w 29 3) (fld w 17 5) (fld w 12 5) (fld w 0 12))) := by
  unfold decodeFields; rw [h]; rfl

theorem decodeFields_08 (w w2 : Word32) (h : fld w 22 7 = 8#7) : decodeFields w w2 =
    (.ok (.slti (fld w 29 3) (fld w 17 5) (fld w 12 5) (fld w 0 12))) := by
  unfold decodeFields; rw [h]; rfl

theorem decodeFields_09 (w w2 : Word32) (h : fld w 22 7 = 9#7) : decodeFields w w2 =
    (.ok (.sltiu (fld w 29 3) (fld w 17 5) (fld w 12 5) (fld w 0 12))) := by
  unfold decodeFields; rw [h]; rfl

theorem decodeFields_0a (w w2 : Word32) (h : fld w 22 7 = 10#7) : decodeFields w w2 =
    (decodeSHIFTI w) := by
  unfold decodeFields; rw [h]; rfl

theorem decodeFields_0b (w w2 : Word32) (h : fld w 22 7 = 11#7) : decodeFields w w2 =
    (.ok (.addiw (fld w 29 3) (fld w 17 5) (fld w 12 5) (fld w 0 12))) := by
  unfold decodeFields; rw [h]; rfl

theorem decodeFields_0c (w w2 : Word32) (h : fld w 22 7 = 12#7) : decodeFields w w2 =
    (.ok (.lui (fld w 29 3) (fld w 17 5) (fld w 0 17))) := by
  unfold decodeFields; rw [h]; rfl

theorem decodeFields_0d (w w2 : Word32) (h : fld w 22 7 = 13#7) : decodeFields w w2 =
    (.ok (.auipc (fld w 29 3) (fld w 17 5) (fld w 0 17))) := by
  unfold decodeFields; rw [h]; rfl

theorem decodeFields_10 (w w2 : Word32) (h : fld w 22 7 = 16#7) : decodeFields w w2 =
    (.ok (.beq (fld w 29 3) (fld w 17 5) (fld w 12 5) (fld w 0 12))) := by
  unfold decodeFields; rw [h]; rfl

theorem decodeFields_11 (w w2 : Word32) (h : fld w 22 7 = 17#7) : decodeFields w w2 =
    (.ok (.bne (fld w 29 3) (fld w 17 5) (fld w 12 5) (fld w 0 12))) := by
  unfold decodeFields; rw [h]; rfl

theorem decodeFields_12 (w w2 : Word32) (h : fld w 22 7 = 18#7) : decodeFields w w2 =
    (.ok (.blt (fld w 29 3) (fld w 17 5) (fld w 12 5) (fld w 0 12))) := by
  unfold decodeFields; rw [h]; rfl

theorem decodeFields_13 (w w2 : Word32) (h : fld w 22 7 = 19#7) : decodeFields w w2 =
    (.ok (.bge (fld w 29 3) (fld w 17 5) (fld w 12 5) (fld w 0 12))) := by
  unfold decodeFields; rw [h]; rfl

theorem decodeFields_14 (w w2 : Word32) (h : fld w 22 7 = 20#7) : decodeFields w w2 =
    (.ok (.bltu (fld w 29 3) (fld w 17 5) (fld w 12 5) (fld w 0 12))) := by
  unfold decodeFields; rw [h]; rfl

theorem decodeFields_15 (w w2 : Word32) (h : fld w 22 7 = 21#7) : decodeFields w w2 =
    (.ok (.bgeu (fld w 29 3) (fld w 17 5) (fld w 12 5) (fld w 0 12))) := by
  unfold decodeFields; rw [h]; rfl

theorem decodeFields_16 (w w2 : Word32) (h : fld w 22 7 = 22#7) : decodeFields w w2 =
    (.ok (.jal (fld w 29 3) (fld w 17 5) (fld w 0 17))) := by
  unfold decodeFields; rw [h]; rfl

theorem decodeFields_17 (w w2 : Word32) (h : fld w 22 7 = 23#7) : decodeFields w w2 =
    (.ok (.jalr (fld w 29 3) (fld w 17 5) (fld w 12 5) (fld w 0 12))) := by
  unfold decodeFields; rw [h]; rfl

theorem decodeFields_18 (w w2 : Word32) (h : fld w 22 7 = 24#7) : decodeFields w w2 =
    (.ok (.ldb (fld w 29 3) (fld w 17 5) (fld w 12 5) (fld w 0 12))) := by
  unfold decodeFields; rw [h]; rfl

theorem decodeFields_19 (w w2 : Word32) (h : fld w 22 7 = 25#7) : decodeFields w w2 =
    (.ok (.ldh (fld w 29 3) (fld w 17 5) (fld w 12 5) (fld w 0 12))) := by
  unfold decodeFields; rw [h]; rfl

theorem decodeFields_1a (w w2 : Word32) (h : fld w 22 7 = 26#7) : decodeFields w w2 =
    (.ok (.ldw (fld w 29 3) (fld w 17 5) (fld w 12 5) (fld w 0 12))) := by
  unfold decodeFields; rw [h]; rfl

theorem decodeFields_1b (w w2 : Word32) (h : fld w 22 7 = 27#7) : decodeFields w w2 =
    (.ok (.ldd (fld w 29 3) (fld w 17 5) (fld w 12 5) (fld w 0 12))) := by
  unfold decodeFields; rw [h]; rfl

theorem decodeFields_1c (w w2 : Word32) (h : fld w 22 7 = 28#7) : decodeFields w w2 =
    (.ok (.ldbz (fld w 29 3) (fld w 17 5) (fld w 12 5) (fld w 0 12))) := by
  unfold decodeFields; rw [h]; rfl

theorem decodeFields_1d (w w2 : Word32) (h : fld w 22 7 = 29#7) : decodeFields w w2 =
    (.ok (.ldhz (fld w 29 3) (fld w 17 5) (fld w 12 5) (fld w 0 12))) := by
  unfold decodeFields; rw [h]; rfl

theorem decodeFields_1e (w w2 : Word32) (h : fld w 22 7 = 30#7) : decodeFields w w2 =
    (.ok (.ldwz (fld w 29 3) (fld w 17 5) (fld w 12 5) (fld w 0 12))) := by
  unfold decodeFields; rw [h]; rfl

theorem decodeFields_20 (w w2 : Word32) (h : fld w 22 7 = 32#7) : decodeFields w w2 =
    (.ok (.stb (fld w 29 3) (fld w 17 5) (fld w 12 5) (fld w 0 12))) := by
  unfold decodeFields; rw [h]; rfl

theorem decodeFields_21 (w w2 : Word32) (h : fld w 22 7 = 33#7) : decodeFields w w2 =
    (.ok (.sth (fld w 29 3) (fld w 17 5) (fld w 12 5) (fld w 0 12))) := by
  unfold decodeFields; rw [h]; rfl

theorem decodeFields_22 (w w2 : Word32) (h : fld w 22 7 = 34#7) : decodeFields w w2 =
    (.ok (.stw (fld w 29 3) (fld w 17 5) (fld w 12 5) (fld w 0 12))) := by
  unfold decodeFields; rw [h]; rfl

theorem decodeFields_23 (w w2 : Word32) (h : fld w 22 7 = 35#7) : decodeFields w w2 =
    (.ok (.std (fld w 29 3) (fld w 17 5) (fld w 12 5) (fld w 0 12))) := by
  unfold decodeFields; rw [h]; rfl

theorem decodeFields_24 (w w2 : Word32) (h : fld w 22 7 = 36#7) : decodeFields w w2 =
    (.ok (.fldw (fld w 29 3) (fld w 17 5) (fld w 12 5) (fld w 0 12))) := by
  unfold decodeFields; rw [h]; rfl

theorem decodeFields_25 (w w2 : Word32) (h : fld w 22 7 = 37#7) : decodeFields w w2 =
    (.ok (.fldd (fld w 29 3) (fld w 17 5) (fld w 12 5) (fld w 0 12))) := by
  unfold decodeFields; rw [h]; rfl

theorem decodeFields_26 (w w2 : Word32) (h : fld w 22 7 = 38#7) : decodeFields w w2 =
    (.ok (.fstw (fld w 29 3) (fld w 17 5) (fld w 12 5) (fld w 0 12))) := by
  unfold decodeFields; rw [h]; rfl

theorem decodeFields_27 (w w2 : Word32) (h : fld w 22 7 = 39#7) : decodeFields w w2 =
    (.ok (.fstd (fld w 29 3) (fld w 17 5) (fld w 12 5) (fld w 0 12))) := by
  unfold decodeFields; rw [h]; rfl

theorem decodeFields_28 (w w2 : Word32) (h : fld w 22 7 = 40#7) : decodeFields w w2 =
    (decodeORDERED w) := by
  unfold decodeFields; rw [h]; rfl

theorem decodeFields_29 (w w2 : Word32) (h : fld w 22 7 = 41#7) : decodeFields w w2 =
    (decodeFEMEM w) := by
  unfold decodeFields; rw [h]; rfl

theorem decodeFields_2a (w w2 : Word32) (h : fld w 22 7 = 42#7) : decodeFields w w2 =
    (decodeATOMIC w) := by
  unfold decodeFields; rw [h]; rfl

theorem decodeFields_2b (w w2 : Word32) (h : fld w 22 7 = 43#7) : decodeFields w w2 =
    (decodeACCUM w) := by
  unfold decodeFields; rw [h]; rfl

theorem decodeFields_30 (w w2 : Word32) (h : fld w 22 7 = 48#7) : decodeFields w w2 =
    (.ok (.csrrw (fld w 29 3) (fld w 17 5) (fld w 12 5) (fld w 0 12))) := by
  unfold decodeFields; rw [h]; rfl

theorem decodeFields_31 (w w2 : Word32) (h : fld w 22 7 = 49#7) : decodeFields w w2 =
    (.ok (.csrrs (fld w 29 3) (fld w 17 5) (fld w 12 5) (fld w 0 12))) := by
  unfold decodeFields; rw [h]; rfl

theorem decodeFields_32 (w w2 : Word32) (h : fld w 22 7 = 50#7) : decodeFields w w2 =
    (.ok (.csrrc (fld w 29 3) (fld w 17 5) (fld w 12 5) (fld w 0 12))) := by
  unfold decodeFields; rw [h]; rfl

theorem decodeFields_33 (w w2 : Word32) (h : fld w 22 7 = 51#7) : decodeFields w w2 =
    (.ok (.csrrwi (fld w 29 3) (fld w 17 5) (fld w 12 5) (fld w 0 12))) := by
  unfold decodeFields; rw [h]; rfl

theorem decodeFields_34 (w w2 : Word32) (h : fld w 22 7 = 52#7) : decodeFields w w2 =
    (.ok (.csrrsi (fld w 29 3) (fld w 17 5) (fld w 12 5) (fld w 0 12))) := by
  unfold decodeFields; rw [h]; rfl

theorem decodeFields_35 (w w2 : Word32) (h : fld w 22 7 = 53#7) : decodeFields w w2 =
    (.ok (.csrrci (fld w 29 3) (fld w 17 5) (fld w 12 5) (fld w 0 12))) := by
  unfold decodeFields; rw [h]; rfl

theorem decodeFields_36 (w w2 : Word32) (h : fld w 22 7 = 54#7) : decodeFields w w2 =
    (decodeSYSTEM w) := by
  unfold decodeFields; rw [h]; rfl

theorem decodeFields_37 (w w2 : Word32) (h : fld w 22 7 = 55#7) : decodeFields w w2 =
    (if fld w 6 16 = 0 then .ok (.fence (fld w 29 3) (fld w 3 3) (fld w 0 3)) else .error .nonzeroField) := by
  unfold decodeFields; rw [h]; rfl

theorem decodeFields_38 (w w2 : Word32) (h : fld w 22 7 = 56#7) : decodeFields w w2 =
    (decodeMSG w) := by
  unfold decodeFields; rw [h]; rfl

theorem decodeFields_39 (w w2 : Word32) (h : fld w 22 7 = 57#7) : decodeFields w w2 =
    (decodeSYNC w) := by
  unfold decodeFields; rw [h]; rfl

theorem decodeFields_3a (w w2 : Word32) (h : fld w 22 7 = 58#7) : decodeFields w w2 =
    (decodeENGINE w) := by
  unfold decodeFields; rw [h]; rfl

theorem decodeFields_40 (w w2 : Word32) (h : fld w 22 7 = 64#7) : decodeFields w w2 =
    (decodeFP w) := by
  unfold decodeFields; rw [h]; rfl

theorem decodeFields_41 (w w2 : Word32) (h : fld w 22 7 = 65#7) : decodeFields w w2 =
    (decodeFMA_S w) := by
  unfold decodeFields; rw [h]; rfl

theorem decodeFields_42 (w w2 : Word32) (h : fld w 22 7 = 66#7) : decodeFields w w2 =
    (decodeFMA_D w) := by
  unfold decodeFields; rw [h]; rfl

theorem decodeFields_50 (w w2 : Word32) (h : fld w 22 7 = 80#7) : decodeFields w w2 =
    (decodeVARITH w) := by
  unfold decodeFields; rw [h]; rfl

theorem decodeFields_51 (w w2 : Word32) (h : fld w 22 7 = 81#7) : decodeFields w w2 =
    (decodeVUNARY w) := by
  unfold decodeFields; rw [h]; rfl

theorem decodeFields_52 (w w2 : Word32) (h : fld w 22 7 = 82#7) : decodeFields w w2 =
    (decodeVCMP w) := by
  unfold decodeFields; rw [h]; rfl

theorem decodeFields_53 (w w2 : Word32) (h : fld w 22 7 = 83#7) : decodeFields w w2 =
    (decodeVREDSCAN w) := by
  unfold decodeFields; rw [h]; rfl

theorem decodeFields_54 (w w2 : Word32) (h : fld w 22 7 = 84#7) : decodeFields w w2 =
    (decodeVPERM w) := by
  unfold decodeFields; rw [h]; rfl

theorem decodeFields_55 (w w2 : Word32) (h : fld w 22 7 = 85#7) : decodeFields w w2 =
    (decodeVCVT w) := by
  unfold decodeFields; rw [h]; rfl

theorem decodeFields_56 (w w2 : Word32) (h : fld w 22 7 = 86#7) : decodeFields w w2 =
    (decodeVQNT w) := by
  unfold decodeFields; rw [h]; rfl

theorem decodeFields_57 (w w2 : Word32) (h : fld w 22 7 = 87#7) : decodeFields w w2 =
    (decodeVSFU w) := by
  unfold decodeFields; rw [h]; rfl

theorem decodeFields_58 (w w2 : Word32) (h : fld w 22 7 = 88#7) : decodeFields w w2 =
    (.ok (.vld (fld w 29 3) (fld w 17 5) (fld w 12 5) (fld w 9 3) (fld w 0 9))) := by
  unfold decodeFields; rw [h]; rfl

theorem decodeFields_59 (w w2 : Word32) (h : fld w 22 7 = 89#7) : decodeFields w w2 =
    (.ok (.vst (fld w 29 3) (fld w 17 5) (fld w 12 5) (fld w 9 3) (fld w 0 9))) := by
  unfold decodeFields; rw [h]; rfl

theorem decodeFields_5a (w w2 : Word32) (h : fld w 22 7 = 90#7) : decodeFields w w2 =
    (decodeVMEMX w) := by
  unfold decodeFields; rw [h]; rfl

theorem decodeFields_5b (w w2 : Word32) (h : fld w 22 7 = 91#7) : decodeFields w w2 =
    (decodeMASK w) := by
  unfold decodeFields; rw [h]; rfl

theorem decodeFields_5c (w w2 : Word32) (h : fld w 22 7 = 92#7) : decodeFields w w2 =
    (if fld w 4 8 = 0 then .ok (.vsett (fld w 29 3) (fld w 17 5) (fld w 12 5) (fld w 0 4)) else .error .nonzeroField) := by
  unfold decodeFields; rw [h]; rfl

theorem decodeFields_60 (w w2 : Word32) (h : fld w 22 7 = 96#7) : decodeFields w w2 =
    (if fld w 9 5 = 0 ∧ fld w 0 8 = 0 then .ok (.mmaBf (fld w 29 3) (fld w 20 2) (fld w 17 3) (fld w 14 3) (fld w 8 1)) else .error .nonzeroField) := by
  unfold decodeFields; rw [h]; rfl

theorem decodeFields_61 (w w2 : Word32) (h : fld w 22 7 = 97#7) : decodeFields w w2 =
    (if fld w 9 5 = 0 ∧ fld w 0 8 = 0 then .ok (.mmaHf (fld w 29 3) (fld w 20 2) (fld w 17 3) (fld w 14 3) (fld w 8 1)) else .error .nonzeroField) := by
  unfold decodeFields; rw [h]; rfl

theorem decodeFields_62 (w w2 : Word32) (h : fld w 22 7 = 98#7) : decodeFields w w2 =
    (if fld w 0 8 = 0 then .ok (.mmaE44 (fld w 29 3) (fld w 20 2) (fld w 17 3) (fld w 14 3) (fld w 9 5) (fld w 8 1)) else .error .nonzeroField) := by
  unfold decodeFields; rw [h]; rfl

theorem decodeFields_63 (w w2 : Word32) (h : fld w 22 7 = 99#7) : decodeFields w w2 =
    (if fld w 0 8 = 0 then .ok (.mmaE45 (fld w 29 3) (fld w 20 2) (fld w 17 3) (fld w 14 3) (fld w 9 5) (fld w 8 1)) else .error .nonzeroField) := by
  unfold decodeFields; rw [h]; rfl

theorem decodeFields_64 (w w2 : Word32) (h : fld w 22 7 = 100#7) : decodeFields w w2 =
    (if fld w 0 8 = 0 then .ok (.mmaE55 (fld w 29 3) (fld w 20 2) (fld w 17 3) (fld w 14 3) (fld w 9 5) (fld w 8 1)) else .error .nonzeroField) := by
  unfold decodeFields; rw [h]; rfl

theorem decodeFields_65 (w w2 : Word32) (h : fld w 22 7 = 101#7) : decodeFields w w2 =
    (if fld w 9 5 = 0 ∧ fld w 0 8 = 0 then .ok (.mmaI8 (fld w 29 3) (fld w 20 2) (fld w 17 3) (fld w 14 3) (fld w 8 1)) else .error .nonzeroField) := by
  unfold decodeFields; rw [h]; rfl

theorem decodeFields_66 (w w2 : Word32) (h : fld w 22 7 = 102#7) : decodeFields w w2 =
    (if fld w 0 8 = 0 then .ok (.mmaNb (fld w 29 3) (fld w 20 2) (fld w 17 3) (fld w 14 3) (fld w 9 5) (fld w 8 1)) else .error .nonzeroField) := by
  unfold decodeFields; rw [h]; rfl

theorem decodeFields_67 (w w2 : Word32) (h : fld w 22 7 = 103#7) : decodeFields w w2 =
    (if fld w 0 8 = 0 then .ok (.mmaNe (fld w 29 3) (fld w 20 2) (fld w 17 3) (fld w 14 3) (fld w 9 5) (fld w 8 1)) else .error .nonzeroField) := by
  unfold decodeFields; rw [h]; rfl

theorem decodeFields_68 (w w2 : Word32) (h : fld w 22 7 = 104#7) : decodeFields w w2 =
    (decodeMCTL w) := by
  unfold decodeFields; rw [h]; rfl

theorem decodeFields_69 (w w2 : Word32) (h : fld w 22 7 = 105#7) : decodeFields w w2 =
    (decodeMREG w) := by
  unfold decodeFields; rw [h]; rfl

theorem decodeFields_7f (w w2 : Word32) (h : fld w 22 7 = 127#7) : decodeFields w w2 =
    (if fld w 0 17 = 0 then .ok (.liw (fld w 29 3) (fld w 17 5) w2) else .error .reservedFunction) := by
  unfold decodeFields; rw [h]; rfl

/-! ### Fields of each shape of word -/

theorem shape0 (sc : BitVec 3) (op : BitVec 7) (x0 : BitVec 5) (x1 : BitVec 5) (x2 : BitVec 5) (x3 : BitVec 7) :
    fld (pack sc op (x0 ++ x1 ++ x2 ++ x3)) 17 5 = x0
    ∧ fld (pack sc op (x0 ++ x1 ++ x2 ++ x3)) 12 5 = x1
    ∧ fld (pack sc op (x0 ++ x1 ++ x2 ++ x3)) 7 5 = x2
    ∧ fld (pack sc op (x0 ++ x1 ++ x2 ++ x3)) 0 7 = x3 :=
  ⟨(fld_lo _ _ _ _ _ (by decide)).trans ((ext_hi (x0 ++ x1 ++ x2) x3 17 5 (by decide)).trans ((ext_hi (x0 ++ x1) x2 10 5 (by decide)).trans ((ext_hi (x0) x1 5 5 (by decide)).trans (ext_all _))))
    , (fld_lo _ _ _ _ _ (by decide)).trans ((ext_hi (x0 ++ x1 ++ x2) x3 12 5 (by decide)).trans ((ext_hi (x0 ++ x1) x2 5 5 (by decide)).trans ((ext_lo (x0) x1 0 5 (by decide)).trans (ext_all _))))
    , (fld_lo _ _ _ _ _ (by decide)).trans ((ext_hi (x0 ++ x1 ++ x2) x3 7 5 (by decide)).trans ((ext_lo (x0 ++ x1) x2 0 5 (by decide)).trans (ext_all _)))
    , (fld_lo _ _ _ _ _ (by decide)).trans ((ext_lo (x0 ++ x1 ++ x2) x3 0 7 (by decide)).trans (ext_all _))⟩

theorem shape1 (sc : BitVec 3) (op : BitVec 7) (x0 : BitVec 5) (x1 : BitVec 5) (x2 : BitVec 12) :
    fld (pack sc op (x0 ++ x1 ++ x2)) 17 5 = x0
    ∧ fld (pack sc op (x0 ++ x1 ++ x2)) 12 5 = x1
    ∧ fld (pack sc op (x0 ++ x1 ++ x2)) 7 5 = x2.extractLsb' 7 5
    ∧ fld (pack sc op (x0 ++ x1 ++ x2)) 0 7 = x2.extractLsb' 0 7 :=
  ⟨(fld_lo _ _ _ _ _ (by decide)).trans ((ext_hi (x0 ++ x1) x2 17 5 (by decide)).trans ((ext_hi (x0) x1 5 5 (by decide)).trans (ext_all _)))
    , (fld_lo _ _ _ _ _ (by decide)).trans ((ext_hi (x0 ++ x1) x2 12 5 (by decide)).trans ((ext_lo (x0) x1 0 5 (by decide)).trans (ext_all _)))
    , (fld_lo _ _ _ _ _ (by decide)).trans ((ext_lo (x0 ++ x1) x2 7 5 (by decide)).trans (rfl))
    , (fld_lo _ _ _ _ _ (by decide)).trans ((ext_lo (x0 ++ x1) x2 0 7 (by decide)).trans (rfl))⟩

theorem shape2 (sc : BitVec 3) (op : BitVec 7) (x0 : BitVec 5) (x1 : BitVec 5) (x2 : BitVec 5) (x3 : BitVec 5) (x4 : BitVec 2) :
    fld (pack sc op (x0 ++ x1 ++ x2 ++ x3 ++ x4)) 17 5 = x0
    ∧ fld (pack sc op (x0 ++ x1 ++ x2 ++ x3 ++ x4)) 12 5 = x1
    ∧ fld (pack sc op (x0 ++ x1 ++ x2 ++ x3 ++ x4)) 7 5 = x2
    ∧ fld (pack sc op (x0 ++ x1 ++ x2 ++ x3 ++ x4)) 0 2 = x4 :=
  ⟨(fld_lo _ _ _ _ _ (by decide)).trans ((ext_hi (x0 ++ x1 ++ x2 ++ x3) x4 17 5 (by decide)).trans ((ext_hi (x0 ++ x1 ++ x2) x3 15 5 (by decide)).trans ((ext_hi (x0 ++ x1) x2 10 5 (by decide)).trans ((ext_hi (x0) x1 5 5 (by decide)).trans (ext_all _)))))
    , (fld_lo _ _ _ _ _ (by decide)).trans ((ext_hi (x0 ++ x1 ++ x2 ++ x3) x4 12 5 (by decide)).trans ((ext_hi (x0 ++ x1 ++ x2) x3 10 5 (by decide)).trans ((ext_hi (x0 ++ x1) x2 5 5 (by decide)).trans ((ext_lo (x0) x1 0 5 (by decide)).trans (ext_all _)))))
    , (fld_lo _ _ _ _ _ (by decide)).trans ((ext_hi (x0 ++ x1 ++ x2 ++ x3) x4 7 5 (by decide)).trans ((ext_hi (x0 ++ x1 ++ x2) x3 5 5 (by decide)).trans ((ext_lo (x0 ++ x1) x2 0 5 (by decide)).trans (ext_all _))))
    , (fld_lo _ _ _ _ _ (by decide)).trans ((ext_lo (x0 ++ x1 ++ x2 ++ x3) x4 0 2 (by decide)).trans (ext_all _))⟩

theorem shape3 (sc : BitVec 3) (op : BitVec 7) (x0 : BitVec 5) (x1 : BitVec 5) (x2 : BitVec 12) :
    fld (pack sc op (x0 ++ x1 ++ x2)) 17 5 = x0
    ∧ fld (pack sc op (x0 ++ x1 ++ x2)) 12 5 = x1
    ∧ fld (pack sc op (x0 ++ x1 ++ x2)) 0 12 = x2 :=
  ⟨(fld_lo _ _ _ _ _ (by decide)).trans ((ext_hi (x0 ++ x1) x2 17 5 (by decide)).trans ((ext_hi (x0) x1 5 5 (by decide)).trans (ext_all _)))
    , (fld_lo _ _ _ _ _ (by decide)).trans ((ext_hi (x0 ++ x1) x2 12 5 (by decide)).trans ((ext_lo (x0) x1 0 5 (by decide)).trans (ext_all _)))
    , (fld_lo _ _ _ _ _ (by decide)).trans ((ext_lo (x0 ++ x1) x2 0 12 (by decide)).trans (ext_all _))⟩

theorem shape4 (sc : BitVec 3) (op : BitVec 7) (x0 : BitVec 5) (x1 : BitVec 5) (x2 : BitVec 6) (x3 : BitVec 6) :
    fld (pack sc op (x0 ++ x1 ++ x2 ++ x3)) 17 5 = x0
    ∧ fld (pack sc op (x0 ++ x1 ++ x2 ++ x3)) 12 5 = x1
    ∧ fld (pack sc op (x0 ++ x1 ++ x2 ++ x3)) 6 6 = x2
    ∧ fld (pack sc op (x0 ++ x1 ++ x2 ++ x3)) 0 6 = x3 :=
  ⟨(fld_lo _ _ _ _ _ (by decide)).trans ((ext_hi (x0 ++ x1 ++ x2) x3 17 5 (by decide)).trans ((ext_hi (x0 ++ x1) x2 11 5 (by decide)).trans ((ext_hi (x0) x1 5 5 (by decide)).trans (ext_all _))))
    , (fld_lo _ _ _ _ _ (by decide)).trans ((ext_hi (x0 ++ x1 ++ x2) x3 12 5 (by decide)).trans ((ext_hi (x0 ++ x1) x2 6 5 (by decide)).trans ((ext_lo (x0) x1 0 5 (by decide)).trans (ext_all _))))
    , (fld_lo _ _ _ _ _ (by decide)).trans ((ext_hi (x0 ++ x1 ++ x2) x3 6 6 (by decide)).trans ((ext_lo (x0 ++ x1) x2 0 6 (by decide)).trans (ext_all _)))
    , (fld_lo _ _ _ _ _ (by decide)).trans ((ext_lo (x0 ++ x1 ++ x2) x3 0 6 (by decide)).trans (ext_all _))⟩

theorem shape5 (sc : BitVec 3) (op : BitVec 7) (x0 : BitVec 5) (x1 : BitVec 5) (x2 : BitVec 7) (x3 : BitVec 5) :
    fld (pack sc op (x0 ++ x1 ++ x2 ++ x3)) 17 5 = x0
    ∧ fld (pack sc op (x0 ++ x1 ++ x2 ++ x3)) 12 5 = x1
    ∧ fld (pack sc op (x0 ++ x1 ++ x2 ++ x3)) 6 6 = x2.extractLsb' 1 6
    ∧ fld (pack sc op (x0 ++ x1 ++ x2 ++ x3)) 5 1 = x2.extractLsb' 0 1
    ∧ fld (pack sc op (x0 ++ x1 ++ x2 ++ x3)) 0 5 = x3 :=
  ⟨(fld_lo _ _ _ _ _ (by decide)).trans ((ext_hi (x0 ++ x1 ++ x2) x3 17 5 (by decide)).trans ((ext_hi (x0 ++ x1) x2 12 5 (by decide)).trans ((ext_hi (x0) x1 5 5 (by decide)).trans (ext_all _))))
    , (fld_lo _ _ _ _ _ (by decide)).trans ((ext_hi (x0 ++ x1 ++ x2) x3 12 5 (by decide)).trans ((ext_hi (x0 ++ x1) x2 7 5 (by decide)).trans ((ext_lo (x0) x1 0 5 (by decide)).trans (ext_all _))))
    , (fld_lo _ _ _ _ _ (by decide)).trans ((ext_hi (x0 ++ x1 ++ x2) x3 6 6 (by decide)).trans ((ext_lo (x0 ++ x1) x2 1 6 (by decide)).trans (rfl)))
    , (fld_lo _ _ _ _ _ (by decide)).trans ((ext_hi (x0 ++ x1 ++ x2) x3 5 1 (by decide)).trans ((ext_lo (x0 ++ x1) x2 0 1 (by decide)).trans (rfl)))
    , (fld_lo _ _ _ _ _ (by decide)).trans ((ext_lo (x0 ++ x1 ++ x2) x3 0 5 (by decide)).trans (ext_all _))⟩

theorem shape6 (sc : BitVec 3) (op : BitVec 7) (x0 : BitVec 5) (x1 : BitVec 17) :
    fld (pack sc op (x0 ++ x1)) 17 5 = x0
    ∧ fld (pack sc op (x0 ++ x1)) 0 17 = x1 :=
  ⟨(fld_lo _ _ _ _ _ (by decide)).trans ((ext_hi (x0) x1 17 5 (by decide)).trans (ext_all _))
    , (fld_lo _ _ _ _ _ (by decide)).trans ((ext_lo (x0) x1 0 17 (by decide)).trans (ext_all _))⟩

theorem shape7 (sc : BitVec 3) (op : BitVec 7) (x0 : BitVec 5) (x1 : BitVec 17) :
    fld (pack sc op (x0 ++ x1)) 17 5 = x0
    ∧ fld (pack sc op (x0 ++ x1)) 7 10 = x1.extractLsb' 7 10
    ∧ fld (pack sc op (x0 ++ x1)) 0 17 = x1
    ∧ fld (pack sc op (x0 ++ x1)) 0 7 = x1.extractLsb' 0 7 :=
  ⟨(fld_lo _ _ _ _ _ (by decide)).trans ((ext_hi (x0) x1 17 5 (by decide)).trans (ext_all _))
    , (fld_lo _ _ _ _ _ (by decide)).trans ((ext_lo (x0) x1 7 10 (by decide)).trans (rfl))
    , (fld_lo _ _ _ _ _ (by decide)).trans ((ext_lo (x0) x1 0 17 (by decide)).trans (ext_all _))
    , (fld_lo _ _ _ _ _ (by decide)).trans ((ext_lo (x0) x1 0 7 (by decide)).trans (rfl))⟩

theorem shape8 (sc : BitVec 3) (op : BitVec 7) (x0 : BitVec 5) (x1 : BitVec 5) (x2 : BitVec 7) (x3 : BitVec 3) (x4 : BitVec 2) :
    fld (pack sc op (x0 ++ x1 ++ x2 ++ x3 ++ x4)) 17 5 = x0
    ∧ fld (pack sc op (x0 ++ x1 ++ x2 ++ x3 ++ x4)) 12 5 = x1
    ∧ fld (pack sc op (x0 ++ x1 ++ x2 ++ x3 ++ x4)) 7 5 = x2.extractLsb' 2 5
    ∧ fld (pack sc op (x0 ++ x1 ++ x2 ++ x3 ++ x4)) 2 3 = x3
    ∧ fld (pack sc op (x0 ++ x1 ++ x2 ++ x3 ++ x4)) 0 2 = x4 :=
  ⟨(fld_lo _ _ _ _ _ (by decide)).trans ((ext_hi (x0 ++ x1 ++ x2 ++ x3) x4 17 5 (by decide)).trans ((ext_hi (x0 ++ x1 ++ x2) x3 15 5 (by decide)).trans ((ext_hi (x0 ++ x1) x2 12 5 (by decide)).trans ((ext_hi (x0) x1 5 5 (by decide)).trans (ext_all _)))))
    , (fld_lo _ _ _ _ _ (by decide)).trans ((ext_hi (x0 ++ x1 ++ x2 ++ x3) x4 12 5 (by decide)).trans ((ext_hi (x0 ++ x1 ++ x2) x3 10 5 (by decide)).trans ((ext_hi (x0 ++ x1) x2 7 5 (by decide)).trans ((ext_lo (x0) x1 0 5 (by decide)).trans (ext_all _)))))
    , (fld_lo _ _ _ _ _ (by decide)).trans ((ext_hi (x0 ++ x1 ++ x2 ++ x3) x4 7 5 (by decide)).trans ((ext_hi (x0 ++ x1 ++ x2) x3 5 5 (by decide)).trans ((ext_lo (x0 ++ x1) x2 2 5 (by decide)).trans (rfl))))
    , (fld_lo _ _ _ _ _ (by decide)).trans ((ext_hi (x0 ++ x1 ++ x2 ++ x3) x4 2 3 (by decide)).trans ((ext_lo (x0 ++ x1 ++ x2) x3 0 3 (by decide)).trans (ext_all _)))
    , (fld_lo _ _ _ _ _ (by decide)).trans ((ext_lo (x0 ++ x1 ++ x2 ++ x3) x4 0 2 (by decide)).trans (ext_all _))⟩

theorem shape9 (sc : BitVec 3) (op : BitVec 7) (x0 : BitVec 5) (x1 : BitVec 5) (x2 : BitVec 5) (x3 : BitVec 2) (x4 : BitVec 3) (x5 : BitVec 2) :
    fld (pack sc op (x0 ++ x1 ++ x2 ++ x3 ++ x4 ++ x5)) 17 5 = x0
    ∧ fld (pack sc op (x0 ++ x1 ++ x2 ++ x3 ++ x4 ++ x5)) 12 5 = x1
    ∧ fld (pack sc op (x0 ++ x1 ++ x2 ++ x3 ++ x4 ++ x5)) 7 5 = x2
    ∧ fld (pack sc op (x0 ++ x1 ++ x2 ++ x3 ++ x4 ++ x5)) 2 3 = x4
    ∧ fld (pack sc op (x0 ++ x1 ++ x2 ++ x3 ++ x4 ++ x5)) 0 2 = x5 :=
  ⟨(fld_lo _ _ _ _ _ (by decide)).trans ((ext_hi (x0 ++ x1 ++ x2 ++ x3 ++ x4) x5 17 5 (by decide)).trans ((ext_hi (x0 ++ x1 ++ x2 ++ x3) x4 15 5 (by decide)).trans ((ext_hi (x0 ++ x1 ++ x2) x3 12 5 (by decide)).trans ((ext_hi (x0 ++ x1) x2 10 5 (by decide)).trans ((ext_hi (x0) x1 5 5 (by decide)).trans (ext_all _))))))
    , (fld_lo _ _ _ _ _ (by decide)).trans ((ext_hi (x0 ++ x1 ++ x2 ++ x3 ++ x4) x5 12 5 (by decide)).trans ((ext_hi (x0 ++ x1 ++ x2 ++ x3) x4 10 5 (by decide)).trans ((ext_hi (x0 ++ x1 ++ x2) x3 7 5 (by decide)).trans ((ext_hi (x0 ++ x1) x2 5 5 (by decide)).trans ((ext_lo (x0) x1 0 5 (by decide)).trans (ext_all _))))))
    , (fld_lo _ _ _ _ _ (by decide)).trans ((ext_hi (x0 ++ x1 ++ x2 ++ x3 ++ x4) x5 7 5 (by decide)).trans ((ext_hi (x0 ++ x1 ++ x2 ++ x3) x4 5 5 (by decide)).trans ((ext_hi (x0 ++ x1 ++ x2) x3 2 5 (by decide)).trans ((ext_lo (x0 ++ x1) x2 0 5 (by decide)).trans (ext_all _)))))
    , (fld_lo _ _ _ _ _ (by decide)).trans ((ext_hi (x0 ++ x1 ++ x2 ++ x3 ++ x4) x5 2 3 (by decide)).trans ((ext_lo (x0 ++ x1 ++ x2 ++ x3) x4 0 3 (by decide)).trans (ext_all _)))
    , (fld_lo _ _ _ _ _ (by decide)).trans ((ext_lo (x0 ++ x1 ++ x2 ++ x3 ++ x4) x5 0 2 (by decide)).trans (ext_all _))⟩

theorem shape10 (sc : BitVec 3) (op : BitVec 7) (x0 : BitVec 5) (x1 : BitVec 5) (x2 : BitVec 12) :
    fld (pack sc op (x0 ++ x1 ++ x2)) 17 5 = x0
    ∧ fld (pack sc op (x0 ++ x1 ++ x2)) 12 5 = x1
    ∧ fld (pack sc op (x0 ++ x1 ++ x2)) 7 5 = x2.extractLsb' 7 5
    ∧ fld (pack sc op (x0 ++ x1 ++ x2)) 0 7 = x2.extractLsb' 0 7 :=
  ⟨(fld_lo _ _ _ _ _ (by decide)).trans ((ext_hi (x0 ++ x1) x2 17 5 (by decide)).trans ((ext_hi (x0) x1 5 5 (by decide)).trans (ext_all _)))
    , (fld_lo _ _ _ _ _ (by decide)).trans ((ext_hi (x0 ++ x1) x2 12 5 (by decide)).trans ((ext_lo (x0) x1 0 5 (by decide)).trans (ext_all _)))
    , (fld_lo _ _ _ _ _ (by decide)).trans ((ext_lo (x0 ++ x1) x2 7 5 (by decide)).trans (rfl))
    , (fld_lo _ _ _ _ _ (by decide)).trans ((ext_lo (x0 ++ x1) x2 0 7 (by decide)).trans (rfl))⟩

theorem shape11 (sc : BitVec 3) (op : BitVec 7) (x0 : BitVec 5) (x1 : BitVec 5) (x2 : BitVec 5) (x3 : BitVec 7) :
    fld (pack sc op (x0 ++ x1 ++ x2 ++ x3)) 17 5 = x0
    ∧ fld (pack sc op (x0 ++ x1 ++ x2 ++ x3)) 12 5 = x1
    ∧ fld (pack sc op (x0 ++ x1 ++ x2 ++ x3)) 7 5 = x2
    ∧ fld (pack sc op (x0 ++ x1 ++ x2 ++ x3)) 0 7 = x3 :=
  ⟨(fld_lo _ _ _ _ _ (by decide)).trans ((ext_hi (x0 ++ x1 ++ x2) x3 17 5 (by decide)).trans ((ext_hi (x0 ++ x1) x2 10 5 (by decide)).trans ((ext_hi (x0) x1 5 5 (by decide)).trans (ext_all _))))
    , (fld_lo _ _ _ _ _ (by decide)).trans ((ext_hi (x0 ++ x1 ++ x2) x3 12 5 (by decide)).trans ((ext_hi (x0 ++ x1) x2 5 5 (by decide)).trans ((ext_lo (x0) x1 0 5 (by decide)).trans (ext_all _))))
    , (fld_lo _ _ _ _ _ (by decide)).trans ((ext_hi (x0 ++ x1 ++ x2) x3 7 5 (by decide)).trans ((ext_lo (x0 ++ x1) x2 0 5 (by decide)).trans (ext_all _)))
    , (fld_lo _ _ _ _ _ (by decide)).trans ((ext_lo (x0 ++ x1 ++ x2) x3 0 7 (by decide)).trans (ext_all _))⟩

theorem shape12 (sc : BitVec 3) (op : BitVec 7) (x0 : BitVec 5) (x1 : BitVec 5) (x2 : BitVec 5) (x3 : BitVec 3) (x4 : BitVec 1) (x5 : BitVec 3) :
    fld (pack sc op (x0 ++ x1 ++ x2 ++ x3 ++ x4 ++ x5)) 17 5 = x0
    ∧ fld (pack sc op (x0 ++ x1 ++ x2 ++ x3 ++ x4 ++ x5)) 12 5 = x1
    ∧ fld (pack sc op (x0 ++ x1 ++ x2 ++ x3 ++ x4 ++ x5)) 7 5 = x2
    ∧ fld (pack sc op (x0 ++ x1 ++ x2 ++ x3 ++ x4 ++ x5)) 3 1 = x4 :=
  ⟨(fld_lo _ _ _ _ _ (by decide)).trans ((ext_hi (x0 ++ x1 ++ x2 ++ x3 ++ x4) x5 17 5 (by decide)).trans ((ext_hi (x0 ++ x1 ++ x2 ++ x3) x4 14 5 (by decide)).trans ((ext_hi (x0 ++ x1 ++ x2) x3 13 5 (by decide)).trans ((ext_hi (x0 ++ x1) x2 10 5 (by decide)).trans ((ext_hi (x0) x1 5 5 (by decide)).trans (ext_all _))))))
    , (fld_lo _ _ _ _ _ (by decide)).trans ((ext_hi (x0 ++ x1 ++ x2 ++ x3 ++ x4) x5 12 5 (by decide)).trans ((ext_hi (x0 ++ x1 ++ x2 ++ x3) x4 9 5 (by decide)).trans ((ext_hi (x0 ++ x1 ++ x2) x3 8 5 (by decide)).trans ((ext_hi (x0 ++ x1) x2 5 5 (by decide)).trans ((ext_lo (x0) x1 0 5 (by decide)).trans (ext_all _))))))
    , (fld_lo _ _ _ _ _ (by decide)).trans ((ext_hi (x0 ++ x1 ++ x2 ++ x3 ++ x4) x5 7 5 (by decide)).trans ((ext_hi (x0 ++ x1 ++ x2 ++ x3) x4 4 5 (by decide)).trans ((ext_hi (x0 ++ x1 ++ x2) x3 3 5 (by decide)).trans ((ext_lo (x0 ++ x1) x2 0 5 (by decide)).trans (ext_all _)))))
    , (fld_lo _ _ _ _ _ (by decide)).trans ((ext_hi (x0 ++ x1 ++ x2 ++ x3 ++ x4) x5 3 1 (by decide)).trans ((ext_lo (x0 ++ x1 ++ x2 ++ x3) x4 0 1 (by decide)).trans (ext_all _)))⟩

theorem shape13 (sc : BitVec 3) (op : BitVec 7) (x0 : BitVec 22) :
    fld (pack sc op (x0)) 7 15 = x0.extractLsb' 7 15
    ∧ fld (pack sc op (x0)) 0 7 = x0.extractLsb' 0 7 :=
  ⟨(fld_lo _ _ _ _ _ (by decide)).trans (rfl)
    , (fld_lo _ _ _ _ _ (by decide)).trans (rfl)⟩

theorem shape14 (sc : BitVec 3) (op : BitVec 7) (x0 : BitVec 16) (x1 : BitVec 3) (x2 : BitVec 3) :
    fld (pack sc op (x0 ++ x1 ++ x2)) 6 16 = x0
    ∧ fld (pack sc op (x0 ++ x1 ++ x2)) 3 3 = x1
    ∧ fld (pack sc op (x0 ++ x1 ++ x2)) 0 3 = x2 :=
  ⟨(fld_lo _ _ _ _ _ (by decide)).trans ((ext_hi (x0 ++ x1) x2 6 16 (by decide)).trans ((ext_hi (x0) x1 3 16 (by decide)).trans (ext_all _)))
    , (fld_lo _ _ _ _ _ (by decide)).trans ((ext_hi (x0 ++ x1) x2 3 3 (by decide)).trans ((ext_lo (x0) x1 0 3 (by decide)).trans (ext_all _)))
    , (fld_lo _ _ _ _ _ (by decide)).trans ((ext_lo (x0 ++ x1) x2 0 3 (by decide)).trans (ext_all _))⟩

theorem shape15 (sc : BitVec 3) (op : BitVec 7) (x0 : BitVec 5) (x1 : BitVec 5) (x2 : BitVec 5) (x3 : BitVec 4) (x4 : BitVec 1) (x5 : BitVec 1) (x6 : BitVec 1) :
    fld (pack sc op (x0 ++ x1 ++ x2 ++ x3 ++ x4 ++ x5 ++ x6)) 17 5 = x0
    ∧ fld (pack sc op (x0 ++ x1 ++ x2 ++ x3 ++ x4 ++ x5 ++ x6)) 12 5 = x1
    ∧ fld (pack sc op (x0 ++ x1 ++ x2 ++ x3 ++ x4 ++ x5 ++ x6)) 7 5 = x2
    ∧ fld (pack sc op (x0 ++ x1 ++ x2 ++ x3 ++ x4 ++ x5 ++ x6)) 2 1 = x4
    ∧ fld (pack sc op (x0 ++ x1 ++ x2 ++ x3 ++ x4 ++ x5 ++ x6)) 1 1 = x5
    ∧ fld (pack sc op (x0 ++ x1 ++ x2 ++ x3 ++ x4 ++ x5 ++ x6)) 0 1 = x6 :=
  ⟨(fld_lo _ _ _ _ _ (by decide)).trans ((ext_hi (x0 ++ x1 ++ x2 ++ x3 ++ x4 ++ x5) x6 17 5 (by decide)).trans ((ext_hi (x0 ++ x1 ++ x2 ++ x3 ++ x4) x5 16 5 (by decide)).trans ((ext_hi (x0 ++ x1 ++ x2 ++ x3) x4 15 5 (by decide)).trans ((ext_hi (x0 ++ x1 ++ x2) x3 14 5 (by decide)).trans ((ext_hi (x0 ++ x1) x2 10 5 (by decide)).trans ((ext_hi (x0) x1 5 5 (by decide)).trans (ext_all _)))))))
    , (fld_lo _ _ _ _ _ (by decide)).trans ((ext_hi (x0 ++ x1 ++ x2 ++ x3 ++ x4 ++ x5) x6 12 5 (by decide)).trans ((ext_hi (x0 ++ x1 ++ x2 ++ x3 ++ x4) x5 11 5 (by decide)).trans ((ext_hi (x0 ++ x1 ++ x2 ++ x3) x4 10 5 (by decide)).trans ((ext_hi (x0 ++ x1 ++ x2) x3 9 5 (by decide)).trans ((ext_hi (x0 ++ x1) x2 5 5 (by decide)).trans ((ext_lo (x0) x1 0 5 (by decide)).trans (ext_all _)))))))
    , (fld_lo _ _ _ _ _ (by decide)).trans ((ext_hi (x0 ++ x1 ++ x2 ++ x3 ++ x4 ++ x5) x6 7 5 (by decide)).trans ((ext_hi (x0 ++ x1 ++ x2 ++ x3 ++ x4) x5 6 5 (by decide)).trans ((ext_hi (x0 ++ x1 ++ x2 ++ x3) x4 5 5 (by decide)).trans ((ext_hi (x0 ++ x1 ++ x2) x3 4 5 (by decide)).trans ((ext_lo (x0 ++ x1) x2 0 5 (by decide)).trans (ext_all _))))))
    , (fld_lo _ _ _ _ _ (by decide)).trans ((ext_hi (x0 ++ x1 ++ x2 ++ x3 ++ x4 ++ x5) x6 2 1 (by decide)).trans ((ext_hi (x0 ++ x1 ++ x2 ++ x3 ++ x4) x5 1 1 (by decide)).trans ((ext_lo (x0 ++ x1 ++ x2 ++ x3) x4 0 1 (by decide)).trans (ext_all _))))
    , (fld_lo _ _ _ _ _ (by decide)).trans ((ext_hi (x0 ++ x1 ++ x2 ++ x3 ++ x4 ++ x5) x6 1 1 (by decide)).trans ((ext_lo (x0 ++ x1 ++ x2 ++ x3 ++ x4) x5 0 1 (by decide)).trans (ext_all _)))
    , (fld_lo _ _ _ _ _ (by decide)).trans ((ext_lo (x0 ++ x1 ++ x2 ++ x3 ++ x4 ++ x5) x6 0 1 (by decide)).trans (ext_all _))⟩

theorem shape16 (sc : BitVec 3) (op : BitVec 7) (x0 : BitVec 5) (x1 : BitVec 5) (x2 : BitVec 5) (x3 : BitVec 6) (x4 : BitVec 1) :
    fld (pack sc op (x0 ++ x1 ++ x2 ++ x3 ++ x4)) 17 5 = x0
    ∧ fld (pack sc op (x0 ++ x1 ++ x2 ++ x3 ++ x4)) 12 5 = x1
    ∧ fld (pack sc op (x0 ++ x1 ++ x2 ++ x3 ++ x4)) 7 5 = x2
    ∧ fld (pack sc op (x0 ++ x1 ++ x2 ++ x3 ++ x4)) 0 1 = x4 :=
  ⟨(fld_lo _ _ _ _ _ (by decide)).trans ((ext_hi (x0 ++ x1 ++ x2 ++ x3) x4 17 5 (by decide)).trans ((ext_hi (x0 ++ x1 ++ x2) x3 16 5 (by decide)).trans ((ext_hi (x0 ++ x1) x2 10 5 (by decide)).trans ((ext_hi (x0) x1 5 5 (by decide)).trans (ext_all _)))))
    , (fld_lo _ _ _ _ _ (by decide)).trans ((ext_hi (x0 ++ x1 ++ x2 ++ x3) x4 12 5 (by decide)).trans ((ext_hi (x0 ++ x1 ++ x2) x3 11 5 (by decide)).trans ((ext_hi (x0 ++ x1) x2 5 5 (by decide)).trans ((ext_lo (x0) x1 0 5 (by decide)).trans (ext_all _)))))
    , (fld_lo _ _ _ _ _ (by decide)).trans ((ext_hi (x0 ++ x1 ++ x2 ++ x3) x4 7 5 (by decide)).trans ((ext_hi (x0 ++ x1 ++ x2) x3 6 5 (by decide)).trans ((ext_lo (x0 ++ x1) x2 0 5 (by decide)).trans (ext_all _))))
    , (fld_lo _ _ _ _ _ (by decide)).trans ((ext_lo (x0 ++ x1 ++ x2 ++ x3) x4 0 1 (by decide)).trans (ext_all _))⟩

theorem shape17 (sc : BitVec 3) (op : BitVec 7) (x0 : BitVec 5) (x1 : BitVec 5) (x2 : BitVec 11) (x3 : BitVec 1) :
    fld (pack sc op (x0 ++ x1 ++ x2 ++ x3)) 17 5 = x0
    ∧ fld (pack sc op (x0 ++ x1 ++ x2 ++ x3)) 12 5 = x1
    ∧ fld (pack sc op (x0 ++ x1 ++ x2 ++ x3)) 7 5 = x2.extractLsb' 6 5
    ∧ fld (pack sc op (x0 ++ x1 ++ x2 ++ x3)) 0 1 = x3 :=
  ⟨(fld_lo _ _ _ _ _ (by decide)).trans ((ext_hi (x0 ++ x1 ++ x2) x3 17 5 (by decide)).trans ((ext_hi (x0 ++ x1) x2 16 5 (by decide)).trans ((ext_hi (x0) x1 5 5 (by decide)).trans (ext_all _))))
    , (fld_lo _ _ _ _ _ (by decide)).trans ((ext_hi (x0 ++ x1 ++ x2) x3 12 5 (by decide)).trans ((ext_hi (x0 ++ x1) x2 11 5 (by decide)).trans ((ext_lo (x0) x1 0 5 (by decide)).trans (ext_all _))))
    , (fld_lo _ _ _ _ _ (by decide)).trans ((ext_hi (x0 ++ x1 ++ x2) x3 7 5 (by decide)).trans ((ext_lo (x0 ++ x1) x2 6 5 (by decide)).trans (rfl)))
    , (fld_lo _ _ _ _ _ (by decide)).trans ((ext_lo (x0 ++ x1 ++ x2) x3 0 1 (by decide)).trans (ext_all _))⟩

theorem shape18 (sc : BitVec 3) (op : BitVec 7) (x0 : BitVec 5) (x1 : BitVec 5) (x2 : BitVec 5) (x3 : BitVec 5) (x4 : BitVec 2) :
    fld (pack sc op (x0 ++ x1 ++ x2 ++ x3 ++ x4)) 17 5 = x0
    ∧ fld (pack sc op (x0 ++ x1 ++ x2 ++ x3 ++ x4)) 12 5 = x1
    ∧ fld (pack sc op (x0 ++ x1 ++ x2 ++ x3 ++ x4)) 7 5 = x2
    ∧ fld (pack sc op (x0 ++ x1 ++ x2 ++ x3 ++ x4)) 2 5 = x3
    ∧ fld (pack sc op (x0 ++ x1 ++ x2 ++ x3 ++ x4)) 0 2 = x4 :=
  ⟨(fld_lo _ _ _ _ _ (by decide)).trans ((ext_hi (x0 ++ x1 ++ x2 ++ x3) x4 17 5 (by decide)).trans ((ext_hi (x0 ++ x1 ++ x2) x3 15 5 (by decide)).trans ((ext_hi (x0 ++ x1) x2 10 5 (by decide)).trans ((ext_hi (x0) x1 5 5 (by decide)).trans (ext_all _)))))
    , (fld_lo _ _ _ _ _ (by decide)).trans ((ext_hi (x0 ++ x1 ++ x2 ++ x3) x4 12 5 (by decide)).trans ((ext_hi (x0 ++ x1 ++ x2) x3 10 5 (by decide)).trans ((ext_hi (x0 ++ x1) x2 5 5 (by decide)).trans ((ext_lo (x0) x1 0 5 (by decide)).trans (ext_all _)))))
    , (fld_lo _ _ _ _ _ (by decide)).trans ((ext_hi (x0 ++ x1 ++ x2 ++ x3) x4 7 5 (by decide)).trans ((ext_hi (x0 ++ x1 ++ x2) x3 5 5 (by decide)).trans ((ext_lo (x0 ++ x1) x2 0 5 (by decide)).trans (ext_all _))))
    , (fld_lo _ _ _ _ _ (by decide)).trans ((ext_hi (x0 ++ x1 ++ x2 ++ x3) x4 2 5 (by decide)).trans ((ext_lo (x0 ++ x1 ++ x2) x3 0 5 (by decide)).trans (ext_all _)))
    , (fld_lo _ _ _ _ _ (by decide)).trans ((ext_lo (x0 ++ x1 ++ x2 ++ x3) x4 0 2 (by decide)).trans (ext_all _))⟩

theorem shape19 (sc : BitVec 3) (op : BitVec 7) (x0 : BitVec 5) (x1 : BitVec 5) (x2 : BitVec 5) (x3 : BitVec 3) (x4 : BitVec 4) :
    fld (pack sc op (x0 ++ x1 ++ x2 ++ x3 ++ x4)) 17 5 = x0
    ∧ fld (pack sc op (x0 ++ x1 ++ x2 ++ x3 ++ x4)) 12 5 = x1
    ∧ fld (pack sc op (x0 ++ x1 ++ x2 ++ x3 ++ x4)) 7 5 = x2
    ∧ fld (pack sc op (x0 ++ x1 ++ x2 ++ x3 ++ x4)) 4 3 = x3
    ∧ fld (pack sc op (x0 ++ x1 ++ x2 ++ x3 ++ x4)) 0 4 = x4 :=
  ⟨(fld_lo _ _ _ _ _ (by decide)).trans ((ext_hi (x0 ++ x1 ++ x2 ++ x3) x4 17 5 (by decide)).trans ((ext_hi (x0 ++ x1 ++ x2) x3 13 5 (by decide)).trans ((ext_hi (x0 ++ x1) x2 10 5 (by decide)).trans ((ext_hi (x0) x1 5 5 (by decide)).trans (ext_all _)))))
    , (fld_lo _ _ _ _ _ (by decide)).trans ((ext_hi (x0 ++ x1 ++ x2 ++ x3) x4 12 5 (by decide)).trans ((ext_hi (x0 ++ x1 ++ x2) x3 8 5 (by decide)).trans ((ext_hi (x0 ++ x1) x2 5 5 (by decide)).trans ((ext_lo (x0) x1 0 5 (by decide)).trans (ext_all _)))))
    , (fld_lo _ _ _ _ _ (by decide)).trans ((ext_hi (x0 ++ x1 ++ x2 ++ x3) x4 7 5 (by decide)).trans ((ext_hi (x0 ++ x1 ++ x2) x3 3 5 (by decide)).trans ((ext_lo (x0 ++ x1) x2 0 5 (by decide)).trans (ext_all _))))
    , (fld_lo _ _ _ _ _ (by decide)).trans ((ext_hi (x0 ++ x1 ++ x2 ++ x3) x4 4 3 (by decide)).trans ((ext_lo (x0 ++ x1 ++ x2) x3 0 3 (by decide)).trans (ext_all _)))
    , (fld_lo _ _ _ _ _ (by decide)).trans ((ext_lo (x0 ++ x1 ++ x2 ++ x3) x4 0 4 (by decide)).trans (ext_all _))⟩

theorem shape20 (sc : BitVec 3) (op : BitVec 7) (x0 : BitVec 5) (x1 : BitVec 5) (x2 : BitVec 5) (x3 : BitVec 3) (x4 : BitVec 4) :
    fld (pack sc op (x0 ++ x1 ++ x2 ++ x3 ++ x4)) 17 5 = x0
    ∧ fld (pack sc op (x0 ++ x1 ++ x2 ++ x3 ++ x4)) 12 5 = x1
    ∧ fld (pack sc op (x0 ++ x1 ++ x2 ++ x3 ++ x4)) 7 5 = x2
    ∧ fld (pack sc op (x0 ++ x1 ++ x2 ++ x3 ++ x4)) 4 3 = x3
    ∧ fld (pack sc op (x0 ++ x1 ++ x2 ++ x3 ++ x4)) 0 4 = x4 :=
  ⟨(fld_lo _ _ _ _ _ (by decide)).trans ((ext_hi (x0 ++ x1 ++ x2 ++ x3) x4 17 5 (by decide)).trans ((ext_hi (x0 ++ x1 ++ x2) x3 13 5 (by decide)).trans ((ext_hi (x0 ++ x1) x2 10 5 (by decide)).trans ((ext_hi (x0) x1 5 5 (by decide)).trans (ext_all _)))))
    , (fld_lo _ _ _ _ _ (by decide)).trans ((ext_hi (x0 ++ x1 ++ x2 ++ x3) x4 12 5 (by decide)).trans ((ext_hi (x0 ++ x1 ++ x2) x3 8 5 (by decide)).trans ((ext_hi (x0 ++ x1) x2 5 5 (by decide)).trans ((ext_lo (x0) x1 0 5 (by decide)).trans (ext_all _)))))
    , (fld_lo _ _ _ _ _ (by decide)).trans ((ext_hi (x0 ++ x1 ++ x2 ++ x3) x4 7 5 (by decide)).trans ((ext_hi (x0 ++ x1 ++ x2) x3 3 5 (by decide)).trans ((ext_lo (x0 ++ x1) x2 0 5 (by decide)).trans (ext_all _))))
    , (fld_lo _ _ _ _ _ (by decide)).trans ((ext_hi (x0 ++ x1 ++ x2 ++ x3) x4 4 3 (by decide)).trans ((ext_lo (x0 ++ x1 ++ x2) x3 0 3 (by decide)).trans (ext_all _)))
    , (fld_lo _ _ _ _ _ (by decide)).trans ((ext_lo (x0 ++ x1 ++ x2 ++ x3) x4 0 4 (by decide)).trans (ext_all _))⟩

theorem shape21 (sc : BitVec 3) (op : BitVec 7) (x0 : BitVec 2) (x1 : BitVec 3) (x2 : BitVec 5) (x3 : BitVec 5) (x4 : BitVec 3) (x5 : BitVec 2) (x6 : BitVec 2) :
    fld (pack sc op (x0 ++ x1 ++ x2 ++ x3 ++ x4 ++ x5 ++ x6)) 20 2 = x0
    ∧ fld (pack sc op (x0 ++ x1 ++ x2 ++ x3 ++ x4 ++ x5 ++ x6)) 17 3 = x1
    ∧ fld (pack sc op (x0 ++ x1 ++ x2 ++ x3 ++ x4 ++ x5 ++ x6)) 12 5 = x2
    ∧ fld (pack sc op (x0 ++ x1 ++ x2 ++ x3 ++ x4 ++ x5 ++ x6)) 7 5 = x3
    ∧ fld (pack sc op (x0 ++ x1 ++ x2 ++ x3 ++ x4 ++ x5 ++ x6)) 4 3 = x4
    ∧ fld (pack sc op (x0 ++ x1 ++ x2 ++ x3 ++ x4 ++ x5 ++ x6)) 0 2 = x6 :=
  ⟨(fld_lo _ _ _ _ _ (by decide)).trans ((ext_hi (x0 ++ x1 ++ x2 ++ x3 ++ x4 ++ x5) x6 20 2 (by decide)).trans ((ext_hi (x0 ++ x1 ++ x2 ++ x3 ++ x4) x5 18 2 (by decide)).trans ((ext_hi (x0 ++ x1 ++ x2 ++ x3) x4 16 2 (by decide)).trans ((ext_hi (x0 ++ x1 ++ x2) x3 13 2 (by decide)).trans ((ext_hi (x0 ++ x1) x2 8 2 (by decide)).trans ((ext_hi (x0) x1 3 2 (by decide)).trans (ext_all _)))))))
    , (fld_lo _ _ _ _ _ (by decide)).trans ((ext_hi (x0 ++ x1 ++ x2 ++ x3 ++ x4 ++ x5) x6 17 3 (by decide)).trans ((ext_hi (x0 ++ x1 ++ x2 ++ x3 ++ x4) x5 15 3 (by decide)).trans ((ext_hi (x0 ++ x1 ++ x2 ++ x3) x4 13 3 (by decide)).trans ((ext_hi (x0 ++ x1 ++ x2) x3 10 3 (by decide)).trans ((ext_hi (x0 ++ x1) x2 5 3 (by decide)).trans ((ext_lo (x0) x1 0 3 (by decide)).trans (ext_all _)))))))
    , (fld_lo _ _ _ _ _ (by decide)).trans ((ext_hi (x0 ++ x1 ++ x2 ++ x3 ++ x4 ++ x5) x6 12 5 (by decide)).trans ((ext_hi (x0 ++ x1 ++ x2 ++ x3 ++ x4) x5 10 5 (by decide)).trans ((ext_hi (x0 ++ x1 ++ x2 ++ x3) x4 8 5 (by decide)).trans ((ext_hi (x0 ++ x1 ++ x2) x3 5 5 (by decide)).trans ((ext_lo (x0 ++ x1) x2 0 5 (by decide)).trans (ext_all _))))))
    , (fld_lo _ _ _ _ _ (by decide)).trans ((ext_hi (x0 ++ x1 ++ x2 ++ x3 ++ x4 ++ x5) x6 7 5 (by decide)).trans ((ext_hi (x0 ++ x1 ++ x2 ++ x3 ++ x4) x5 5 5 (by decide)).trans ((ext_hi (x0 ++ x1 ++ x2 ++ x3) x4 3 5 (by decide)).trans ((ext_lo (x0 ++ x1 ++ x2) x3 0 5 (by decide)).trans (ext_all _)))))
    , (fld_lo _ _ _ _ _ (by decide)).trans ((ext_hi (x0 ++ x1 ++ x2 ++ x3 ++ x4 ++ x5) x6 4 3 (by decide)).trans ((ext_hi (x0 ++ x1 ++ x2 ++ x3 ++ x4) x5 2 3 (by decide)).trans ((ext_lo (x0 ++ x1 ++ x2 ++ x3) x4 0 3 (by decide)).trans (ext_all _))))
    , (fld_lo _ _ _ _ _ (by decide)).trans ((ext_lo (x0 ++ x1 ++ x2 ++ x3 ++ x4 ++ x5) x6 0 2 (by decide)).trans (ext_all _))⟩

theorem shape22 (sc : BitVec 3) (op : BitVec 7) (x0 : BitVec 5) (x1 : BitVec 5) (x2 : BitVec 1) (x3 : BitVec 1) (x4 : BitVec 3) (x5 : BitVec 3) (x6 : BitVec 4) :
    fld (pack sc op (x0 ++ x1 ++ x2 ++ x3 ++ x4 ++ x5 ++ x6)) 17 5 = x0
    ∧ fld (pack sc op (x0 ++ x1 ++ x2 ++ x3 ++ x4 ++ x5 ++ x6)) 12 5 = x1
    ∧ fld (pack sc op (x0 ++ x1 ++ x2 ++ x3 ++ x4 ++ x5 ++ x6)) 11 1 = x2
    ∧ fld (pack sc op (x0 ++ x1 ++ x2 ++ x3 ++ x4 ++ x5 ++ x6)) 10 1 = x3
    ∧ fld (pack sc op (x0 ++ x1 ++ x2 ++ x3 ++ x4 ++ x5 ++ x6)) 7 3 = x4
    ∧ fld (pack sc op (x0 ++ x1 ++ x2 ++ x3 ++ x4 ++ x5 ++ x6)) 4 3 = x5
    ∧ fld (pack sc op (x0 ++ x1 ++ x2 ++ x3 ++ x4 ++ x5 ++ x6)) 0 4 = x6 :=
  ⟨(fld_lo _ _ _ _ _ (by decide)).trans ((ext_hi (x0 ++ x1 ++ x2 ++ x3 ++ x4 ++ x5) x6 17 5 (by decide)).trans ((ext_hi (x0 ++ x1 ++ x2 ++ x3 ++ x4) x5 13 5 (by decide)).trans ((ext_hi (x0 ++ x1 ++ x2 ++ x3) x4 10 5 (by decide)).trans ((ext_hi (x0 ++ x1 ++ x2) x3 7 5 (by decide)).trans ((ext_hi (x0 ++ x1) x2 6 5 (by decide)).trans ((ext_hi (x0) x1 5 5 (by decide)).trans (ext_all _)))))))
    , (fld_lo _ _ _ _ _ (by decide)).trans ((ext_hi (x0 ++ x1 ++ x2 ++ x3 ++ x4 ++ x5) x6 12 5 (by decide)).trans ((ext_hi (x0 ++ x1 ++ x2 ++ x3 ++ x4) x5 8 5 (by decide)).trans ((ext_hi (x0 ++ x1 ++ x2 ++ x3) x4 5 5 (by decide)).trans ((ext_hi (x0 ++ x1 ++ x2) x3 2 5 (by decide)).trans ((ext_hi (x0 ++ x1) x2 1 5 (by decide)).trans ((ext_lo (x0) x1 0 5 (by decide)).trans (ext_all _)))))))
    , (fld_lo _ _ _ _ _ (by decide)).trans ((ext_hi (x0 ++ x1 ++ x2 ++ x3 ++ x4 ++ x5) x6 11 1 (by decide)).trans ((ext_hi (x0 ++ x1 ++ x2 ++ x3 ++ x4) x5 7 1 (by decide)).trans ((ext_hi (x0 ++ x1 ++ x2 ++ x3) x4 4 1 (by decide)).trans ((ext_hi (x0 ++ x1 ++ x2) x3 1 1 (by decide)).trans ((ext_lo (x0 ++ x1) x2 0 1 (by decide)).trans (ext_all _))))))
    , (fld_lo _ _ _ _ _ (by decide)).trans ((ext_hi (x0 ++ x1 ++ x2 ++ x3 ++ x4 ++ x5) x6 10 1 (by decide)).trans ((ext_hi (x0 ++ x1 ++ x2 ++ x3 ++ x4) x5 6 1 (by decide)).trans ((ext_hi (x0 ++ x1 ++ x2 ++ x3) x4 3 1 (by decide)).trans ((ext_lo (x0 ++ x1 ++ x2) x3 0 1 (by decide)).trans (ext_all _)))))
    , (fld_lo _ _ _ _ _ (by decide)).trans ((ext_hi (x0 ++ x1 ++ x2 ++ x3 ++ x4 ++ x5) x6 7 3 (by decide)).trans ((ext_hi (x0 ++ x1 ++ x2 ++ x3 ++ x4) x5 3 3 (by decide)).trans ((ext_lo (x0 ++ x1 ++ x2 ++ x3) x4 0 3 (by decide)).trans (ext_all _))))
    , (fld_lo _ _ _ _ _ (by decide)).trans ((ext_hi (x0 ++ x1 ++ x2 ++ x3 ++ x4 ++ x5) x6 4 3 (by decide)).trans ((ext_lo (x0 ++ x1 ++ x2 ++ x3 ++ x4) x5 0 3 (by decide)).trans (ext_all _)))
    , (fld_lo _ _ _ _ _ (by decide)).trans ((ext_lo (x0 ++ x1 ++ x2 ++ x3 ++ x4 ++ x5) x6 0 4 (by decide)).trans (ext_all _))⟩

theorem shape23 (sc : BitVec 3) (op : BitVec 7) (x0 : BitVec 5) (x1 : BitVec 5) (x2 : BitVec 1) (x3 : BitVec 4) (x4 : BitVec 3) (x5 : BitVec 4) :
    fld (pack sc op (x0 ++ x1 ++ x2 ++ x3 ++ x4 ++ x5)) 17 5 = x0
    ∧ fld (pack sc op (x0 ++ x1 ++ x2 ++ x3 ++ x4 ++ x5)) 12 5 = x1
    ∧ fld (pack sc op (x0 ++ x1 ++ x2 ++ x3 ++ x4 ++ x5)) 11 1 = x2
    ∧ fld (pack sc op (x0 ++ x1 ++ x2 ++ x3 ++ x4 ++ x5)) 7 4 = x3
    ∧ fld (pack sc op (x0 ++ x1 ++ x2 ++ x3 ++ x4 ++ x5)) 4 3 = x4
    ∧ fld (pack sc op (x0 ++ x1 ++ x2 ++ x3 ++ x4 ++ x5)) 0 4 = x5 :=
  ⟨(fld_lo _ _ _ _ _ (by decide)).trans ((ext_hi (x0 ++ x1 ++ x2 ++ x3 ++ x4) x5 17 5 (by decide)).trans ((ext_hi (x0 ++ x1 ++ x2 ++ x3) x4 13 5 (by decide)).trans ((ext_hi (x0 ++ x1 ++ x2) x3 10 5 (by decide)).trans ((ext_hi (x0 ++ x1) x2 6 5 (by decide)).trans ((ext_hi (x0) x1 5 5 (by decide)).trans (ext_all _))))))
    , (fld_lo _ _ _ _ _ (by decide)).trans ((ext_hi (x0 ++ x1 ++ x2 ++ x3 ++ x4) x5 12 5 (by decide)).trans ((ext_hi (x0 ++ x1 ++ x2 ++ x3) x4 8 5 (by decide)).trans ((ext_hi (x0 ++ x1 ++ x2) x3 5 5 (by decide)).trans ((ext_hi (x0 ++ x1) x2 1 5 (by decide)).trans ((ext_lo (x0) x1 0 5 (by decide)).trans (ext_all _))))))
    , (fld_lo _ _ _ _ _ (by decide)).trans ((ext_hi (x0 ++ x1 ++ x2 ++ x3 ++ x4) x5 11 1 (by decide)).trans ((ext_hi (x0 ++ x1 ++ x2 ++ x3) x4 7 1 (by decide)).trans ((ext_hi (x0 ++ x1 ++ x2) x3 4 1 (by decide)).trans ((ext_lo (x0 ++ x1) x2 0 1 (by decide)).trans (ext_all _)))))
    , (fld_lo _ _ _ _ _ (by decide)).trans ((ext_hi (x0 ++ x1 ++ x2 ++ x3 ++ x4) x5 7 4 (by decide)).trans ((ext_hi (x0 ++ x1 ++ x2 ++ x3) x4 3 4 (by decide)).trans ((ext_lo (x0 ++ x1 ++ x2) x3 0 4 (by decide)).trans (ext_all _))))
    , (fld_lo _ _ _ _ _ (by decide)).trans ((ext_hi (x0 ++ x1 ++ x2 ++ x3 ++ x4) x5 4 3 (by decide)).trans ((ext_lo (x0 ++ x1 ++ x2 ++ x3) x4 0 3 (by decide)).trans (ext_all _)))
    , (fld_lo _ _ _ _ _ (by decide)).trans ((ext_lo (x0 ++ x1 ++ x2 ++ x3 ++ x4) x5 0 4 (by decide)).trans (ext_all _))⟩

theorem shape24 (sc : BitVec 3) (op : BitVec 7) (x0 : BitVec 3) (x1 : BitVec 2) (x2 : BitVec 5) (x3 : BitVec 5) (x4 : BitVec 3) (x5 : BitVec 4) :
    fld (pack sc op (x0 ++ x1 ++ x2 ++ x3 ++ x4 ++ x5)) 19 3 = x0
    ∧ fld (pack sc op (x0 ++ x1 ++ x2 ++ x3 ++ x4 ++ x5)) 17 2 = x1
    ∧ fld (pack sc op (x0 ++ x1 ++ x2 ++ x3 ++ x4 ++ x5)) 12 5 = x2
    ∧ fld (pack sc op (x0 ++ x1 ++ x2 ++ x3 ++ x4 ++ x5)) 7 5 = x3
    ∧ fld (pack sc op (x0 ++ x1 ++ x2 ++ x3 ++ x4 ++ x5)) 4 3 = x4
    ∧ fld (pack sc op (x0 ++ x1 ++ x2 ++ x3 ++ x4 ++ x5)) 0 4 = x5 :=
  ⟨(fld_lo _ _ _ _ _ (by decide)).trans ((ext_hi (x0 ++ x1 ++ x2 ++ x3 ++ x4) x5 19 3 (by decide)).trans ((ext_hi (x0 ++ x1 ++ x2 ++ x3) x4 15 3 (by decide)).trans ((ext_hi (x0 ++ x1 ++ x2) x3 12 3 (by decide)).trans ((ext_hi (x0 ++ x1) x2 7 3 (by decide)).trans ((ext_hi (x0) x1 2 3 (by decide)).trans (ext_all _))))))
    , (fld_lo _ _ _ _ _ (by decide)).trans ((ext_hi (x0 ++ x1 ++ x2 ++ x3 ++ x4) x5 17 2 (by decide)).trans ((ext_hi (x0 ++ x1 ++ x2 ++ x3) x4 13 2 (by decide)).trans ((ext_hi (x0 ++ x1 ++ x2) x3 10 2 (by decide)).trans ((ext_hi (x0 ++ x1) x2 5 2 (by decide)).trans ((ext_lo (x0) x1 0 2 (by decide)).trans (ext_all _))))))
    , (fld_lo _ _ _ _ _ (by decide)).trans ((ext_hi (x0 ++ x1 ++ x2 ++ x3 ++ x4) x5 12 5 (by decide)).trans ((ext_hi (x0 ++ x1 ++ x2 ++ x3) x4 8 5 (by decide)).trans ((ext_hi (x0 ++ x1 ++ x2) x3 5 5 (by decide)).trans ((ext_lo (x0 ++ x1) x2 0 5 (by decide)).trans (ext_all _)))))
    , (fld_lo _ _ _ _ _ (by decide)).trans ((ext_hi (x0 ++ x1 ++ x2 ++ x3 ++ x4) x5 7 5 (by decide)).trans ((ext_hi (x0 ++ x1 ++ x2 ++ x3) x4 3 5 (by decide)).trans ((ext_lo (x0 ++ x1 ++ x2) x3 0 5 (by decide)).trans (ext_all _))))
    , (fld_lo _ _ _ _ _ (by decide)).trans ((ext_hi (x0 ++ x1 ++ x2 ++ x3 ++ x4) x5 4 3 (by decide)).trans ((ext_lo (x0 ++ x1 ++ x2 ++ x3) x4 0 3 (by decide)).trans (ext_all _)))
    , (fld_lo _ _ _ _ _ (by decide)).trans ((ext_lo (x0 ++ x1 ++ x2 ++ x3 ++ x4) x5 0 4 (by decide)).trans (ext_all _))⟩

theorem shape25 (sc : BitVec 3) (op : BitVec 7) (x0 : BitVec 5) (x1 : BitVec 3) (x2 : BitVec 2) (x3 : BitVec 1) (x4 : BitVec 4) (x5 : BitVec 7) :
    fld (pack sc op (x0 ++ x1 ++ x2 ++ x3 ++ x4 ++ x5)) 17 5 = x0
    ∧ fld (pack sc op (x0 ++ x1 ++ x2 ++ x3 ++ x4 ++ x5)) 14 3 = x1
    ∧ fld (pack sc op (x0 ++ x1 ++ x2 ++ x3 ++ x4 ++ x5)) 12 2 = x2
    ∧ fld (pack sc op (x0 ++ x1 ++ x2 ++ x3 ++ x4 ++ x5)) 11 1 = x3
    ∧ fld (pack sc op (x0 ++ x1 ++ x2 ++ x3 ++ x4 ++ x5)) 7 4 = x4
    ∧ fld (pack sc op (x0 ++ x1 ++ x2 ++ x3 ++ x4 ++ x5)) 4 3 = x5.extractLsb' 4 3
    ∧ fld (pack sc op (x0 ++ x1 ++ x2 ++ x3 ++ x4 ++ x5)) 0 4 = x5.extractLsb' 0 4 :=
  ⟨(fld_lo _ _ _ _ _ (by decide)).trans ((ext_hi (x0 ++ x1 ++ x2 ++ x3 ++ x4) x5 17 5 (by decide)).trans ((ext_hi (x0 ++ x1 ++ x2 ++ x3) x4 10 5 (by decide)).trans ((ext_hi (x0 ++ x1 ++ x2) x3 6 5 (by decide)).trans ((ext_hi (x0 ++ x1) x2 5 5 (by decide)).trans ((ext_hi (x0) x1 3 5 (by decide)).trans (ext_all _))))))
    , (fld_lo _ _ _ _ _ (by decide)).trans ((ext_hi (x0 ++ x1 ++ x2 ++ x3 ++ x4) x5 14 3 (by decide)).trans ((ext_hi (x0 ++ x1 ++ x2 ++ x3) x4 7 3 (by decide)).trans ((ext_hi (x0 ++ x1 ++ x2) x3 3 3 (by decide)).trans ((ext_hi (x0 ++ x1) x2 2 3 (by decide)).trans ((ext_lo (x0) x1 0 3 (by decide)).trans (ext_all _))))))
    , (fld_lo _ _ _ _ _ (by decide)).trans ((ext_hi (x0 ++ x1 ++ x2 ++ x3 ++ x4) x5 12 2 (by decide)).trans ((ext_hi (x0 ++ x1 ++ x2 ++ x3) x4 5 2 (by decide)).trans ((ext_hi (x0 ++ x1 ++ x2) x3 1 2 (by decide)).trans ((ext_lo (x0 ++ x1) x2 0 2 (by decide)).trans (ext_all _)))))
    , (fld_lo _ _ _ _ _ (by decide)).trans ((ext_hi (x0 ++ x1 ++ x2 ++ x3 ++ x4) x5 11 1 (by decide)).trans ((ext_hi (x0 ++ x1 ++ x2 ++ x3) x4 4 1 (by decide)).trans ((ext_lo (x0 ++ x1 ++ x2) x3 0 1 (by decide)).trans (ext_all _))))
    , (fld_lo _ _ _ _ _ (by decide)).trans ((ext_hi (x0 ++ x1 ++ x2 ++ x3 ++ x4) x5 7 4 (by decide)).trans ((ext_lo (x0 ++ x1 ++ x2 ++ x3) x4 0 4 (by decide)).trans (ext_all _)))
    , (fld_lo _ _ _ _ _ (by decide)).trans ((ext_lo (x0 ++ x1 ++ x2 ++ x3 ++ x4) x5 4 3 (by decide)).trans (rfl))
    , (fld_lo _ _ _ _ _ (by decide)).trans ((ext_lo (x0 ++ x1 ++ x2 ++ x3 ++ x4) x5 0 4 (by decide)).trans (rfl))⟩

theorem shape26 (sc : BitVec 3) (op : BitVec 7) (x0 : BitVec 5) (x1 : BitVec 5) (x2 : BitVec 3) (x3 : BitVec 9) :
    fld (pack sc op (x0 ++ x1 ++ x2 ++ x3)) 17 5 = x0
    ∧ fld (pack sc op (x0 ++ x1 ++ x2 ++ x3)) 12 5 = x1
    ∧ fld (pack sc op (x0 ++ x1 ++ x2 ++ x3)) 9 3 = x2
    ∧ fld (pack sc op (x0 ++ x1 ++ x2 ++ x3)) 0 9 = x3 :=
  ⟨(fld_lo _ _ _ _ _ (by decide)).trans ((ext_hi (x0 ++ x1 ++ x2) x3 17 5 (by decide)).trans ((ext_hi (x0 ++ x1) x2 8 5 (by decide)).trans ((ext_hi (x0) x1 5 5 (by decide)).trans (ext_all _))))
    , (fld_lo _ _ _ _ _ (by decide)).trans ((ext_hi (x0 ++ x1 ++ x2) x3 12 5 (by decide)).trans ((ext_hi (x0 ++ x1) x2 3 5 (by decide)).trans ((ext_lo (x0) x1 0 5 (by decide)).trans (ext_all _))))
    , (fld_lo _ _ _ _ _ (by decide)).trans ((ext_hi (x0 ++ x1 ++ x2) x3 9 3 (by decide)).trans ((ext_lo (x0 ++ x1) x2 0 3 (by decide)).trans (ext_all _)))
    , (fld_lo _ _ _ _ _ (by decide)).trans ((ext_lo (x0 ++ x1 ++ x2) x3 0 9 (by decide)).trans (ext_all _))⟩

theorem shape27 (sc : BitVec 3) (op : BitVec 7) (x0 : BitVec 2) (x1 : BitVec 3) (x2 : BitVec 2) (x3 : BitVec 3) (x4 : BitVec 2) (x5 : BitVec 3) (x6 : BitVec 7) :
    fld (pack sc op (x0 ++ x1 ++ x2 ++ x3 ++ x4 ++ x5 ++ x6)) 20 2 = x0
    ∧ fld (pack sc op (x0 ++ x1 ++ x2 ++ x3 ++ x4 ++ x5 ++ x6)) 17 3 = x1
    ∧ fld (pack sc op (x0 ++ x1 ++ x2 ++ x3 ++ x4 ++ x5 ++ x6)) 15 2 = x2
    ∧ fld (pack sc op (x0 ++ x1 ++ x2 ++ x3 ++ x4 ++ x5 ++ x6)) 12 3 = x3
    ∧ fld (pack sc op (x0 ++ x1 ++ x2 ++ x3 ++ x4 ++ x5 ++ x6)) 10 2 = x4
    ∧ fld (pack sc op (x0 ++ x1 ++ x2 ++ x3 ++ x4 ++ x5 ++ x6)) 7 3 = x5
    ∧ fld (pack sc op (x0 ++ x1 ++ x2 ++ x3 ++ x4 ++ x5 ++ x6)) 4 3 = x6.extractLsb' 4 3
    ∧ fld (pack sc op (x0 ++ x1 ++ x2 ++ x3 ++ x4 ++ x5 ++ x6)) 0 4 = x6.extractLsb' 0 4 :=
  ⟨(fld_lo _ _ _ _ _ (by decide)).trans ((ext_hi (x0 ++ x1 ++ x2 ++ x3 ++ x4 ++ x5) x6 20 2 (by decide)).trans ((ext_hi (x0 ++ x1 ++ x2 ++ x3 ++ x4) x5 13 2 (by decide)).trans ((ext_hi (x0 ++ x1 ++ x2 ++ x3) x4 10 2 (by decide)).trans ((ext_hi (x0 ++ x1 ++ x2) x3 8 2 (by decide)).trans ((ext_hi (x0 ++ x1) x2 5 2 (by decide)).trans ((ext_hi (x0) x1 3 2 (by decide)).trans (ext_all _)))))))
    , (fld_lo _ _ _ _ _ (by decide)).trans ((ext_hi (x0 ++ x1 ++ x2 ++ x3 ++ x4 ++ x5) x6 17 3 (by decide)).trans ((ext_hi (x0 ++ x1 ++ x2 ++ x3 ++ x4) x5 10 3 (by decide)).trans ((ext_hi (x0 ++ x1 ++ x2 ++ x3) x4 7 3 (by decide)).trans ((ext_hi (x0 ++ x1 ++ x2) x3 5 3 (by decide)).trans ((ext_hi (x0 ++ x1) x2 2 3 (by decide)).trans ((ext_lo (x0) x1 0 3 (by decide)).trans (ext_all _)))))))
    , (fld_lo _ _ _ _ _ (by decide)).trans ((ext_hi (x0 ++ x1 ++ x2 ++ x3 ++ x4 ++ x5) x6 15 2 (by decide)).trans ((ext_hi (x0 ++ x1 ++ x2 ++ x3 ++ x4) x5 8 2 (by decide)).trans ((ext_hi (x0 ++ x1 ++ x2 ++ x3) x4 5 2 (by decide)).trans ((ext_hi (x0 ++ x1 ++ x2) x3 3 2 (by decide)).trans ((ext_lo (x0 ++ x1) x2 0 2 (by decide)).trans (ext_all _))))))
    , (fld_lo _ _ _ _ _ (by decide)).trans ((ext_hi (x0 ++ x1 ++ x2 ++ x3 ++ x4 ++ x5) x6 12 3 (by decide)).trans ((ext_hi (x0 ++ x1 ++ x2 ++ x3 ++ x4) x5 5 3 (by decide)).trans ((ext_hi (x0 ++ x1 ++ x2 ++ x3) x4 2 3 (by decide)).trans ((ext_lo (x0 ++ x1 ++ x2) x3 0 3 (by decide)).trans (ext_all _)))))
    , (fld_lo _ _ _ _ _ (by decide)).trans ((ext_hi (x0 ++ x1 ++ x2 ++ x3 ++ x4 ++ x5) x6 10 2 (by decide)).trans ((ext_hi (x0 ++ x1 ++ x2 ++ x3 ++ x4) x5 3 2 (by decide)).trans ((ext_lo (x0 ++ x1 ++ x2 ++ x3) x4 0 2 (by decide)).trans (ext_all _))))
    , (fld_lo _ _ _ _ _ (by decide)).trans ((ext_hi (x0 ++ x1 ++ x2 ++ x3 ++ x4 ++ x5) x6 7 3 (by decide)).trans ((ext_lo (x0 ++ x1 ++ x2 ++ x3 ++ x4) x5 0 3 (by decide)).trans (ext_all _)))
    , (fld_lo _ _ _ _ _ (by decide)).trans ((ext_lo (x0 ++ x1 ++ x2 ++ x3 ++ x4 ++ x5) x6 4 3 (by decide)).trans (rfl))
    , (fld_lo _ _ _ _ _ (by decide)).trans ((ext_lo (x0 ++ x1 ++ x2 ++ x3 ++ x4 ++ x5) x6 0 4 (by decide)).trans (rfl))⟩

theorem shape28 (sc : BitVec 3) (op : BitVec 7) (x0 : BitVec 2) (x1 : BitVec 3) (x2 : BitVec 2) (x3 : BitVec 3) (x4 : BitVec 12) :
    fld (pack sc op (x0 ++ x1 ++ x2 ++ x3 ++ x4)) 20 2 = x0
    ∧ fld (pack sc op (x0 ++ x1 ++ x2 ++ x3 ++ x4)) 17 3 = x1
    ∧ fld (pack sc op (x0 ++ x1 ++ x2 ++ x3 ++ x4)) 15 2 = x2
    ∧ fld (pack sc op (x0 ++ x1 ++ x2 ++ x3 ++ x4)) 12 3 = x3
    ∧ fld (pack sc op (x0 ++ x1 ++ x2 ++ x3 ++ x4)) 4 8 = x4.extractLsb' 4 8
    ∧ fld (pack sc op (x0 ++ x1 ++ x2 ++ x3 ++ x4)) 0 4 = x4.extractLsb' 0 4 :=
  ⟨(fld_lo _ _ _ _ _ (by decide)).trans ((ext_hi (x0 ++ x1 ++ x2 ++ x3) x4 20 2 (by decide)).trans ((ext_hi (x0 ++ x1 ++ x2) x3 8 2 (by decide)).trans ((ext_hi (x0 ++ x1) x2 5 2 (by decide)).trans ((ext_hi (x0) x1 3 2 (by decide)).trans (ext_all _)))))
    , (fld_lo _ _ _ _ _ (by decide)).trans ((ext_hi (x0 ++ x1 ++ x2 ++ x3) x4 17 3 (by decide)).trans ((ext_hi (x0 ++ x1 ++ x2) x3 5 3 (by decide)).trans ((ext_hi (x0 ++ x1) x2 2 3 (by decide)).trans ((ext_lo (x0) x1 0 3 (by decide)).trans (ext_all _)))))
    , (fld_lo _ _ _ _ _ (by decide)).trans ((ext_hi (x0 ++ x1 ++ x2 ++ x3) x4 15 2 (by decide)).trans ((ext_hi (x0 ++ x1 ++ x2) x3 3 2 (by decide)).trans ((ext_lo (x0 ++ x1) x2 0 2 (by decide)).trans (ext_all _))))
    , (fld_lo _ _ _ _ _ (by decide)).trans ((ext_hi (x0 ++ x1 ++ x2 ++ x3) x4 12 3 (by decide)).trans ((ext_lo (x0 ++ x1 ++ x2) x3 0 3 (by decide)).trans (ext_all _)))
    , (fld_lo _ _ _ _ _ (by decide)).trans ((ext_lo (x0 ++ x1 ++ x2 ++ x3) x4 4 8 (by decide)).trans (rfl))
    , (fld_lo _ _ _ _ _ (by decide)).trans ((ext_lo (x0 ++ x1 ++ x2 ++ x3) x4 0 4 (by decide)).trans (rfl))⟩

theorem shape29 (sc : BitVec 3) (op : BitVec 7) (x0 : BitVec 5) (x1 : BitVec 2) (x2 : BitVec 3) (x3 : BitVec 12) :
    fld (pack sc op (x0 ++ x1 ++ x2 ++ x3)) 17 5 = x0
    ∧ fld (pack sc op (x0 ++ x1 ++ x2 ++ x3)) 15 2 = x1
    ∧ fld (pack sc op (x0 ++ x1 ++ x2 ++ x3)) 12 3 = x2
    ∧ fld (pack sc op (x0 ++ x1 ++ x2 ++ x3)) 7 5 = x3.extractLsb' 7 5
    ∧ fld (pack sc op (x0 ++ x1 ++ x2 ++ x3)) 4 8 = x3.extractLsb' 4 8
    ∧ fld (pack sc op (x0 ++ x1 ++ x2 ++ x3)) 0 7 = x3.extractLsb' 0 7
    ∧ fld (pack sc op (x0 ++ x1 ++ x2 ++ x3)) 0 4 = x3.extractLsb' 0 4 :=
  ⟨(fld_lo _ _ _ _ _ (by decide)).trans ((ext_hi (x0 ++ x1 ++ x2) x3 17 5 (by decide)).trans ((ext_hi (x0 ++ x1) x2 5 5 (by decide)).trans ((ext_hi (x0) x1 2 5 (by decide)).trans (ext_all _))))
    , (fld_lo _ _ _ _ _ (by decide)).trans ((ext_hi (x0 ++ x1 ++ x2) x3 15 2 (by decide)).trans ((ext_hi (x0 ++ x1) x2 3 2 (by decide)).trans ((ext_lo (x0) x1 0 2 (by decide)).trans (ext_all _))))
    , (fld_lo _ _ _ _ _ (by decide)).trans ((ext_hi (x0 ++ x1 ++ x2) x3 12 3 (by decide)).trans ((ext_lo (x0 ++ x1) x2 0 3 (by decide)).trans (ext_all _)))
    , (fld_lo _ _ _ _ _ (by decide)).trans ((ext_lo (x0 ++ x1 ++ x2) x3 7 5 (by decide)).trans (rfl))
    , (fld_lo _ _ _ _ _ (by decide)).trans ((ext_lo (x0 ++ x1 ++ x2) x3 4 8 (by decide)).trans (rfl))
    , (fld_lo _ _ _ _ _ (by decide)).trans ((ext_lo (x0 ++ x1 ++ x2) x3 0 7 (by decide)).trans (rfl))
    , (fld_lo _ _ _ _ _ (by decide)).trans ((ext_lo (x0 ++ x1 ++ x2) x3 0 4 (by decide)).trans (rfl))⟩

theorem shape30 (sc : BitVec 3) (op : BitVec 7) (x0 : BitVec 2) (x1 : BitVec 3) (x2 : BitVec 5) (x3 : BitVec 12) :
    fld (pack sc op (x0 ++ x1 ++ x2 ++ x3)) 20 2 = x0
    ∧ fld (pack sc op (x0 ++ x1 ++ x2 ++ x3)) 17 3 = x1
    ∧ fld (pack sc op (x0 ++ x1 ++ x2 ++ x3)) 12 5 = x2
    ∧ fld (pack sc op (x0 ++ x1 ++ x2 ++ x3)) 7 5 = x3.extractLsb' 7 5
    ∧ fld (pack sc op (x0 ++ x1 ++ x2 ++ x3)) 4 8 = x3.extractLsb' 4 8
    ∧ fld (pack sc op (x0 ++ x1 ++ x2 ++ x3)) 0 7 = x3.extractLsb' 0 7
    ∧ fld (pack sc op (x0 ++ x1 ++ x2 ++ x3)) 0 4 = x3.extractLsb' 0 4 :=
  ⟨(fld_lo _ _ _ _ _ (by decide)).trans ((ext_hi (x0 ++ x1 ++ x2) x3 20 2 (by decide)).trans ((ext_hi (x0 ++ x1) x2 8 2 (by decide)).trans ((ext_hi (x0) x1 3 2 (by decide)).trans (ext_all _))))
    , (fld_lo _ _ _ _ _ (by decide)).trans ((ext_hi (x0 ++ x1 ++ x2) x3 17 3 (by decide)).trans ((ext_hi (x0 ++ x1) x2 5 3 (by decide)).trans ((ext_lo (x0) x1 0 3 (by decide)).trans (ext_all _))))
    , (fld_lo _ _ _ _ _ (by decide)).trans ((ext_hi (x0 ++ x1 ++ x2) x3 12 5 (by decide)).trans ((ext_lo (x0 ++ x1) x2 0 5 (by decide)).trans (ext_all _)))
    , (fld_lo _ _ _ _ _ (by decide)).trans ((ext_lo (x0 ++ x1 ++ x2) x3 7 5 (by decide)).trans (rfl))
    , (fld_lo _ _ _ _ _ (by decide)).trans ((ext_lo (x0 ++ x1 ++ x2) x3 4 8 (by decide)).trans (rfl))
    , (fld_lo _ _ _ _ _ (by decide)).trans ((ext_lo (x0 ++ x1 ++ x2) x3 0 7 (by decide)).trans (rfl))
    , (fld_lo _ _ _ _ _ (by decide)).trans ((ext_lo (x0 ++ x1 ++ x2) x3 0 4 (by decide)).trans (rfl))⟩

theorem shape31 (sc : BitVec 3) (op : BitVec 7) (x0 : BitVec 5) (x1 : BitVec 5) (x2 : BitVec 8) (x3 : BitVec 4) :
    fld (pack sc op (x0 ++ x1 ++ x2 ++ x3)) 17 5 = x0
    ∧ fld (pack sc op (x0 ++ x1 ++ x2 ++ x3)) 12 5 = x1
    ∧ fld (pack sc op (x0 ++ x1 ++ x2 ++ x3)) 4 8 = x2
    ∧ fld (pack sc op (x0 ++ x1 ++ x2 ++ x3)) 0 4 = x3 :=
  ⟨(fld_lo _ _ _ _ _ (by decide)).trans ((ext_hi (x0 ++ x1 ++ x2) x3 17 5 (by decide)).trans ((ext_hi (x0 ++ x1) x2 13 5 (by decide)).trans ((ext_hi (x0) x1 5 5 (by decide)).trans (ext_all _))))
    , (fld_lo _ _ _ _ _ (by decide)).trans ((ext_hi (x0 ++ x1 ++ x2) x3 12 5 (by decide)).trans ((ext_hi (x0 ++ x1) x2 8 5 (by decide)).trans ((ext_lo (x0) x1 0 5 (by decide)).trans (ext_all _))))
    , (fld_lo _ _ _ _ _ (by decide)).trans ((ext_hi (x0 ++ x1 ++ x2) x3 4 8 (by decide)).trans ((ext_lo (x0 ++ x1) x2 0 8 (by decide)).trans (ext_all _)))
    , (fld_lo _ _ _ _ _ (by decide)).trans ((ext_lo (x0 ++ x1 ++ x2) x3 0 4 (by decide)).trans (ext_all _))⟩

theorem shape32 (sc : BitVec 3) (op : BitVec 7) (x0 : BitVec 2) (x1 : BitVec 3) (x2 : BitVec 3) (x3 : BitVec 5) (x4 : BitVec 1) (x5 : BitVec 8) :
    fld (pack sc op (x0 ++ x1 ++ x2 ++ x3 ++ x4 ++ x5)) 20 2 = x0
    ∧ fld (pack sc op (x0 ++ x1 ++ x2 ++ x3 ++ x4 ++ x5)) 17 3 = x1
    ∧ fld (pack sc op (x0 ++ x1 ++ x2 ++ x3 ++ x4 ++ x5)) 14 3 = x2
    ∧ fld (pack sc op (x0 ++ x1 ++ x2 ++ x3 ++ x4 ++ x5)) 9 5 = x3
    ∧ fld (pack sc op (x0 ++ x1 ++ x2 ++ x3 ++ x4 ++ x5)) 8 1 = x4
    ∧ fld (pack sc op (x0 ++ x1 ++ x2 ++ x3 ++ x4 ++ x5)) 0 8 = x5 :=
  ⟨(fld_lo _ _ _ _ _ (by decide)).trans ((ext_hi (x0 ++ x1 ++ x2 ++ x3 ++ x4) x5 20 2 (by decide)).trans ((ext_hi (x0 ++ x1 ++ x2 ++ x3) x4 12 2 (by decide)).trans ((ext_hi (x0 ++ x1 ++ x2) x3 11 2 (by decide)).trans ((ext_hi (x0 ++ x1) x2 6 2 (by decide)).trans ((ext_hi (x0) x1 3 2 (by decide)).trans (ext_all _))))))
    , (fld_lo _ _ _ _ _ (by decide)).trans ((ext_hi (x0 ++ x1 ++ x2 ++ x3 ++ x4) x5 17 3 (by decide)).trans ((ext_hi (x0 ++ x1 ++ x2 ++ x3) x4 9 3 (by decide)).trans ((ext_hi (x0 ++ x1 ++ x2) x3 8 3 (by decide)).trans ((ext_hi (x0 ++ x1) x2 3 3 (by decide)).trans ((ext_lo (x0) x1 0 3 (by decide)).trans (ext_all _))))))
    , (fld_lo _ _ _ _ _ (by decide)).trans ((ext_hi (x0 ++ x1 ++ x2 ++ x3 ++ x4) x5 14 3 (by decide)).trans ((ext_hi (x0 ++ x1 ++ x2 ++ x3) x4 6 3 (by decide)).trans ((ext_hi (x0 ++ x1 ++ x2) x3 5 3 (by decide)).trans ((ext_lo (x0 ++ x1) x2 0 3 (by decide)).trans (ext_all _)))))
    , (fld_lo _ _ _ _ _ (by decide)).trans ((ext_hi (x0 ++ x1 ++ x2 ++ x3 ++ x4) x5 9 5 (by decide)).trans ((ext_hi (x0 ++ x1 ++ x2 ++ x3) x4 1 5 (by decide)).trans ((ext_lo (x0 ++ x1 ++ x2) x3 0 5 (by decide)).trans (ext_all _))))
    , (fld_lo _ _ _ _ _ (by decide)).trans ((ext_hi (x0 ++ x1 ++ x2 ++ x3 ++ x4) x5 8 1 (by decide)).trans ((ext_lo (x0 ++ x1 ++ x2 ++ x3) x4 0 1 (by decide)).trans (ext_all _)))
    , (fld_lo _ _ _ _ _ (by decide)).trans ((ext_lo (x0 ++ x1 ++ x2 ++ x3 ++ x4) x5 0 8 (by decide)).trans (ext_all _))⟩

theorem shape33 (sc : BitVec 3) (op : BitVec 7) (x0 : BitVec 2) (x1 : BitVec 3) (x2 : BitVec 3) (x3 : BitVec 5) (x4 : BitVec 1) (x5 : BitVec 8) :
    fld (pack sc op (x0 ++ x1 ++ x2 ++ x3 ++ x4 ++ x5)) 20 2 = x0
    ∧ fld (pack sc op (x0 ++ x1 ++ x2 ++ x3 ++ x4 ++ x5)) 17 3 = x1
    ∧ fld (pack sc op (x0 ++ x1 ++ x2 ++ x3 ++ x4 ++ x5)) 14 3 = x2
    ∧ fld (pack sc op (x0 ++ x1 ++ x2 ++ x3 ++ x4 ++ x5)) 9 5 = x3
    ∧ fld (pack sc op (x0 ++ x1 ++ x2 ++ x3 ++ x4 ++ x5)) 8 1 = x4
    ∧ fld (pack sc op (x0 ++ x1 ++ x2 ++ x3 ++ x4 ++ x5)) 0 8 = x5 :=
  ⟨(fld_lo _ _ _ _ _ (by decide)).trans ((ext_hi (x0 ++ x1 ++ x2 ++ x3 ++ x4) x5 20 2 (by decide)).trans ((ext_hi (x0 ++ x1 ++ x2 ++ x3) x4 12 2 (by decide)).trans ((ext_hi (x0 ++ x1 ++ x2) x3 11 2 (by decide)).trans ((ext_hi (x0 ++ x1) x2 6 2 (by decide)).trans ((ext_hi (x0) x1 3 2 (by decide)).trans (ext_all _))))))
    , (fld_lo _ _ _ _ _ (by decide)).trans ((ext_hi (x0 ++ x1 ++ x2 ++ x3 ++ x4) x5 17 3 (by decide)).trans ((ext_hi (x0 ++ x1 ++ x2 ++ x3) x4 9 3 (by decide)).trans ((ext_hi (x0 ++ x1 ++ x2) x3 8 3 (by decide)).trans ((ext_hi (x0 ++ x1) x2 3 3 (by decide)).trans ((ext_lo (x0) x1 0 3 (by decide)).trans (ext_all _))))))
    , (fld_lo _ _ _ _ _ (by decide)).trans ((ext_hi (x0 ++ x1 ++ x2 ++ x3 ++ x4) x5 14 3 (by decide)).trans ((ext_hi (x0 ++ x1 ++ x2 ++ x3) x4 6 3 (by decide)).trans ((ext_hi (x0 ++ x1 ++ x2) x3 5 3 (by decide)).trans ((ext_lo (x0 ++ x1) x2 0 3 (by decide)).trans (ext_all _)))))
    , (fld_lo _ _ _ _ _ (by decide)).trans ((ext_hi (x0 ++ x1 ++ x2 ++ x3 ++ x4) x5 9 5 (by decide)).trans ((ext_hi (x0 ++ x1 ++ x2 ++ x3) x4 1 5 (by decide)).trans ((ext_lo (x0 ++ x1 ++ x2) x3 0 5 (by decide)).trans (ext_all _))))
    , (fld_lo _ _ _ _ _ (by decide)).trans ((ext_hi (x0 ++ x1 ++ x2 ++ x3 ++ x4) x5 8 1 (by decide)).trans ((ext_lo (x0 ++ x1 ++ x2 ++ x3) x4 0 1 (by decide)).trans (ext_all _)))
    , (fld_lo _ _ _ _ _ (by decide)).trans ((ext_lo (x0 ++ x1 ++ x2 ++ x3 ++ x4) x5 0 8 (by decide)).trans (ext_all _))⟩

theorem shape34 (sc : BitVec 3) (op : BitVec 7) (x0 : BitVec 3) (x1 : BitVec 2) (x2 : BitVec 17) :
    fld (pack sc op (x0 ++ x1 ++ x2)) 19 3 = x0
    ∧ fld (pack sc op (x0 ++ x1 ++ x2)) 17 2 = x1
    ∧ fld (pack sc op (x0 ++ x1 ++ x2)) 7 10 = x2.extractLsb' 7 10
    ∧ fld (pack sc op (x0 ++ x1 ++ x2)) 0 7 = x2.extractLsb' 0 7 :=
  ⟨(fld_lo _ _ _ _ _ (by decide)).trans ((ext_hi (x0 ++ x1) x2 19 3 (by decide)).trans ((ext_hi (x0) x1 2 3 (by decide)).trans (ext_all _)))
    , (fld_lo _ _ _ _ _ (by decide)).trans ((ext_hi (x0 ++ x1) x2 17 2 (by decide)).trans ((ext_lo (x0) x1 0 2 (by decide)).trans (ext_all _)))
    , (fld_lo _ _ _ _ _ (by decide)).trans ((ext_lo (x0 ++ x1) x2 7 10 (by decide)).trans (rfl))
    , (fld_lo _ _ _ _ _ (by decide)).trans ((ext_lo (x0 ++ x1) x2 0 7 (by decide)).trans (rfl))⟩

theorem shape35 (sc : BitVec 3) (op : BitVec 7) (x0 : BitVec 3) (x1 : BitVec 2) (x2 : BitVec 5) (x3 : BitVec 5) (x4 : BitVec 7) :
    fld (pack sc op (x0 ++ x1 ++ x2 ++ x3 ++ x4)) 19 3 = x0
    ∧ fld (pack sc op (x0 ++ x1 ++ x2 ++ x3 ++ x4)) 17 2 = x1
    ∧ fld (pack sc op (x0 ++ x1 ++ x2 ++ x3 ++ x4)) 12 5 = x2
    ∧ fld (pack sc op (x0 ++ x1 ++ x2 ++ x3 ++ x4)) 7 5 = x3
    ∧ fld (pack sc op (x0 ++ x1 ++ x2 ++ x3 ++ x4)) 0 7 = x4 :=
  ⟨(fld_lo _ _ _ _ _ (by decide)).trans ((ext_hi (x0 ++ x1 ++ x2 ++ x3) x4 19 3 (by decide)).trans ((ext_hi (x0 ++ x1 ++ x2) x3 12 3 (by decide)).trans ((ext_hi (x0 ++ x1) x2 7 3 (by decide)).trans ((ext_hi (x0) x1 2 3 (by decide)).trans (ext_all _)))))
    , (fld_lo _ _ _ _ _ (by decide)).trans ((ext_hi (x0 ++ x1 ++ x2 ++ x3) x4 17 2 (by decide)).trans ((ext_hi (x0 ++ x1 ++ x2) x3 10 2 (by decide)).trans ((ext_hi (x0 ++ x1) x2 5 2 (by decide)).trans ((ext_lo (x0) x1 0 2 (by decide)).trans (ext_all _)))))
    , (fld_lo _ _ _ _ _ (by decide)).trans ((ext_hi (x0 ++ x1 ++ x2 ++ x3) x4 12 5 (by decide)).trans ((ext_hi (x0 ++ x1 ++ x2) x3 5 5 (by decide)).trans ((ext_lo (x0 ++ x1) x2 0 5 (by decide)).trans (ext_all _))))
    , (fld_lo _ _ _ _ _ (by decide)).trans ((ext_hi (x0 ++ x1 ++ x2 ++ x3) x4 7 5 (by decide)).trans ((ext_lo (x0 ++ x1 ++ x2) x3 0 5 (by decide)).trans (ext_all _)))
    , (fld_lo _ _ _ _ _ (by decide)).trans ((ext_lo (x0 ++ x1 ++ x2 ++ x3) x4 0 7 (by decide)).trans (ext_all _))⟩

theorem shape36 (sc : BitVec 3) (op : BitVec 7) (x0 : BitVec 2) (x1 : BitVec 3) (x2 : BitVec 3) (x3 : BitVec 2) (x4 : BitVec 1) (x5 : BitVec 4) (x6 : BitVec 7) :
    fld (pack sc op (x0 ++ x1 ++ x2 ++ x3 ++ x4 ++ x5 ++ x6)) 20 2 = x0
    ∧ fld (pack sc op (x0 ++ x1 ++ x2 ++ x3 ++ x4 ++ x5 ++ x6)) 17 3 = x1
    ∧ fld (pack sc op (x0 ++ x1 ++ x2 ++ x3 ++ x4 ++ x5 ++ x6)) 14 3 = x2
    ∧ fld (pack sc op (x0 ++ x1 ++ x2 ++ x3 ++ x4 ++ x5 ++ x6)) 12 2 = x3
    ∧ fld (pack sc op (x0 ++ x1 ++ x2 ++ x3 ++ x4 ++ x5 ++ x6)) 11 1 = x4
    ∧ fld (pack sc op (x0 ++ x1 ++ x2 ++ x3 ++ x4 ++ x5 ++ x6)) 7 4 = x5
    ∧ fld (pack sc op (x0 ++ x1 ++ x2 ++ x3 ++ x4 ++ x5 ++ x6)) 0 7 = x6 :=
  ⟨(fld_lo _ _ _ _ _ (by decide)).trans ((ext_hi (x0 ++ x1 ++ x2 ++ x3 ++ x4 ++ x5) x6 20 2 (by decide)).trans ((ext_hi (x0 ++ x1 ++ x2 ++ x3 ++ x4) x5 13 2 (by decide)).trans ((ext_hi (x0 ++ x1 ++ x2 ++ x3) x4 9 2 (by decide)).trans ((ext_hi (x0 ++ x1 ++ x2) x3 8 2 (by decide)).trans ((ext_hi (x0 ++ x1) x2 6 2 (by decide)).trans ((ext_hi (x0) x1 3 2 (by decide)).trans (ext_all _)))))))
    , (fld_lo _ _ _ _ _ (by decide)).trans ((ext_hi (x0 ++ x1 ++ x2 ++ x3 ++ x4 ++ x5) x6 17 3 (by decide)).trans ((ext_hi (x0 ++ x1 ++ x2 ++ x3 ++ x4) x5 10 3 (by decide)).trans ((ext_hi (x0 ++ x1 ++ x2 ++ x3) x4 6 3 (by decide)).trans ((ext_hi (x0 ++ x1 ++ x2) x3 5 3 (by decide)).trans ((ext_hi (x0 ++ x1) x2 3 3 (by decide)).trans ((ext_lo (x0) x1 0 3 (by decide)).trans (ext_all _)))))))
    , (fld_lo _ _ _ _ _ (by decide)).trans ((ext_hi (x0 ++ x1 ++ x2 ++ x3 ++ x4 ++ x5) x6 14 3 (by decide)).trans ((ext_hi (x0 ++ x1 ++ x2 ++ x3 ++ x4) x5 7 3 (by decide)).trans ((ext_hi (x0 ++ x1 ++ x2 ++ x3) x4 3 3 (by decide)).trans ((ext_hi (x0 ++ x1 ++ x2) x3 2 3 (by decide)).trans ((ext_lo (x0 ++ x1) x2 0 3 (by decide)).trans (ext_all _))))))
    , (fld_lo _ _ _ _ _ (by decide)).trans ((ext_hi (x0 ++ x1 ++ x2 ++ x3 ++ x4 ++ x5) x6 12 2 (by decide)).trans ((ext_hi (x0 ++ x1 ++ x2 ++ x3 ++ x4) x5 5 2 (by decide)).trans ((ext_hi (x0 ++ x1 ++ x2 ++ x3) x4 1 2 (by decide)).trans ((ext_lo (x0 ++ x1 ++ x2) x3 0 2 (by decide)).trans (ext_all _)))))
    , (fld_lo _ _ _ _ _ (by decide)).trans ((ext_hi (x0 ++ x1 ++ x2 ++ x3 ++ x4 ++ x5) x6 11 1 (by decide)).trans ((ext_hi (x0 ++ x1 ++ x2 ++ x3 ++ x4) x5 4 1 (by decide)).trans ((ext_lo (x0 ++ x1 ++ x2 ++ x3) x4 0 1 (by decide)).trans (ext_all _))))
    , (fld_lo _ _ _ _ _ (by decide)).trans ((ext_hi (x0 ++ x1 ++ x2 ++ x3 ++ x4 ++ x5) x6 7 4 (by decide)).trans ((ext_lo (x0 ++ x1 ++ x2 ++ x3 ++ x4) x5 0 4 (by decide)).trans (ext_all _)))
    , (fld_lo _ _ _ _ _ (by decide)).trans ((ext_lo (x0 ++ x1 ++ x2 ++ x3 ++ x4 ++ x5) x6 0 7 (by decide)).trans (ext_all _))⟩

theorem shape37 (sc : BitVec 3) (op : BitVec 7) (x0 : BitVec 3) (x1 : BitVec 2) (x2 : BitVec 2) (x3 : BitVec 3) (x4 : BitVec 1) (x5 : BitVec 4) (x6 : BitVec 7) :
    fld (pack sc op (x0 ++ x1 ++ x2 ++ x3 ++ x4 ++ x5 ++ x6)) 19 3 = x0
    ∧ fld (pack sc op (x0 ++ x1 ++ x2 ++ x3 ++ x4 ++ x5 ++ x6)) 17 2 = x1
    ∧ fld (pack sc op (x0 ++ x1 ++ x2 ++ x3 ++ x4 ++ x5 ++ x6)) 15 2 = x2
    ∧ fld (pack sc op (x0 ++ x1 ++ x2 ++ x3 ++ x4 ++ x5 ++ x6)) 12 3 = x3
    ∧ fld (pack sc op (x0 ++ x1 ++ x2 ++ x3 ++ x4 ++ x5 ++ x6)) 11 1 = x4
    ∧ fld (pack sc op (x0 ++ x1 ++ x2 ++ x3 ++ x4 ++ x5 ++ x6)) 7 4 = x5
    ∧ fld (pack sc op (x0 ++ x1 ++ x2 ++ x3 ++ x4 ++ x5 ++ x6)) 0 7 = x6 :=
  ⟨(fld_lo _ _ _ _ _ (by decide)).trans ((ext_hi (x0 ++ x1 ++ x2 ++ x3 ++ x4 ++ x5) x6 19 3 (by decide)).trans ((ext_hi (x0 ++ x1 ++ x2 ++ x3 ++ x4) x5 12 3 (by decide)).trans ((ext_hi (x0 ++ x1 ++ x2 ++ x3) x4 8 3 (by decide)).trans ((ext_hi (x0 ++ x1 ++ x2) x3 7 3 (by decide)).trans ((ext_hi (x0 ++ x1) x2 4 3 (by decide)).trans ((ext_hi (x0) x1 2 3 (by decide)).trans (ext_all _)))))))
    , (fld_lo _ _ _ _ _ (by decide)).trans ((ext_hi (x0 ++ x1 ++ x2 ++ x3 ++ x4 ++ x5) x6 17 2 (by decide)).trans ((ext_hi (x0 ++ x1 ++ x2 ++ x3 ++ x4) x5 10 2 (by decide)).trans ((ext_hi (x0 ++ x1 ++ x2 ++ x3) x4 6 2 (by decide)).trans ((ext_hi (x0 ++ x1 ++ x2) x3 5 2 (by decide)).trans ((ext_hi (x0 ++ x1) x2 2 2 (by decide)).trans ((ext_lo (x0) x1 0 2 (by decide)).trans (ext_all _)))))))
    , (fld_lo _ _ _ _ _ (by decide)).trans ((ext_hi (x0 ++ x1 ++ x2 ++ x3 ++ x4 ++ x5) x6 15 2 (by decide)).trans ((ext_hi (x0 ++ x1 ++ x2 ++ x3 ++ x4) x5 8 2 (by decide)).trans ((ext_hi (x0 ++ x1 ++ x2 ++ x3) x4 4 2 (by decide)).trans ((ext_hi (x0 ++ x1 ++ x2) x3 3 2 (by decide)).trans ((ext_lo (x0 ++ x1) x2 0 2 (by decide)).trans (ext_all _))))))
    , (fld_lo _ _ _ _ _ (by decide)).trans ((ext_hi (x0 ++ x1 ++ x2 ++ x3 ++ x4 ++ x5) x6 12 3 (by decide)).trans ((ext_hi (x0 ++ x1 ++ x2 ++ x3 ++ x4) x5 5 3 (by decide)).trans ((ext_hi (x0 ++ x1 ++ x2 ++ x3) x4 1 3 (by decide)).trans ((ext_lo (x0 ++ x1 ++ x2) x3 0 3 (by decide)).trans (ext_all _)))))
    , (fld_lo _ _ _ _ _ (by decide)).trans ((ext_hi (x0 ++ x1 ++ x2 ++ x3 ++ x4 ++ x5) x6 11 1 (by decide)).trans ((ext_hi (x0 ++ x1 ++ x2 ++ x3 ++ x4) x5 4 1 (by decide)).trans ((ext_lo (x0 ++ x1 ++ x2 ++ x3) x4 0 1 (by decide)).trans (ext_all _))))
    , (fld_lo _ _ _ _ _ (by decide)).trans ((ext_hi (x0 ++ x1 ++ x2 ++ x3 ++ x4 ++ x5) x6 7 4 (by decide)).trans ((ext_lo (x0 ++ x1 ++ x2 ++ x3 ++ x4) x5 0 4 (by decide)).trans (ext_all _)))
    , (fld_lo _ _ _ _ _ (by decide)).trans ((ext_lo (x0 ++ x1 ++ x2 ++ x3 ++ x4 ++ x5) x6 0 7 (by decide)).trans (ext_all _))⟩

theorem shape38 (sc : BitVec 3) (op : BitVec 7) (x0 : BitVec 7) (x1 : BitVec 3) (x2 : BitVec 12) :
    fld (pack sc op (x0 ++ x1 ++ x2)) 15 7 = x0
    ∧ fld (pack sc op (x0 ++ x1 ++ x2)) 12 3 = x1
    ∧ fld (pack sc op (x0 ++ x1 ++ x2)) 7 5 = x2.extractLsb' 7 5
    ∧ fld (pack sc op (x0 ++ x1 ++ x2)) 0 7 = x2.extractLsb' 0 7 :=
  ⟨(fld_lo _ _ _ _ _ (by decide)).trans ((ext_hi (x0 ++ x1) x2 15 7 (by decide)).trans ((ext_hi (x0) x1 3 7 (by decide)).trans (ext_all _)))
    , (fld_lo _ _ _ _ _ (by decide)).trans ((ext_hi (x0 ++ x1) x2 12 3 (by decide)).trans ((ext_lo (x0) x1 0 3 (by decide)).trans (ext_all _)))
    , (fld_lo _ _ _ _ _ (by decide)).trans ((ext_lo (x0 ++ x1) x2 7 5 (by decide)).trans (rfl))
    , (fld_lo _ _ _ _ _ (by decide)).trans ((ext_lo (x0 ++ x1) x2 0 7 (by decide)).trans (rfl))⟩

theorem shape39 (sc : BitVec 3) (op : BitVec 7) (x0 : BitVec 2) (x1 : BitVec 3) (x2 : BitVec 5) (x3 : BitVec 5) (x4 : BitVec 7) :
    fld (pack sc op (x0 ++ x1 ++ x2 ++ x3 ++ x4)) 20 2 = x0
    ∧ fld (pack sc op (x0 ++ x1 ++ x2 ++ x3 ++ x4)) 17 3 = x1
    ∧ fld (pack sc op (x0 ++ x1 ++ x2 ++ x3 ++ x4)) 12 5 = x2
    ∧ fld (pack sc op (x0 ++ x1 ++ x2 ++ x3 ++ x4)) 7 5 = x3
    ∧ fld (pack sc op (x0 ++ x1 ++ x2 ++ x3 ++ x4)) 0 7 = x4 :=
  ⟨(fld_lo _ _ _ _ _ (by decide)).trans ((ext_hi (x0 ++ x1 ++ x2 ++ x3) x4 20 2 (by decide)).trans ((ext_hi (x0 ++ x1 ++ x2) x3 13 2 (by decide)).trans ((ext_hi (x0 ++ x1) x2 8 2 (by decide)).trans ((ext_hi (x0) x1 3 2 (by decide)).trans (ext_all _)))))
    , (fld_lo _ _ _ _ _ (by decide)).trans ((ext_hi (x0 ++ x1 ++ x2 ++ x3) x4 17 3 (by decide)).trans ((ext_hi (x0 ++ x1 ++ x2) x3 10 3 (by decide)).trans ((ext_hi (x0 ++ x1) x2 5 3 (by decide)).trans ((ext_lo (x0) x1 0 3 (by decide)).trans (ext_all _)))))
    , (fld_lo _ _ _ _ _ (by decide)).trans ((ext_hi (x0 ++ x1 ++ x2 ++ x3) x4 12 5 (by decide)).trans ((ext_hi (x0 ++ x1 ++ x2) x3 5 5 (by decide)).trans ((ext_lo (x0 ++ x1) x2 0 5 (by decide)).trans (ext_all _))))
    , (fld_lo _ _ _ _ _ (by decide)).trans ((ext_hi (x0 ++ x1 ++ x2 ++ x3) x4 7 5 (by decide)).trans ((ext_lo (x0 ++ x1 ++ x2) x3 0 5 (by decide)).trans (ext_all _)))
    , (fld_lo _ _ _ _ _ (by decide)).trans ((ext_lo (x0 ++ x1 ++ x2 ++ x3) x4 0 7 (by decide)).trans (ext_all _))⟩

theorem shape40 (sc : BitVec 3) (op : BitVec 7) (x0 : BitVec 5) (x1 : BitVec 2) (x2 : BitVec 3) (x3 : BitVec 5) (x4 : BitVec 7) :
    fld (pack sc op (x0 ++ x1 ++ x2 ++ x3 ++ x4)) 17 5 = x0
    ∧ fld (pack sc op (x0 ++ x1 ++ x2 ++ x3 ++ x4)) 15 2 = x1
    ∧ fld (pack sc op (x0 ++ x1 ++ x2 ++ x3 ++ x4)) 12 3 = x2
    ∧ fld (pack sc op (x0 ++ x1 ++ x2 ++ x3 ++ x4)) 7 5 = x3
    ∧ fld (pack sc op (x0 ++ x1 ++ x2 ++ x3 ++ x4)) 0 7 = x4 :=
  ⟨(fld_lo _ _ _ _ _ (by decide)).trans ((ext_hi (x0 ++ x1 ++ x2 ++ x3) x4 17 5 (by decide)).trans ((ext_hi (x0 ++ x1 ++ x2) x3 10 5 (by decide)).trans ((ext_hi (x0 ++ x1) x2 5 5 (by decide)).trans ((ext_hi (x0) x1 2 5 (by decide)).trans (ext_all _)))))
    , (fld_lo _ _ _ _ _ (by decide)).trans ((ext_hi (x0 ++ x1 ++ x2 ++ x3) x4 15 2 (by decide)).trans ((ext_hi (x0 ++ x1 ++ x2) x3 8 2 (by decide)).trans ((ext_hi (x0 ++ x1) x2 3 2 (by decide)).trans ((ext_lo (x0) x1 0 2 (by decide)).trans (ext_all _)))))
    , (fld_lo _ _ _ _ _ (by decide)).trans ((ext_hi (x0 ++ x1 ++ x2 ++ x3) x4 12 3 (by decide)).trans ((ext_hi (x0 ++ x1 ++ x2) x3 5 3 (by decide)).trans ((ext_lo (x0 ++ x1) x2 0 3 (by decide)).trans (ext_all _))))
    , (fld_lo _ _ _ _ _ (by decide)).trans ((ext_hi (x0 ++ x1 ++ x2 ++ x3) x4 7 5 (by decide)).trans ((ext_lo (x0 ++ x1 ++ x2) x3 0 5 (by decide)).trans (ext_all _)))
    , (fld_lo _ _ _ _ _ (by decide)).trans ((ext_lo (x0 ++ x1 ++ x2 ++ x3) x4 0 7 (by decide)).trans (ext_all _))⟩

end Sys2Proof.Laws
end

