-- ==== Sys2Proof/Laws/Exec.lean ====
section
/-! SUPPORT. What exec calls for each instruction, so that no proof unfolds the whole match. -/

namespace Sys2Proof.Machine

theorem exec_add (s) (sc d a b) : exec (.add sc d a b) s = execAdd sc d a b s := rfl
theorem exec_sub (s) (sc d a b) : exec (.sub sc d a b) s = execSub sc d a b s := rfl
theorem exec_and (s) (sc d a b) : exec (.and sc d a b) s = execAnd sc d a b s := rfl
theorem exec_or (s) (sc d a b) : exec (.or sc d a b) s = execOr sc d a b s := rfl
theorem exec_xor (s) (sc d a b) : exec (.xor sc d a b) s = execXor sc d a b s := rfl
theorem exec_andn (s) (sc d a b) : exec (.andn sc d a b) s = execAndn sc d a b s := rfl
theorem exec_orn (s) (sc d a b) : exec (.orn sc d a b) s = execOrn sc d a b s := rfl
theorem exec_sll (s) (sc d a b) : exec (.sll sc d a b) s = execSll sc d a b s := rfl
theorem exec_srl (s) (sc d a b) : exec (.srl sc d a b) s = execSrl sc d a b s := rfl
theorem exec_sra (s) (sc d a b) : exec (.sra sc d a b) s = execSra sc d a b s := rfl
theorem exec_rol (s) (sc d a b) : exec (.rol sc d a b) s = execRol sc d a b s := rfl
theorem exec_ror (s) (sc d a b) : exec (.ror sc d a b) s = execRor sc d a b s := rfl
theorem exec_slt (s) (sc d a b) : exec (.slt sc d a b) s = execSlt sc d a b s := rfl
theorem exec_sltu (s) (sc d a b) : exec (.sltu sc d a b) s = execSltu sc d a b s := rfl
theorem exec_seq (s) (sc d a b) : exec (.seq sc d a b) s = execSeq sc d a b s := rfl
theorem exec_sne (s) (sc d a b) : exec (.sne sc d a b) s = execSne sc d a b s := rfl
theorem exec_min (s) (sc d a b) : exec (.min sc d a b) s = execMin sc d a b s := rfl
theorem exec_max (s) (sc d a b) : exec (.max sc d a b) s = execMax sc d a b s := rfl
theorem exec_minu (s) (sc d a b) : exec (.minu sc d a b) s = execMinu sc d a b s := rfl
theorem exec_maxu (s) (sc d a b) : exec (.maxu sc d a b) s = execMaxu sc d a b s := rfl
theorem exec_clz (s) (sc d a) : exec (.clz sc d a) s = execClz sc d a s := rfl
theorem exec_ctz (s) (sc d a) : exec (.ctz sc d a) s = execCtz sc d a s := rfl
theorem exec_popc (s) (sc d a) : exec (.popc sc d a) s = execPopc sc d a s := rfl
theorem exec_brev (s) (sc d a) : exec (.brev sc d a) s = execBrev sc d a s := rfl
theorem exec_sextb (s) (sc d a) : exec (.sextb sc d a) s = execSextb sc d a s := rfl
theorem exec_sexth (s) (sc d a) : exec (.sexth sc d a) s = execSexth sc d a s := rfl
theorem exec_sextw (s) (sc d a) : exec (.sextw sc d a) s = execSextw sc d a s := rfl
theorem exec_zextw (s) (sc d a) : exec (.zextw sc d a) s = execZextw sc d a s := rfl
theorem exec_addsh (s) (sc d a b h) : exec (.addsh sc d a b h) s = execAddsh sc d a b h s := rfl
theorem exec_addw (s) (sc d a b) : exec (.addw sc d a b) s = execAddw sc d a b s := rfl
theorem exec_subw (s) (sc d a b) : exec (.subw sc d a b) s = execSubw sc d a b s := rfl
theorem exec_sllw (s) (sc d a b) : exec (.sllw sc d a b) s = execSllw sc d a b s := rfl
theorem exec_srlw (s) (sc d a b) : exec (.srlw sc d a b) s = execSrlw sc d a b s := rfl
theorem exec_sraw (s) (sc d a b) : exec (.sraw sc d a b) s = execSraw sc d a b s := rfl
theorem exec_rolw (s) (sc d a b) : exec (.rolw sc d a b) s = execRolw sc d a b s := rfl
theorem exec_rorw (s) (sc d a b) : exec (.rorw sc d a b) s = execRorw sc d a b s := rfl
theorem exec_mul (s) (sc d a b) : exec (.mul sc d a b) s = execMul sc d a b s := rfl
theorem exec_mulhs (s) (sc d a b) : exec (.mulhs sc d a b) s = execMulhs sc d a b s := rfl
theorem exec_mulhz (s) (sc d a b) : exec (.mulhz sc d a b) s = execMulhz sc d a b s := rfl
theorem exec_mulhsz (s) (sc d a b) : exec (.mulhsz sc d a b) s = execMulhsz sc d a b s := rfl
theorem exec_div (s) (sc d a b) : exec (.div sc d a b) s = execDiv sc d a b s := rfl
theorem exec_divu (s) (sc d a b) : exec (.divu sc d a b) s = execDivu sc d a b s := rfl
theorem exec_rem (s) (sc d a b) : exec (.rem sc d a b) s = execRem sc d a b s := rfl
theorem exec_remu (s) (sc d a b) : exec (.remu sc d a b) s = execRemu sc d a b s := rfl
theorem exec_mulw (s) (sc d a b) : exec (.mulw sc d a b) s = execMulw sc d a b s := rfl
theorem exec_divw (s) (sc d a b) : exec (.divw sc d a b) s = execDivw sc d a b s := rfl
theorem exec_divuw (s) (sc d a b) : exec (.divuw sc d a b) s = execDivuw sc d a b s := rfl
theorem exec_remw (s) (sc d a b) : exec (.remw sc d a b) s = execRemw sc d a b s := rfl
theorem exec_remuw (s) (sc d a b) : exec (.remuw sc d a b) s = execRemuw sc d a b s := rfl
theorem exec_addi (s) (sc d a i) : exec (.addi sc d a i) s = execAddi sc d a i s := rfl
theorem exec_andi (s) (sc d a i) : exec (.andi sc d a i) s = execAndi sc d a i s := rfl
theorem exec_ori (s) (sc d a i) : exec (.ori sc d a i) s = execOri sc d a i s := rfl
theorem exec_xori (s) (sc d a i) : exec (.xori sc d a i) s = execXori sc d a i s := rfl
theorem exec_slti (s) (sc d a i) : exec (.slti sc d a i) s = execSlti sc d a i s := rfl
theorem exec_sltiu (s) (sc d a i) : exec (.sltiu sc d a i) s = execSltiu sc d a i s := rfl
theorem exec_addiw (s) (sc d a i) : exec (.addiw sc d a i) s = execAddiw sc d a i s := rfl
theorem exec_slli (s) (sc d a h) : exec (.slli sc d a h) s = execSlli sc d a h s := rfl
theorem exec_srli (s) (sc d a h) : exec (.srli sc d a h) s = execSrli sc d a h s := rfl
theorem exec_srai (s) (sc d a h) : exec (.srai sc d a h) s = execSrai sc d a h s := rfl
theorem exec_rori (s) (sc d a h) : exec (.rori sc d a h) s = execRori sc d a h s := rfl
theorem exec_slliw (s) (sc d a h) : exec (.slliw sc d a h) s = execSlliw sc d a h s := rfl
theorem exec_srliw (s) (sc d a h) : exec (.srliw sc d a h) s = execSrliw sc d a h s := rfl
theorem exec_sraiw (s) (sc d a h) : exec (.sraiw sc d a h) s = execSraiw sc d a h s := rfl
theorem exec_roriw (s) (sc d a h) : exec (.roriw sc d a h) s = execRoriw sc d a h s := rfl
theorem exec_lui (s) (sc d i) : exec (.lui sc d i) s = execLui sc d i s := rfl
theorem exec_auipc (s) (sc d i) : exec (.auipc sc d i) s = execAuipc sc d i s := rfl
theorem exec_liw (s) (sc d imm) : exec (.liw sc d imm) s = execLiw sc d imm s := rfl
theorem exec_beq (s) (sc a b o) : exec (.beq sc a b o) s = execBeq sc a b o s := rfl
theorem exec_bne (s) (sc a b o) : exec (.bne sc a b o) s = execBne sc a b o s := rfl
theorem exec_blt (s) (sc a b o) : exec (.blt sc a b o) s = execBlt sc a b o s := rfl
theorem exec_bge (s) (sc a b o) : exec (.bge sc a b o) s = execBge sc a b o s := rfl
theorem exec_bltu (s) (sc a b o) : exec (.bltu sc a b o) s = execBltu sc a b o s := rfl
theorem exec_bgeu (s) (sc a b o) : exec (.bgeu sc a b o) s = execBgeu sc a b o s := rfl
theorem exec_jal (s) (sc d o) : exec (.jal sc d o) s = execJal sc d o s := rfl
theorem exec_jalr (s) (sc d a i) : exec (.jalr sc d a i) s = execJalr sc d a i s := rfl
theorem exec_ldb (s) (sc d a i) : exec (.ldb sc d a i) s = execLdb sc d a i s := rfl
theorem exec_ldh (s) (sc d a i) : exec (.ldh sc d a i) s = execLdh sc d a i s := rfl
theorem exec_ldw (s) (sc d a i) : exec (.ldw sc d a i) s = execLdw sc d a i s := rfl
theorem exec_ldd (s) (sc d a i) : exec (.ldd sc d a i) s = execLdd sc d a i s := rfl
theorem exec_ldbz (s) (sc d a i) : exec (.ldbz sc d a i) s = execLdbz sc d a i s := rfl
theorem exec_ldhz (s) (sc d a i) : exec (.ldhz sc d a i) s = execLdhz sc d a i s := rfl
theorem exec_ldwz (s) (sc d a i) : exec (.ldwz sc d a i) s = execLdwz sc d a i s := rfl
theorem exec_stb (s) (sc t a i) : exec (.stb sc t a i) s = execStb sc t a i s := rfl
theorem exec_sth (s) (sc t a i) : exec (.sth sc t a i) s = execSth sc t a i s := rfl
theorem exec_stw (s) (sc t a i) : exec (.stw sc t a i) s = execStw sc t a i s := rfl
theorem exec_std (s) (sc t a i) : exec (.std sc t a i) s = execStd sc t a i s := rfl
theorem exec_fldw (s) (sc d a i) : exec (.fldw sc d a i) s = execFldw sc d a i s := rfl
theorem exec_fldd (s) (sc d a i) : exec (.fldd sc d a i) s = execFldd sc d a i s := rfl
theorem exec_fstw (s) (sc t a i) : exec (.fstw sc t a i) s = execFstw sc t a i s := rfl
theorem exec_fstd (s) (sc t a i) : exec (.fstd sc t a i) s = execFstd sc t a i s := rfl
theorem exec_ldAcq (s) (sc d a e z) : exec (.ldAcq sc d a e z) s = execLdAcq sc d a e z s := rfl
theorem exec_stRel (s) (sc a b e z) : exec (.stRel sc a b e z) s = execStRel sc a b e z s := rfl
theorem exec_setfull (s) (sc a) : exec (.setfull sc a) s = execSetfull sc a s := rfl
theorem exec_setempty (s) (sc a) : exec (.setempty sc a) s = execSetempty sc a s := rfl
theorem exec_ldtake (s) (sc d a) : exec (.ldtake sc d a) s = execLdtake sc d a s := rfl
theorem exec_stfill (s) (sc a b) : exec (.stfill sc a b) s = execStfill sc a b s := rfl
theorem exec_festat (s) (sc d a) : exec (.festat sc d a) s = execFestat sc d a s := rfl
theorem exec_amoadd (s) (sc d a b w) : exec (.amoadd sc d a b w) s = execAmoadd sc d a b w s := rfl
theorem exec_amomin (s) (sc d a b w) : exec (.amomin sc d a b w) s = execAmomin sc d a b w s := rfl
theorem exec_amomax (s) (sc d a b w) : exec (.amomax sc d a b w) s = execAmomax sc d a b w s := rfl
theorem exec_amoand (s) (sc d a b w) : exec (.amoand sc d a b w) s = execAmoand sc d a b w s := rfl
theorem exec_amoor (s) (sc d a b w) : exec (.amoor sc d a b w) s = execAmoor sc d a b w s := rfl
theorem exec_amoxor (s) (sc d a b w) : exec (.amoxor sc d a b w) s = execAmoxor sc d a b w s := rfl
theorem exec_amoswap (s) (sc d a b w) : exec (.amoswap sc d a b w) s = execAmoswap sc d a b w s := rfl
theorem exec_amocas (s) (sc d a b w) : exec (.amocas sc d a b w) s = execAmocas sc d a b w s := rfl
theorem exec_accF32 (s) (sc a b) : exec (.accF32 sc a b) s = execAccF32 sc a b s := rfl
theorem exec_accBf (s) (sc a b) : exec (.accBf sc a b) s = execAccBf sc a b s := rfl
theorem exec_accS32 (s) (sc a b) : exec (.accS32 sc a b) s = execAccS32 sc a b s := rfl
theorem exec_accS64 (s) (sc a b) : exec (.accS64 sc a b) s = execAccS64 sc a b s := rfl
theorem exec_flushres (s) (sc) : exec (.flushres sc) s = execFlushres sc s := rfl
theorem exec_tailstat (s) (sc d a) : exec (.tailstat sc d a) s = execTailstat sc d a s := rfl
theorem exec_csrrw (s) (sc d a c) : exec (.csrrw sc d a c) s = execCsrrw sc d a c s := rfl
theorem exec_csrrs (s) (sc d a c) : exec (.csrrs sc d a c) s = execCsrrs sc d a c s := rfl
theorem exec_csrrc (s) (sc d a c) : exec (.csrrc sc d a c) s = execCsrrc sc d a c s := rfl
theorem exec_csrrwi (s) (sc d i c) : exec (.csrrwi sc d i c) s = execCsrrwi sc d i c s := rfl
theorem exec_csrrsi (s) (sc d i c) : exec (.csrrsi sc d i c) s = execCsrrsi sc d i c s := rfl
theorem exec_csrrci (s) (sc d i c) : exec (.csrrci sc d i c) s = execCsrrci sc d i c s := rfl
theorem exec_ecall (s) (sc) : exec (.ecall sc) s = execEcall sc s := rfl
theorem exec_ebreak (s) (sc) : exec (.ebreak sc) s = execEbreak sc s := rfl
theorem exec_uret (s) (sc) : exec (.uret sc) s = execUret sc s := rfl
theorem exec_kret (s) (sc) : exec (.kret sc) s = execKret sc s := rfl
theorem exec_fret (s) (sc) : exec (.fret sc) s = execFret sc s := rfl
theorem exec_wfi (s) (sc) : exec (.wfi sc) s = execWfi sc s := rfl
theorem exec_fenceI (s) (sc) : exec (.fenceI sc) s = execFenceI sc s := rfl
theorem exec_tlbinv (s) (sc a b) : exec (.tlbinv sc a b) s = execTlbinv sc a b s := rfl
theorem exec_savept (s) (sc) : exec (.savept sc) s = execSavept sc s := rfl
theorem exec_ckpt (s) (sc) : exec (.ckpt sc) s = execCkpt sc s := rfl
theorem exec_tstamp (s) (sc d) : exec (.tstamp sc d) s = execTstamp sc d s := rfl
theorem exec_fence (s) (sc k e) : exec (.fence sc k e) s = execFence sc k e s := rfl
theorem exec_send (s) (sc d a b r u p) : exec (.send sc d a b r u p) s = execSend sc d a b r u p s := rfl
theorem exec_spawn (s) (sc a b) : exec (.spawn sc a b) s = execSpawn sc a b s := rfl
theorem exec_tend (s) (sc) : exec (.tend sc) s = execTend sc s := rfl
theorem exec_tendX (s) (sc) : exec (.tendX sc) s = execTendX sc s := rfl
theorem exec_tyield (s) (sc) : exec (.tyield sc) s = execTyield sc s := rfl
theorem exec_msgpeek (s) (sc d a) : exec (.msgpeek sc d a) s = execMsgpeek sc d a s := rfl
theorem exec_barinit (s) (sc a b) : exec (.barinit sc a b) s = execBarinit sc a b s := rfl
theorem exec_barjoin (s) (sc a) : exec (.barjoin sc a) s = execBarjoin sc a s := rfl
theorem exec_bararrive (s) (sc a) : exec (.bararrive sc a) s = execBararrive sc a s := rfl
theorem exec_barwait (s) (sc a) : exec (.barwait sc a) s = execBarwait sc a s := rfl
theorem exec_bardrop (s) (sc a) : exec (.bardrop sc a) s = execBardrop sc a s := rfl
theorem exec_lwatch (s) (sc a) : exec (.lwatch sc a) s = execLwatch sc a s := rfl
theorem exec_lwait (s) (sc d a) : exec (.lwait sc d a) s = execLwait sc d a s := rfl
theorem exec_cntadd (s) (sc a b) : exec (.cntadd sc a b) s = execCntadd sc a b s := rfl
theorem exec_cntwait (s) (sc a b) : exec (.cntwait sc a b) s = execCntwait sc a b s := rfl
theorem exec_cntread (s) (sc d a) : exec (.cntread sc d a) s = execCntread sc d a s := rfl
theorem exec_cancel (s) (sc a) : exec (.cancel sc a) s = execCancel sc a s := rfl
theorem exec_submit (s) (sc a) : exec (.submit sc a) s = execSubmit sc a s := rfl
theorem exec_submitB (s) (sc d a) : exec (.submitB sc d a) s = execSubmitB sc d a s := rfl
theorem exec_tmap (s) (sc a i) : exec (.tmap sc a i) s = execTmap sc a i s := rfl
theorem exec_waitany (s) (sc d a) : exec (.waitany sc d a) s = execWaitany sc d a s := rfl
theorem exec_waitall (s) (sc a) : exec (.waitall sc a) s = execWaitall sc a s := rfl
theorem exec_fftag (s) (sc d a) : exec (.fftag sc d a) s = execFftag sc d a s := rfl
theorem exec_clrtag (s) (sc a) : exec (.clrtag sc a) s = execClrtag sc a s := rfl
theorem exec_mreq (s) (sc a b) : exec (.mreq sc a b) s = execMreq sc a b s := rfl
theorem exec_mbind (s) (sc a b) : exec (.mbind sc a b) s = execMbind sc a b s := rfl
theorem exec_fadd (s) (sc d a b p) : exec (.fadd sc d a b p) s = execFadd sc d a b p s := rfl
theorem exec_fsub (s) (sc d a b p) : exec (.fsub sc d a b p) s = execFsub sc d a b p s := rfl
theorem exec_fmul (s) (sc d a b p) : exec (.fmul sc d a b p) s = execFmul sc d a b p s := rfl
theorem exec_fdiv (s) (sc d a b p) : exec (.fdiv sc d a b p) s = execFdiv sc d a b p s := rfl
theorem exec_fsqrt (s) (sc d a p) : exec (.fsqrt sc d a p) s = execFsqrt sc d a p s := rfl
theorem exec_fmin (s) (sc d a b p) : exec (.fmin sc d a b p) s = execFmin sc d a b p s := rfl
theorem exec_fmax (s) (sc d a b p) : exec (.fmax sc d a b p) s = execFmax sc d a b p s := rfl
theorem exec_fsgncpy (s) (sc d a b p) : exec (.fsgncpy sc d a b p) s = execFsgncpy sc d a b p s := rfl
theorem exec_fsgnneg (s) (sc d a b p) : exec (.fsgnneg sc d a b p) s = execFsgnneg sc d a b p s := rfl
theorem exec_fsgnxor (s) (sc d a b p) : exec (.fsgnxor sc d a b p) s = execFsgnxor sc d a b p s := rfl
theorem exec_feq (s) (sc d a b p) : exec (.feq sc d a b p) s = execFeq sc d a b p s := rfl
theorem exec_flt (s) (sc d a b p) : exec (.flt sc d a b p) s = execFlt sc d a b p s := rfl
theorem exec_fle (s) (sc d a b p) : exec (.fle sc d a b p) s = execFle sc d a b p s := rfl
theorem exec_fclass (s) (sc d a p) : exec (.fclass sc d a p) s = execFclass sc d a p s := rfl
theorem exec_fcvt (s) (sc d a c) : exec (.fcvt sc d a c) s = execFcvt sc d a c s := rfl
theorem exec_fmvg (s) (sc d a p) : exec (.fmvg sc d a p) s = execFmvg sc d a p s := rfl
theorem exec_fmvf (s) (sc d a p) : exec (.fmvf sc d a p) s = execFmvf sc d a p s := rfl
theorem exec_fmaS (s) (sc d a b c) : exec (.fmaS sc d a b c) s = execFmaS sc d a b c s := rfl
theorem exec_fmsS (s) (sc d a b c) : exec (.fmsS sc d a b c) s = execFmsS sc d a b c s := rfl
theorem exec_fnmaS (s) (sc d a b c) : exec (.fnmaS sc d a b c) s = execFnmaS sc d a b c s := rfl
theorem exec_fnmsS (s) (sc d a b c) : exec (.fnmsS sc d a b c) s = execFnmsS sc d a b c s := rfl
theorem exec_fmaD (s) (sc d a b c) : exec (.fmaD sc d a b c) s = execFmaD sc d a b c s := rfl
theorem exec_fmsD (s) (sc d a b c) : exec (.fmsD sc d a b c) s = execFmsD sc d a b c s := rfl
theorem exec_fnmaD (s) (sc d a b c) : exec (.fnmaD sc d a b c) s = execFnmaD sc d a b c s := rfl
theorem exec_fnmsD (s) (sc d a b c) : exec (.fnmsD sc d a b c) s = execFnmsD sc d a b c s := rfl
theorem exec_vadd (s) (sc d a b k) : exec (.vadd sc d a b k) s = execVadd sc d a b k s := rfl
theorem exec_vsub (s) (sc d a b k) : exec (.vsub sc d a b k) s = execVsub sc d a b k s := rfl
theorem exec_vmul (s) (sc d a b k) : exec (.vmul sc d a b k) s = execVmul sc d a b k s := rfl
theorem exec_vmulh (s) (sc d a b k) : exec (.vmulh sc d a b k) s = execVmulh sc d a b k s := rfl
theorem exec_vmin (s) (sc d a b k) : exec (.vmin sc d a b k) s = execVmin sc d a b k s := rfl
theorem exec_vmax (s) (sc d a b k) : exec (.vmax sc d a b k) s = execVmax sc d a b k s := rfl
theorem exec_vand (s) (sc d a b k) : exec (.vand sc d a b k) s = execVand sc d a b k s := rfl
theorem exec_vor (s) (sc d a b k) : exec (.vor sc d a b k) s = execVor sc d a b k s := rfl
theorem exec_vxor (s) (sc d a b k) : exec (.vxor sc d a b k) s = execVxor sc d a b k s := rfl
theorem exec_vandn (s) (sc d a b k) : exec (.vandn sc d a b k) s = execVandn sc d a b k s := rfl
theorem exec_vsll (s) (sc d a b k) : exec (.vsll sc d a b k) s = execVsll sc d a b k s := rfl
theorem exec_vsrl (s) (sc d a b k) : exec (.vsrl sc d a b k) s = execVsrl sc d a b k s := rfl
theorem exec_vsra (s) (sc d a b k) : exec (.vsra sc d a b k) s = execVsra sc d a b k s := rfl
theorem exec_vmac (s) (sc d a b k) : exec (.vmac sc d a b k) s = execVmac sc d a b k s := rfl
theorem exec_vadds (s) (sc d a b k) : exec (.vadds sc d a b k) s = execVadds sc d a b k s := rfl
theorem exec_vsubs (s) (sc d a b k) : exec (.vsubs sc d a b k) s = execVsubs sc d a b k s := rfl
theorem exec_vabs (s) (sc d a k) : exec (.vabs sc d a k) s = execVabs sc d a k s := rfl
theorem exec_vneg (s) (sc d a k) : exec (.vneg sc d a k) s = execVneg sc d a k s := rfl
theorem exec_vdiv (s) (sc d a b k) : exec (.vdiv sc d a b k) s = execVdiv sc d a b k s := rfl
theorem exec_vsel (s) (sc d a b k) : exec (.vsel sc d a b k) s = execVsel sc d a b k s := rfl
theorem exec_vcmp (s) (sc d a b k c) : exec (.vcmp sc d a b k c) s = execVcmp sc d a b k c s := rfl
theorem exec_vredAdd (s) (sc d a k) : exec (.vredAdd sc d a k) s = execVredAdd sc d a k s := rfl
theorem exec_vredMax (s) (sc d a k) : exec (.vredMax sc d a k) s = execVredMax sc d a k s := rfl
theorem exec_vredMin (s) (sc d a k) : exec (.vredMin sc d a k) s = execVredMin sc d a k s := rfl
theorem exec_vscanAddI (s) (sc d a g h k) : exec (.vscanAddI sc d a g h k) s = execVscanAddI sc d a g h k s := rfl
theorem exec_vscanMaxI (s) (sc d a g h k) : exec (.vscanMaxI sc d a g h k) s = execVscanMaxI sc d a g h k s := rfl
theorem exec_vscanMinI (s) (sc d a g h k) : exec (.vscanMinI sc d a g h k) s = execVscanMinI sc d a g h k s := rfl
theorem exec_vscanAddE (s) (sc d a g h k) : exec (.vscanAddE sc d a g h k) s = execVscanAddE sc d a g h k s := rfl
theorem exec_vscanMaxE (s) (sc d a g h k) : exec (.vscanMaxE sc d a g h k) s = execVscanMaxE sc d a g h k s := rfl
theorem exec_vscanMinE (s) (sc d a g h k) : exec (.vscanMinE sc d a g h k) s = execVscanMinE sc d a g h k s := rfl
theorem exec_vperm (s) (sc d a b k) : exec (.vperm sc d a b k) s = execVperm sc d a b k s := rfl
theorem exec_vslideup (s) (sc d a b k) : exec (.vslideup sc d a b k) s = execVslideup sc d a b k s := rfl
theorem exec_vslidedn (s) (sc d a b k) : exec (.vslidedn sc d a b k) s = execVslidedn sc d a b k s := rfl
theorem exec_vbcast (s) (sc d a k) : exec (.vbcast sc d a k) s = execVbcast sc d a k s := rfl
theorem exec_vins (s) (sc d a b k) : exec (.vins sc d a b k) s = execVins sc d a b k s := rfl
theorem exec_vext (s) (sc d a b k) : exec (.vext sc d a b k) s = execVext sc d a b k s := rfl
theorem exec_vcvtLo (s) (sc d a t k) : exec (.vcvtLo sc d a t k) s = execVcvtLo sc d a t k s := rfl
theorem exec_vcvtHi (s) (sc d a t k) : exec (.vcvtHi sc d a t k) s = execVcvtHi sc d a t k s := rfl
theorem exec_vquantE43 (s) (sc d a b k) : exec (.vquantE43 sc d a b k) s = execVquantE43 sc d a b k s := rfl
theorem exec_vquantE52 (s) (sc d a b k) : exec (.vquantE52 sc d a b k) s = execVquantE52 sc d a b k s := rfl
theorem exec_vquantS8 (s) (sc d a b k) : exec (.vquantS8 sc d a b k) s = execVquantS8 sc d a b k s := rfl
theorem exec_vdeqE43 (s) (sc d a b k) : exec (.vdeqE43 sc d a b k) s = execVdeqE43 sc d a b k s := rfl
theorem exec_vdeqE52 (s) (sc d a b k) : exec (.vdeqE52 sc d a b k) s = execVdeqE52 sc d a b k s := rfl
theorem exec_vdeqS8 (s) (sc d a b k) : exec (.vdeqS8 sc d a b k) s = execVdeqS8 sc d a b k s := rfl
theorem exec_vamax (s) (sc h a k) : exec (.vamax sc h a k) s = execVamax sc h a k s := rfl
theorem exec_scld (s) (sc d h t) : exec (.scld sc d h t) s = execScld sc d h t s := rfl
theorem exec_vrcp (s) (sc d a k) : exec (.vrcp sc d a k) s = execVrcp sc d a k s := rfl
theorem exec_vrsqrt (s) (sc d a k) : exec (.vrsqrt sc d a k) s = execVrsqrt sc d a k s := rfl
theorem exec_vexp2 (s) (sc d a k) : exec (.vexp2 sc d a k) s = execVexp2 sc d a k s := rfl
theorem exec_vlog2 (s) (sc d a k) : exec (.vlog2 sc d a k) s = execVlog2 sc d a k s := rfl
theorem exec_vsqrt (s) (sc d a k) : exec (.vsqrt sc d a k) s = execVsqrt sc d a k s := rfl
theorem exec_vld (s) (sc d a k o) : exec (.vld sc d a k o) s = execVld sc d a k o s := rfl
theorem exec_vst (s) (sc d a k o) : exec (.vst sc d a k o) s = execVst sc d a k o s := rfl
theorem exec_vlds (s) (sc d a b k) : exec (.vlds sc d a b k) s = execVlds sc d a b k s := rfl
theorem exec_vsts (s) (sc d a b k) : exec (.vsts sc d a b k) s = execVsts sc d a b k s := rfl
theorem exec_vgath (s) (sc d a b k) : exec (.vgath sc d a b k) s = execVgath sc d a b k s := rfl
theorem exec_vscat (s) (sc d a b k) : exec (.vscat sc d a b k) s = execVscat sc d a b k s := rfl
theorem exec_vldb (s) (sc d a k) : exec (.vldb sc d a k) s = execVldb sc d a k s := rfl
theorem exec_kand (s) (sc d a b) : exec (.kand sc d a b) s = execKand sc d a b s := rfl
theorem exec_kor (s) (sc d a b) : exec (.kor sc d a b) s = execKor sc d a b s := rfl
theorem exec_kxor (s) (sc d a b) : exec (.kxor sc d a b) s = execKxor sc d a b s := rfl
theorem exec_kandn (s) (sc d a b) : exec (.kandn sc d a b) s = execKandn sc d a b s := rfl
theorem exec_knot (s) (sc d a) : exec (.knot sc d a) s = execKnot sc d a s := rfl
theorem exec_kpop (s) (sc d a) : exec (.kpop sc d a) s = execKpop sc d a s := rfl
theorem exec_kffs (s) (sc d a) : exec (.kffs sc d a) s = execKffs sc d a s := rfl
theorem exec_ksetn (s) (sc d a) : exec (.ksetn sc d a) s = execKsetn sc d a s := rfl
theorem exec_kmovg (s) (sc d a) : exec (.kmovg sc d a) s = execKmovg sc d a s := rfl
theorem exec_kmovk (s) (sc d a) : exec (.kmovk sc d a) s = execKmovk sc d a s := rfl
theorem exec_vsett (s) (sc d a t) : exec (.vsett sc d a t) s = execVsett sc d a t s := rfl
theorem exec_mmaBf (s) (sc n r q z) : exec (.mmaBf sc n r q z) s = execMmaBf sc n r q z s := rfl
theorem exec_mmaHf (s) (sc n r q z) : exec (.mmaHf sc n r q z) s = execMmaHf sc n r q z s := rfl
theorem exec_mmaE44 (s) (sc n r q f z) : exec (.mmaE44 sc n r q f z) s = execMmaE44 sc n r q f z s := rfl
theorem exec_mmaE45 (s) (sc n r q f z) : exec (.mmaE45 sc n r q f z) s = execMmaE45 sc n r q f z s := rfl
theorem exec_mmaE55 (s) (sc n r q f z) : exec (.mmaE55 sc n r q f z) s = execMmaE55 sc n r q f z s := rfl
theorem exec_mmaI8 (s) (sc n r q z) : exec (.mmaI8 sc n r q z) s = execMmaI8 sc n r q z s := rfl
theorem exec_mmaNb (s) (sc n r q f z) : exec (.mmaNb sc n r q f z) s = execMmaNb sc n r q f z s := rfl
theorem exec_mmaNe (s) (sc n r q f z) : exec (.mmaNe sc n r q f z) s = execMmaNe sc n r q f z s := rfl
theorem exec_mlease (s) (sc) : exec (.mlease sc) s = execMlease sc s := rfl
theorem exec_mleaseB (s) (sc d) : exec (.mleaseB sc d) s = execMleaseB sc d s := rfl
theorem exec_mrel (s) (sc) : exec (.mrel sc) s = execMrel sc s := rfl
theorem exec_mzero (s) (sc n) : exec (.mzero sc n) s = execMzero sc n s := rfl
theorem exec_mdrain (s) (sc n a b) : exec (.mdrain sc n a b) s = execMdrain sc n a b s := rfl
theorem exec_maccget (s) (sc m n c) : exec (.maccget sc m n c) s = execMaccget sc m n c s := rfl
theorem exec_maccput (s) (sc n m c) : exec (.maccput sc n m c) s = execMaccput sc n m c s := rfl
theorem exec_rpop (s) (sc r) : exec (.rpop sc r) s = execRpop sc r s := rfl
theorem exec_rstat (s) (sc d r) : exec (.rstat sc d r) s = execRstat sc d r s := rfl
theorem exec_mrowset (s) (sc m a b) : exec (.mrowset sc m a b) s = execMrowset sc m a b s := rfl
theorem exec_mrowget (s) (sc d m b) : exec (.mrowget sc d m b) s = execMrowget sc d m b s := rfl
theorem exec_mcolset (s) (sc m a b) : exec (.mcolset sc m a b) s = execMcolset sc m a b s := rfl
theorem exec_mcolget (s) (sc d m b) : exec (.mcolget sc d m b) s = execMcolget sc d m b s := rfl
theorem exec_mldm (s) (sc m a) : exec (.mldm sc m a) s = execMldm sc m a s := rfl
theorem exec_mstm (s) (sc m a) : exec (.mstm sc m a) s = execMstm sc m a s := rfl
theorem exec_reservedEncoding (s) (w) : exec (.reservedEncoding w) s = execReservedEncoding w s := rfl
theorem exec_panelReset (s) (verified failing) : exec (.panelReset verified failing) s = execPanelReset verified failing s := rfl
theorem exec_mwbell (s) (slot) : exec (.mwbell slot) s = execMwbell slot s := rfl
theorem exec_bar2Access (s) (off len data) : exec (.bar2Access off len data) s = execBar2Access off len data s := rfl
theorem exec_nonceWrite (s) (nonce) : exec (.nonceWrite nonce) s = execNonceWrite nonce s := rfl
theorem exec_launch (s) : exec (.launch) s = execLaunch s := rfl
theorem exec_launchInject (s) (launch die) : exec (.launchInject launch die) s = execLaunchInject launch die s := rfl
theorem exec_cancelMessage (s) : exec (.cancelMessage) s = execCancelMessage s := rfl
theorem exec_mgmtAssignCounter (s) : exec (.mgmtAssignCounter) s = execMgmtAssignCounter s := rfl
theorem exec_mgmtFreeCounter (s) : exec (.mgmtFreeCounter) s = execMgmtFreeCounter s := rfl
theorem exec_mgmtExtentUnmapped (s) : exec (.mgmtExtentUnmapped) s = execMgmtExtentUnmapped s := rfl
theorem exec_mgmtUnmarkExecutable (s) : exec (.mgmtUnmarkExecutable) s = execMgmtUnmarkExecutable s := rfl
theorem exec_mgmtDefineTenant (s) : exec (.mgmtDefineTenant) s = execMgmtDefineTenant s := rfl
theorem exec_mgmtRemoveTenant (s) : exec (.mgmtRemoveTenant) s = execMgmtRemoveTenant s := rfl
theorem exec_routeset (s) (die) : exec (.routeset die) s = execRouteset die s := rfl
theorem exec_timerset (s) (die) : exec (.timerset die) s = execTimerset die s := rfl
theorem exec_timerDeadline (s) (hart) : exec (.timerDeadline hart) s = execTimerDeadline hart s := rfl
theorem exec_parkctlRegister (s) (die) : exec (.parkctlRegister die) s = execParkctlRegister die s := rfl
theorem exec_parkctlResume (s) (die) : exec (.parkctlResume die) s = execParkctlResume die s := rfl
theorem exec_parkctlDiscard (s) (die) : exec (.parkctlDiscard die) s = execParkctlDiscard die s := rfl
theorem exec_faultRecord (s) (die) : exec (.faultRecord die) s = execFaultRecord die s := rfl
theorem exec_cxlExtentOffer (s) (port index base length) : exec (.cxlExtentOffer port index base length) s = execCxlExtentOffer port index base length s := rfl
theorem exec_cxlExtentReleaseRequest (s) (port index) : exec (.cxlExtentReleaseRequest port index) s = execCxlExtentReleaseRequest port index s := rfl
theorem exec_imageLoad (s) (image) : exec (.imageLoad image) s = execImageLoad image s := rfl
theorem exec_panelHalt (s) : exec (.panelHalt) s = execPanelHalt s := rfl
theorem exec_panelResume (s) : exec (.panelResume) s = execPanelResume s := rfl
theorem exec_dispatch (s) (hart) : exec (.dispatch hart) s = execDispatch hart s := rfl
theorem exec_messageArrival (s) (packet) : exec (.messageArrival packet) s = execMessageArrival packet s := rfl
theorem exec_bounceReturn (s) (packet) : exec (.bounceReturn packet) s = execBounceReturn packet s := rfl
theorem exec_sendRetry (s) (hart entry) : exec (.sendRetry hart entry) s = execSendRetry hart entry s := rfl
theorem exec_sendAcceptance (s) (packet) : exec (.sendAcceptance packet) s = execSendAcceptance packet s := rfl
theorem exec_spawnAnswer (s) (packet) : exec (.spawnAnswer packet) s = execSpawnAnswer packet s := rfl
theorem exec_counterUpdate (s) (packet) : exec (.counterUpdate packet) s = execCounterUpdate packet s := rfl
theorem exec_counterUpdateAck (s) (packet) : exec (.counterUpdateAck packet) s = execCounterUpdateAck packet s := rfl
theorem exec_loadLevel (s) (vt) : exec (.loadLevel vt) s = execLoadLevel vt s := rfl
theorem exec_accDeliveryArrival (s) (packet) : exec (.accDeliveryArrival packet) s = execAccDeliveryArrival packet s := rfl
theorem exec_accApply (s) (unit) : exec (.accApply unit) s = execAccApply unit s := rfl
theorem exec_accBounce (s) (packet) : exec (.accBounce packet) s = execAccBounce packet s := rfl
theorem exec_accOutcome (s) (packet) : exec (.accOutcome packet) s = execAccOutcome packet s := rfl
theorem exec_quotaWindow (s) (vt) : exec (.quotaWindow vt) s = execQuotaWindow vt s := rfl
theorem exec_switchAddend (s) (packet) : exec (.switchAddend packet) s = execSwitchAddend packet s := rfl
theorem exec_switchDeliver (s) (buffer) : exec (.switchDeliver buffer) s = execSwitchDeliver buffer s := rfl
theorem exec_switchResend (s) (buffer) : exec (.switchResend buffer) s = execSwitchResend buffer s := rfl
theorem exec_cardAdmit (s) (vt) : exec (.cardAdmit vt) s = execCardAdmit vt s := rfl
theorem exec_cardStart (s) (vt card) : exec (.cardStart vt card) s = execCardStart vt card s := rfl
theorem exec_cardLineAccess (s) (vt card line) : exec (.cardLineAccess vt card line) s = execCardLineAccess vt card line s := rfl
theorem exec_cardComplete (s) (vt card) : exec (.cardComplete vt card) s = execCardComplete vt card s := rfl
theorem exec_ringfeedEntry (s) (vt card) : exec (.ringfeedEntry vt card) s = execRingfeedEntry vt card s := rfl
theorem exec_mreqLineLand (s) (vt mreq line) : exec (.mreqLineLand vt mreq line) s = execMreqLineLand vt mreq line s := rfl
theorem exec_mmaStart (s) (vt) : exec (.mmaStart vt) s = execMmaStart vt s := rfl
theorem exec_mmaRetire (s) (vt) : exec (.mmaRetire vt) s = execMmaRetire vt s := rfl
theorem exec_screenVerdict (s) (vt) : exec (.screenVerdict vt) s = execScreenVerdict vt s := rfl
theorem exec_arrayCommandStart (s) (vt) : exec (.arrayCommandStart vt) s = execArrayCommandStart vt s := rfl
theorem exec_arrayCommandRetire (s) (vt) : exec (.arrayCommandRetire vt) s = execArrayCommandRetire vt s := rfl
theorem exec_ringCommandTurn (s) (vt hart) : exec (.ringCommandTurn vt hart) s = execRingCommandTurn vt hart s := rfl
theorem exec_mdrainCopy (s) (vt) : exec (.mdrainCopy vt) s = execMdrainCopy vt s := rfl
theorem exec_mdrainRowWrite (s) (vt drain row) : exec (.mdrainRowWrite vt drain row) s = execMdrainRowWrite vt drain row s := rfl
theorem exec_mdrainWake (s) (vt drain) : exec (.mdrainWake vt drain) s = execMdrainWake vt drain s := rfl
theorem exec_slotBoundary (s) (vt) : exec (.slotBoundary vt) s = execSlotBoundary vt s := rfl
theorem exec_leaseGrant (s) (vt) : exec (.leaseGrant vt) s = execLeaseGrant vt s := rfl
theorem exec_feLoadRetry (s) (hart access part) : exec (.feLoadRetry hart access part) s = execFeLoadRetry hart access part s := rfl
theorem exec_feTimeout (s) (hart access) : exec (.feTimeout hart access) s = execFeTimeout hart access s := rfl
theorem exec_sramScrub (s) (vt offset) : exec (.sramScrub vt offset) s = execSramScrub vt offset s := rfl
theorem exec_homeLineRequest (s) (hart access part) : exec (.homeLineRequest hart access part) s = execHomeLineRequest hart access part s := rfl
theorem exec_accessAnswer (s) (hart access) : exec (.accessAnswer hart access) s = execAccessAnswer hart access s := rfl
theorem exec_hbmBatchForm (s) (die channel) : exec (.hbmBatchForm die channel) s = execHbmBatchForm die channel s := rfl
theorem exec_refreshManagement (s) (die channel bank row) : exec (.refreshManagement die channel bank row) s = execRefreshManagement die channel bank row s := rfl
theorem exec_patrolRead (s) (die channel finding) : exec (.patrolRead die channel finding) s = execPatrolRead die channel finding s := rfl
theorem exec_pageWalk (s) (hart va kind) : exec (.pageWalk hart va kind) s = execPageWalk hart va kind s := rfl
theorem exec_barrierOpApply (s) (packet) : exec (.barrierOpApply packet) s = execBarrierOpApply packet s := rfl
theorem exec_watchRegister (s) (hart watch) : exec (.watchRegister hart watch) s = execWatchRegister hart watch s := rfl
theorem exec_watchEvict (s) (hart watch) : exec (.watchEvict hart watch) s = execWatchEvict hart watch s := rfl
theorem exec_lwaitTimeout (s) (hart) : exec (.lwaitTimeout hart) s = execLwaitTimeout hart s := rfl
theorem exec_trapEntry (s) (hart) : exec (.trapEntry hart) s = execTrapEntry hart s := rfl
theorem exec_interruptEntry (s) (hart) : exec (.interruptEntry hart) s = execInterruptEntry hart s := rfl
theorem exec_parkDump (s) (die) : exec (.parkDump die) s = execParkDump die s := rfl
theorem exec_ecallKService (s) (hart) : exec (.ecallKService hart) s = execEcallKService hart s := rfl
theorem exec_frameReload (s) (hart) : exec (.frameReload hart) s = execFrameReload hart s := rfl
theorem exec_laneGroupGrant (s) (vt) : exec (.laneGroupGrant vt) s = execLaneGroupGrant vt s := rfl
theorem exec_sfuEntryStart (s) (vt) : exec (.sfuEntryStart vt) s = execSfuEntryStart vt s := rfl
theorem exec_sfuResult (s) (vt) : exec (.sfuResult vt) s = execSfuResult vt s := rfl
theorem exec_sfuReentry (s) (hart) : exec (.sfuReentry hart) s = execSfuReentry hart s := rfl
theorem exec_rotationStart (s) (die) : exec (.rotationStart die) s = execRotationStart die s := rfl
theorem exec_rotationDrain (s) (die) : exec (.rotationDrain die) s = execRotationDrain die s := rfl
theorem exec_rotationPause (s) (die) : exec (.rotationPause die) s = execRotationPause die s := rfl
theorem exec_rotationAbandon (s) (die) : exec (.rotationAbandon die) s = execRotationAbandon die s := rfl
theorem exec_selfTestEnd (s) (die pt pass) : exec (.selfTestEnd die pt pass) s = execSelfTestEnd die pt pass s := rfl
theorem exec_tileWakeDone (s) (die pt) : exec (.tileWakeDone die pt) s = execTileWakeDone die pt s := rfl
theorem exec_ckptInterval (s) (hart) : exec (.ckptInterval hart) s = execCkptInterval hart s := rfl
theorem exec_logForcedCkpt (s) (vt) : exec (.logForcedCkpt vt) s = execLogForcedCkpt vt s := rfl
theorem exec_moonForcedCkpt (s) (vt) : exec (.moonForcedCkpt vt) s = execMoonForcedCkpt vt s := rfl
theorem exec_ckptCommit (s) (vt) : exec (.ckptCommit vt) s = execCkptCommit vt s := rfl
theorem exec_outOfTurnResend (s) (packet) : exec (.outOfTurnResend packet) s = execOutOfTurnResend packet s := rfl
theorem exec_voidMarker (s) (packet) : exec (.voidMarker packet) s = execVoidMarker packet s := rfl
theorem exec_egressRelease (s) (vt) : exec (.egressRelease vt) s = execEgressRelease vt s := rfl
theorem exec_blockCheck (s) (hart) : exec (.blockCheck hart) s = execBlockCheck hart s := rfl
theorem exec_rollback (s) (vt) : exec (.rollback vt) s = execRollback vt s := rfl
theorem exec_replayResume (s) (vt) : exec (.replayResume vt) s = execReplayResume vt s := rfl
theorem exec_replayLogEvent (s) (vt) : exec (.replayLogEvent vt) s = execReplayLogEvent vt s := rfl
theorem exec_ageStressTick (s) (die pt voltageBin temperatureBin) : exec (.ageStressTick die pt voltageBin temperatureBin) s = execAgeStressTick die pt voltageBin temperatureBin s := rfl
theorem exec_regulatorPhaseFail (s) (die group) : exec (.regulatorPhaseFail die group) s = execRegulatorPhaseFail die group s := rfl
theorem exec_flashRewrite (s) : exec (.flashRewrite) s = execFlashRewrite s := rfl
theorem exec_budgetTick (s) (otherWatts p16) : exec (.budgetTick otherWatts p16) s = execBudgetTick otherWatts p16 s := rfl
theorem exec_equotaRenew (s) (hart) : exec (.equotaRenew hart) s = execEquotaRenew hart s := rfl
theorem exec_droopTrip (s) (vt) : exec (.droopTrip vt) s = execDroopTrip vt s := rfl
theorem exec_droopStretchEnd (s) (vt) : exec (.droopStretchEnd vt) s = execDroopStretchEnd vt s := rfl
theorem exec_droopHalveEnd (s) (vt) : exec (.droopHalveEnd vt) s = execDroopHalveEnd vt s := rfl
theorem exec_shelfFrame (s) (bytes) : exec (.shelfFrame bytes) s = execShelfFrame bytes s := rfl
theorem exec_shedLimitUpdate (s) (die) : exec (.shedLimitUpdate die) s = execShedLimitUpdate die s := rfl
theorem exec_shedHoldTimeout (s) (hart) : exec (.shedHoldTimeout hart) s = execShedHoldTimeout hart s := rfl
theorem exec_shedRestore (s) (die) : exec (.shedRestore die) s = execShedRestore die s := rfl
theorem exec_shelfFallback (s) : exec (.shelfFallback) s = execShelfFallback s := rfl
theorem exec_clockLoss (s) (die pt) : exec (.clockLoss die pt) s = execClockLoss die pt s := rfl
theorem exec_hubFailover (s) (die) : exec (.hubFailover die) s = execHubFailover die s := rfl
theorem exec_reroot (s) (die) : exec (.reroot die) s = execReroot die s := rfl
theorem exec_rootFailover (s) : exec (.rootFailover) s = execRootFailover s := rfl
theorem exec_clockLock (s) (die pt) : exec (.clockLock die pt) s = execClockLock die pt s := rfl
theorem exec_linkCrcRetry (s) (link good) : exec (.linkCrcRetry link good) s = execLinkCrcRetry link good s := rfl
theorem exec_samplePulse (s) (die) : exec (.samplePulse die) s = execSamplePulse die s := rfl
theorem exec_dbgctlResume (s) (hart) : exec (.dbgctlResume hart) s = execDbgctlResume hart s := rfl
theorem exec_dbgctlHaltreq (s) (hart) : exec (.dbgctlHaltreq hart) s = execDbgctlHaltreq hart s := rfl
theorem exec_csrWrite (s) (hart csr value) : exec (.csrWrite hart csr value) s = execCsrWrite hart csr value s := rfl
theorem exec_mshapeWrite (s) (hart value) : exec (.mshapeWrite hart value) s = execMshapeWrite hart value s := rfl
theorem exec_slottabWrite (s) (hart value) : exec (.slottabWrite hart value) s = execSlottabWrite hart value s := rfl
theorem exec_leasenWrite (s) (hart value) : exec (.leasenWrite hart value) s = execLeasenWrite hart value s := rfl
theorem exec_msaveClaim (s) (hart value) : exec (.msaveClaim hart value) s = execMsaveClaim hart value s := rfl
theorem exec_msaveInval (s) (hart value) : exec (.msaveInval hart value) s = execMsaveInval hart value s := rfl
theorem exec_ringcfgWrite (s) (hart ring value) : exec (.ringcfgWrite hart ring value) s = execRingcfgWrite hart ring value s := rfl
theorem exec_hrdataWrite (s) (hart value) : exec (.hrdataWrite hart value) s = execHrdataWrite hart value s := rfl
theorem exec_fetchdutyWrite (s) (hart value) : exec (.fetchdutyWrite hart value) s = execFetchdutyWrite hart value s := rfl
theorem exec_tracectlWrite (s) (hart value) : exec (.tracectlWrite hart value) s = execTracectlWrite hart value s := rfl
theorem exec_vmapRotate (s) (die) : exec (.vmapRotate die) s = execVmapRotate die s := rfl
theorem exec_vmapMarkRetire (s) (die) : exec (.vmapMarkRetire die) s = execVmapMarkRetire die s := rfl
theorem exec_diaginjAccBit (s) (die pt hart row column bit) : exec (.diaginjAccBit die pt hart row column bit) s = execDiaginjAccBit die pt hart row column bit s := rfl
theorem exec_diaginjSramBit (s) (die pt offset bit) : exec (.diaginjSramBit die pt offset bit) s = execDiaginjSramBit die pt offset bit s := rfl
theorem exec_diaginjSignature (s) (die pt hart) : exec (.diaginjSignature die pt hart) s = execDiaginjSignature die pt hart s := rfl
theorem exec_resultWritten (s) (hart) : exec (.resultWritten hart) s = execResultWritten hart s := rfl

end Sys2Proof.Machine
end

