-- ==== Sys2Proof/Laws/Memory.lean ====
section
/-! SUPPORT. Memory: a read after a write, and that every operation keeps the canonical form. -/

namespace Sys2Proof.Machine

theorem memWfFrom_mono {m : List Host.Cell} {lo lo' : Nat} (h : memWfFrom lo m = true) (hl : lo' ≤ lo) :
    memWfFrom lo' m = true := by
  cases m with
  | nil => rfl
  | cons c m =>
    obtain ⟨k, b⟩ := c
    simp only [memWfFrom, Bool.and_eq_true, decide_eq_true_eq] at h ⊢
    exact ⟨⟨by omega, h.1.2⟩, h.2⟩

/-- Below the least key it lists, a canonical memory reads as unlisted. -/
theorem memByte_below {m : List Host.Cell} {lo a : Nat} (h : memWfFrom lo m = true) (ha : a < lo) : memByte m a = 0 := by
  induction m generalizing lo with
  | nil => rfl
  | cons c m ih =>
    obtain ⟨k, b⟩ := c
    simp only [memWfFrom, Bool.and_eq_true, decide_eq_true_eq] at h
    have : a ≠ k := by omega
    simp only [memByte, this, if_false]
    exact ih h.2 (by omega)

theorem memPut_wfFrom (m : List Host.Cell) (a : Nat) (b : Byte) (lo : Nat) (h : memWfFrom lo m = true) (ha : lo ≤ a) :
    memWfFrom lo (memPut m a b) = true := by
  induction m generalizing lo with
  | nil =>
    simp only [memPut]
    split
    · rfl
    · simp_all [memWfFrom]
  | cons c m ih =>
    obtain ⟨k, x⟩ := c
    have h' := h
    simp only [memWfFrom, Bool.and_eq_true, decide_eq_true_eq] at h
    obtain ⟨⟨h1, h2⟩, h3⟩ := h
    simp only [memPut]
    split
    · split
      · exact h'
      · simp only [memWfFrom, Bool.and_eq_true, decide_eq_true_eq]
        exact ⟨⟨ha, by assumption⟩, ⟨by omega, h2⟩, h3⟩
    · split
      · next hk =>
        subst hk
        split
        · exact memWfFrom_mono h3 (by omega)
        · simp only [memWfFrom, Bool.and_eq_true, decide_eq_true_eq]
          exact ⟨⟨h1, by assumption⟩, h3⟩
      · simp only [memWfFrom, Bool.and_eq_true, decide_eq_true_eq]
        exact ⟨⟨h1, h2⟩, ih (k + 1) h3 (by omega)⟩

/-- Writing a byte keeps the canonical form. -/
theorem memPut_wf {m : List Host.Cell} (h : Memory.wf m = true) (a : Nat) (b : Byte) : Memory.wf (memPut m a b) = true :=
  memPut_wfFrom m a b 0 h (Nat.zero_le a)

theorem memFilter_wfFrom (f : Host.Cell → Bool) (m : List Host.Cell) (lo : Nat) (h : memWfFrom lo m = true) :
    memWfFrom lo (m.filter f) = true := by
  induction m generalizing lo with
  | nil => exact h
  | cons c m ih =>
    obtain ⟨k, b⟩ := c
    simp only [memWfFrom, Bool.and_eq_true, decide_eq_true_eq] at h
    cases hf : f (k, b) with
    | false => simpa [List.filter, hf] using ih lo (memWfFrom_mono h.2 (by omega))
    | true =>
      simp only [List.filter, hf, memWfFrom, Bool.and_eq_true, decide_eq_true_eq]
      exact ⟨h.1, ih _ h.2⟩

/-- Leaving cells out keeps the canonical form. -/
theorem memFilter_wf {m : List Host.Cell} (h : Memory.wf m = true) (f : Host.Cell → Bool) : Memory.wf (m.filter f) = true :=
  memFilter_wfFrom f m 0 h

/-- Putting cells one after the other keeps the canonical form. -/
theorem memPuts_wf (key : Host.Cell → Nat) (cells : List Host.Cell) : ∀ {m : List Host.Cell}, Memory.wf m = true →
    Memory.wf (cells.foldl (fun m c => memPut m (key c) c.2) m) = true := by
  induction cells with
  | nil => exact fun h => h
  | cons c cells ih => exact fun h => ih (memPut_wf h _ _)

/-- Writing bytes keeps the canonical form. -/
theorem memWrite_wf (bs : List (Option Byte)) : ∀ {m : List Host.Cell} (a : Nat), Memory.wf m = true →
    Memory.wf (memWrite m a bs) = true := by
  induction bs with
  | nil => intro m a h; exact h
  | cons b bs ih =>
    intro m a h
    cases b with
    | none => exact ih _ h
    | some b => exact ih _ (memPut_wf h _ _)

theorem memByte_memPut_from (m : List Host.Cell) (a c : Nat) (b : Byte) (lo : Nat) (h : memWfFrom lo m = true) :
    memByte (memPut m a b) c = if c = a then b else memByte m c := by
  induction m generalizing lo with
  | nil =>
    simp only [memPut]
    split
    · next hb => by_cases hc : c = a <;> simp [hb, hc, memByte]
    · by_cases hc : c = a <;> simp [hc, memByte]
  | cons e m ih =>
    obtain ⟨k, x⟩ := e
    simp only [memWfFrom, Bool.and_eq_true, decide_eq_true_eq] at h
    obtain ⟨⟨h1, h2⟩, h3⟩ := h
    simp only [memPut]
    split
    · next hk =>
      have hz : memByte ((k, x) :: m) a = 0 := by
        refine memByte_below (lo := k) ?_ hk
        simp only [memWfFrom, Bool.and_eq_true, decide_eq_true_eq]
        exact ⟨⟨Nat.le_refl k, h2⟩, h3⟩
      split
      · next hb =>
        by_cases hc : c = a
        · subst hc; simp [hz, hb]
        · simp [hc]
      · by_cases hc : c = a
        · simp [hc, memByte]
        · simp only [hc, if_false]
          rw [memByte]
          simp [hc]
    · split
      · next hk =>
        subst hk
        split
        · next hb =>
          by_cases hc : c = a
          · subst hc
            simp only [if_true, hb]
            exact memByte_below h3 (by omega)
          · simp [hc, memByte]
        · by_cases hc : c = a <;> simp [hc, memByte]
      · next hn hk =>
        simp only [memByte, ih _ h3]
        by_cases hck : c = k
        · have : c ≠ a := by omega
          simp [hck]
          intro h; omega
        · simp [hck]

/-- A read after a write to the same place gives the value written; a write leaves every other place alone. -/
theorem memByte_memPut {m : List Host.Cell} (h : Memory.wf m = true) (a c : Nat) (b : Byte) :
    memByte (memPut m a b) c = if c = a then b else memByte m c :=
  memByte_memPut_from m a c b 0 h

/-- What a byte reads as after several were written: the written one, or the old one under a hole or outside. -/
theorem memByte_memWrite (bs : List (Option Byte)) : ∀ {m : List Host.Cell} (a c : Nat), Memory.wf m = true →
    memByte (memWrite m a bs) c =
      if a ≤ c then ((bs[c - a]?).bind id).getD (memByte m c) else memByte m c := by
  induction bs with
  | nil => intro m a c _; simp [memWrite]
  | cons b bs ih =>
    intro m a c h
    have key : ∀ {n : List Host.Cell}, Memory.wf n = true →
        memByte (memWrite n (a + 1) bs) c =
          if a + 1 ≤ c then ((bs[c - (a + 1)]?).bind id).getD (memByte n c) else memByte n c := fun hn => ih _ _ hn
    have step : a + 1 ≤ c → (b :: bs)[c - a]? = bs[c - (a + 1)]? := by
      intro hc
      have : c - a = (c - (a + 1)) + 1 := by omega
      rw [this, List.getElem?_cons_succ]
    cases b with
    | none =>
      simp only [memWrite, key h]
      by_cases h1 : a + 1 ≤ c
      · rw [if_pos h1, if_pos (by omega), step h1]
      · rw [if_neg h1]
        by_cases h2 : a ≤ c
        · have : c - a = 0 := by omega
          simp [h2, this]
        · simp [h2]
    | some b =>
      simp only [memWrite, key (memPut_wf h _ _), memByte_memPut h]
      by_cases h1 : a + 1 ≤ c
      · have : c ≠ a := by omega
        have h2 : a ≤ c := by omega
        rw [if_pos h1, if_pos h2, step h1, if_neg this]
      · rw [if_neg h1]
        by_cases h2 : a ≤ c
        · have h3 : c = a := by omega
          simp [h3]
        · have h3 : c ≠ a := by omega
          simp [h2, h3]

/-- Outside the bytes written, every byte reads as before. -/
theorem memByte_memWrite_outside {m : List Host.Cell} (h : Memory.wf m = true) (a : Nat) (bs : List (Option Byte)) (c : Nat)
    (hc : c < a ∨ a + bs.length ≤ c) : memByte (memWrite m a bs) c = memByte m c := by
  rw [memByte_memWrite bs a c h]
  by_cases h1 : a ≤ c
  · have : bs.length ≤ c - a := by omega
    simp [h1, List.getElem?_eq_none this]
  · simp [h1]

/-- The bytes written are the bytes read. -/
theorem memBytes_memWrite_solid {m : List Host.Cell} (h : Memory.wf m = true) (a : Nat) (bs : List Byte) (i : Nat)
    (hi : i < bs.length) : memByte (memWrite m a (solid bs)) (a + i) = bs[i] := by
  rw [memByte_memWrite _ _ _ h]
  simp [solid, hi]

@[simp] theorem memBytes_length (m : List Host.Cell) (a n : Nat) : (memBytes m a n).length = n := by
  induction n generalizing a with
  | zero => rfl
  | succ n ih => simp [memBytes, ih]

/-! ### Bytes of a value -/

theorem natBytes_length (n x : Nat) : (natBytes n x).length = n := by
  induction n generalizing x with
  | zero => rfl
  | succ n ih => simp [natBytes, ih]

/-- The bytes of a value give the value back. -/
theorem bytesNat_natBytes (n x : Nat) : bytesNat (natBytes n x) = x % 256 ^ n := by
  induction n generalizing x with
  | zero => simp [natBytes, bytesNat, Nat.mod_one]
  | succ n ih =>
    have h : 256 ^ (n + 1) = 256 * 256 ^ n := Nat.pow_succ'
    rw [natBytes, bytesNat, ih, BitVec.toNat_ofNat, h, Nat.mod_mul]

end Sys2Proof.Machine
end

