-- ==== Sys2Proof/Laws/Images.lean ====
section
/-! SUPPORT. Whole slices replaced at once: a panel reset, a checkpoint's base image and a rebuild keep memory canonical. -/

namespace Sys2Proof.Machine

theorem resetCells_wf {m : List Host.Cell} (h : Memory.wf m = true) : Memory.wf (resetCells m) = true := memFilter_wf h _

theorem restoreCells_wf {m : List Host.Cell} (h : Memory.wf m = true) (v : Nat) (cells : List Host.Cell) :
    Memory.wf (restoreCells m v cells) = true := memPuts_wf _ _ (memFilter_wf h _)

theorem baseWrite_wf {s : State} (h : Memory.wf s.mem = true) (v : Nat) (cells : List Host.Cell) :
    Memory.wf (s.baseWrite v cells).mem = true := memPuts_wf _ _ (memFilter_wf h _)

end Sys2Proof.Machine
end

