-- ==== Sys2Proof/Laws/PerInstr.lean ====
section
/-! SUPPORT. Decoding gives back what was encoded, one lemma per constructor (R22-R24, R38-R49). -/

namespace Sys2Proof.Laws.RoundTrip

/-- A well-formed instruction with a word of its own is read back from it; a row without an encoding is written 0, and a
reserved word stands for itself. -/
def Statement (i : Instr) : Prop :=
  i.WellFormed → encode i = 0 ∨ (∃ w, i = .reservedEncoding w) ∨ decode (encode i) (encodeSecond i) = .ok i

theorem add (sc : BitVec 3) (d : BitVec 5) (a : BitVec 5) (b : BitVec 5) : Statement (.add sc d a b) :=
  fun hw => .inr (.inr (by
    refine decode_of_fields ?_ hw
    change decodeFields (pack sc 1#7 (d ++ a ++ b ++ 0#7)) 0 = _
    have hs := fld_sc sc 1#7 (d ++ a ++ b ++ 0#7)
    obtain ⟨f0, f1, f2, f3⟩ := shape0 sc 1#7 d a b 0#7
    rw [decodeFields_01 _ _ (fld_op _ _ _)]
    unfold decodeINT
    rw [hs, f0, f1, f2, f3]
    rfl))

theorem sub (sc : BitVec 3) (d : BitVec 5) (a : BitVec 5) (b : BitVec 5) : Statement (.sub sc d a b) :=
  fun hw => .inr (.inr (by
    refine decode_of_fields ?_ hw
    change decodeFields (pack sc 1#7 (d ++ a ++ b ++ 1#7)) 0 = _
    have hs := fld_sc sc 1#7 (d ++ a ++ b ++ 1#7)
    obtain ⟨f0, f1, f2, f3⟩ := shape0 sc 1#7 d a b 1#7
    rw [decodeFields_01 _ _ (fld_op _ _ _)]
    unfold decodeINT
    rw [hs, f0, f1, f2, f3]
    rfl))

theorem and (sc : BitVec 3) (d : BitVec 5) (a : BitVec 5) (b : BitVec 5) : Statement (.and sc d a b) :=
  fun hw => .inr (.inr (by
    refine decode_of_fields ?_ hw
    change decodeFields (pack sc 1#7 (d ++ a ++ b ++ 2#7)) 0 = _
    have hs := fld_sc sc 1#7 (d ++ a ++ b ++ 2#7)
    obtain ⟨f0, f1, f2, f3⟩ := shape0 sc 1#7 d a b 2#7
    rw [decodeFields_01 _ _ (fld_op _ _ _)]
    unfold decodeINT
    rw [hs, f0, f1, f2, f3]
    rfl))

theorem or (sc : BitVec 3) (d : BitVec 5) (a : BitVec 5) (b : BitVec 5) : Statement (.or sc d a b) :=
  fun hw => .inr (.inr (by
    refine decode_of_fields ?_ hw
    change decodeFields (pack sc 1#7 (d ++ a ++ b ++ 3#7)) 0 = _
    have hs := fld_sc sc 1#7 (d ++ a ++ b ++ 3#7)
    obtain ⟨f0, f1, f2, f3⟩ := shape0 sc 1#7 d a b 3#7
    rw [decodeFields_01 _ _ (fld_op _ _ _)]
    unfold decodeINT
    rw [hs, f0, f1, f2, f3]
    rfl))

theorem xor (sc : BitVec 3) (d : BitVec 5) (a : BitVec 5) (b : BitVec 5) : Statement (.xor sc d a b) :=
  fun hw => .inr (.inr (by
    refine decode_of_fields ?_ hw
    change decodeFields (pack sc 1#7 (d ++ a ++ b ++ 4#7)) 0 = _
    have hs := fld_sc sc 1#7 (d ++ a ++ b ++ 4#7)
    obtain ⟨f0, f1, f2, f3⟩ := shape0 sc 1#7 d a b 4#7
    rw [decodeFields_01 _ _ (fld_op _ _ _)]
    unfold decodeINT
    rw [hs, f0, f1, f2, f3]
    rfl))

theorem andn (sc : BitVec 3) (d : BitVec 5) (a : BitVec 5) (b : BitVec 5) : Statement (.andn sc d a b) :=
  fun hw => .inr (.inr (by
    refine decode_of_fields ?_ hw
    change decodeFields (pack sc 1#7 (d ++ a ++ b ++ 5#7)) 0 = _
    have hs := fld_sc sc 1#7 (d ++ a ++ b ++ 5#7)
    obtain ⟨f0, f1, f2, f3⟩ := shape0 sc 1#7 d a b 5#7
    rw [decodeFields_01 _ _ (fld_op _ _ _)]
    unfold decodeINT
    rw [hs, f0, f1, f2, f3]
    rfl))

theorem orn (sc : BitVec 3) (d : BitVec 5) (a : BitVec 5) (b : BitVec 5) : Statement (.orn sc d a b) :=
  fun hw => .inr (.inr (by
    refine decode_of_fields ?_ hw
    change decodeFields (pack sc 1#7 (d ++ a ++ b ++ 6#7)) 0 = _
    have hs := fld_sc sc 1#7 (d ++ a ++ b ++ 6#7)
    obtain ⟨f0, f1, f2, f3⟩ := shape0 sc 1#7 d a b 6#7
    rw [decodeFields_01 _ _ (fld_op _ _ _)]
    unfold decodeINT
    rw [hs, f0, f1, f2, f3]
    rfl))

theorem sll (sc : BitVec 3) (d : BitVec 5) (a : BitVec 5) (b : BitVec 5) : Statement (.sll sc d a b) :=
  fun hw => .inr (.inr (by
    refine decode_of_fields ?_ hw
    change decodeFields (pack sc 1#7 (d ++ a ++ b ++ 8#7)) 0 = _
    have hs := fld_sc sc 1#7 (d ++ a ++ b ++ 8#7)
    obtain ⟨f0, f1, f2, f3⟩ := shape0 sc 1#7 d a b 8#7
    rw [decodeFields_01 _ _ (fld_op _ _ _)]
    unfold decodeINT
    rw [hs, f0, f1, f2, f3]
    rfl))

theorem srl (sc : BitVec 3) (d : BitVec 5) (a : BitVec 5) (b : BitVec 5) : Statement (.srl sc d a b) :=
  fun hw => .inr (.inr (by
    refine decode_of_fields ?_ hw
    change decodeFields (pack sc 1#7 (d ++ a ++ b ++ 9#7)) 0 = _
    have hs := fld_sc sc 1#7 (d ++ a ++ b ++ 9#7)
    obtain ⟨f0, f1, f2, f3⟩ := shape0 sc 1#7 d a b 9#7
    rw [decodeFields_01 _ _ (fld_op _ _ _)]
    unfold decodeINT
    rw [hs, f0, f1, f2, f3]
    rfl))

theorem sra (sc : BitVec 3) (d : BitVec 5) (a : BitVec 5) (b : BitVec 5) : Statement (.sra sc d a b) :=
  fun hw => .inr (.inr (by
    refine decode_of_fields ?_ hw
    change decodeFields (pack sc 1#7 (d ++ a ++ b ++ 10#7)) 0 = _
    have hs := fld_sc sc 1#7 (d ++ a ++ b ++ 10#7)
    obtain ⟨f0, f1, f2, f3⟩ := shape0 sc 1#7 d a b 10#7
    rw [decodeFields_01 _ _ (fld_op _ _ _)]
    unfold decodeINT
    rw [hs, f0, f1, f2, f3]
    rfl))

theorem rol (sc : BitVec 3) (d : BitVec 5) (a : BitVec 5) (b : BitVec 5) : Statement (.rol sc d a b) :=
  fun hw => .inr (.inr (by
    refine decode_of_fields ?_ hw
    change decodeFields (pack sc 1#7 (d ++ a ++ b ++ 11#7)) 0 = _
    have hs := fld_sc sc 1#7 (d ++ a ++ b ++ 11#7)
    obtain ⟨f0, f1, f2, f3⟩ := shape0 sc 1#7 d a b 11#7
    rw [decodeFields_01 _ _ (fld_op _ _ _)]
    unfold decodeINT
    rw [hs, f0, f1, f2, f3]
    rfl))

theorem ror (sc : BitVec 3) (d : BitVec 5) (a : BitVec 5) (b : BitVec 5) : Statement (.ror sc d a b) :=
  fun hw => .inr (.inr (by
    refine decode_of_fields ?_ hw
    change decodeFields (pack sc 1#7 (d ++ a ++ b ++ 12#7)) 0 = _
    have hs := fld_sc sc 1#7 (d ++ a ++ b ++ 12#7)
    obtain ⟨f0, f1, f2, f3⟩ := shape0 sc 1#7 d a b 12#7
    rw [decodeFields_01 _ _ (fld_op _ _ _)]
    unfold decodeINT
    rw [hs, f0, f1, f2, f3]
    rfl))

theorem slt (sc : BitVec 3) (d : BitVec 5) (a : BitVec 5) (b : BitVec 5) : Statement (.slt sc d a b) :=
  fun hw => .inr (.inr (by
    refine decode_of_fields ?_ hw
    change decodeFields (pack sc 1#7 (d ++ a ++ b ++ 16#7)) 0 = _
    have hs := fld_sc sc 1#7 (d ++ a ++ b ++ 16#7)
    obtain ⟨f0, f1, f2, f3⟩ := shape0 sc 1#7 d a b 16#7
    rw [decodeFields_01 _ _ (fld_op _ _ _)]
    unfold decodeINT
    rw [hs, f0, f1, f2, f3]
    rfl))

theorem sltu (sc : BitVec 3) (d : BitVec 5) (a : BitVec 5) (b : BitVec 5) : Statement (.sltu sc d a b) :=
  fun hw => .inr (.inr (by
    refine decode_of_fields ?_ hw
    change decodeFields (pack sc 1#7 (d ++ a ++ b ++ 17#7)) 0 = _
    have hs := fld_sc sc 1#7 (d ++ a ++ b ++ 17#7)
    obtain ⟨f0, f1, f2, f3⟩ := shape0 sc 1#7 d a b 17#7
    rw [decodeFields_01 _ _ (fld_op _ _ _)]
    unfold decodeINT
    rw [hs, f0, f1, f2, f3]
    rfl))

theorem seq (sc : BitVec 3) (d : BitVec 5) (a : BitVec 5) (b : BitVec 5) : Statement (.seq sc d a b) :=
  fun hw => .inr (.inr (by
    refine decode_of_fields ?_ hw
    change decodeFields (pack sc 1#7 (d ++ a ++ b ++ 18#7)) 0 = _
    have hs := fld_sc sc 1#7 (d ++ a ++ b ++ 18#7)
    obtain ⟨f0, f1, f2, f3⟩ := shape0 sc 1#7 d a b 18#7
    rw [decodeFields_01 _ _ (fld_op _ _ _)]
    unfold decodeINT
    rw [hs, f0, f1, f2, f3]
    rfl))

theorem sne (sc : BitVec 3) (d : BitVec 5) (a : BitVec 5) (b : BitVec 5) : Statement (.sne sc d a b) :=
  fun hw => .inr (.inr (by
    refine decode_of_fields ?_ hw
    change decodeFields (pack sc 1#7 (d ++ a ++ b ++ 19#7)) 0 = _
    have hs := fld_sc sc 1#7 (d ++ a ++ b ++ 19#7)
    obtain ⟨f0, f1, f2, f3⟩ := shape0 sc 1#7 d a b 19#7
    rw [decodeFields_01 _ _ (fld_op _ _ _)]
    unfold decodeINT
    rw [hs, f0, f1, f2, f3]
    rfl))

theorem min (sc : BitVec 3) (d : BitVec 5) (a : BitVec 5) (b : BitVec 5) : Statement (.min sc d a b) :=
  fun hw => .inr (.inr (by
    refine decode_of_fields ?_ hw
    change decodeFields (pack sc 1#7 (d ++ a ++ b ++ 20#7)) 0 = _
    have hs := fld_sc sc 1#7 (d ++ a ++ b ++ 20#7)
    obtain ⟨f0, f1, f2, f3⟩ := shape0 sc 1#7 d a b 20#7
    rw [decodeFields_01 _ _ (fld_op _ _ _)]
    unfold decodeINT
    rw [hs, f0, f1, f2, f3]
    rfl))

theorem max (sc : BitVec 3) (d : BitVec 5) (a : BitVec 5) (b : BitVec 5) : Statement (.max sc d a b) :=
  fun hw => .inr (.inr (by
    refine decode_of_fields ?_ hw
    change decodeFields (pack sc 1#7 (d ++ a ++ b ++ 21#7)) 0 = _
    have hs := fld_sc sc 1#7 (d ++ a ++ b ++ 21#7)
    obtain ⟨f0, f1, f2, f3⟩ := shape0 sc 1#7 d a b 21#7
    rw [decodeFields_01 _ _ (fld_op _ _ _)]
    unfold decodeINT
    rw [hs, f0, f1, f2, f3]
    rfl))

theorem minu (sc : BitVec 3) (d : BitVec 5) (a : BitVec 5) (b : BitVec 5) : Statement (.minu sc d a b) :=
  fun hw => .inr (.inr (by
    refine decode_of_fields ?_ hw
    change decodeFields (pack sc 1#7 (d ++ a ++ b ++ 22#7)) 0 = _
    have hs := fld_sc sc 1#7 (d ++ a ++ b ++ 22#7)
    obtain ⟨f0, f1, f2, f3⟩ := shape0 sc 1#7 d a b 22#7
    rw [decodeFields_01 _ _ (fld_op _ _ _)]
    unfold decodeINT
    rw [hs, f0, f1, f2, f3]
    rfl))

theorem maxu (sc : BitVec 3) (d : BitVec 5) (a : BitVec 5) (b : BitVec 5) : Statement (.maxu sc d a b) :=
  fun hw => .inr (.inr (by
    refine decode_of_fields ?_ hw
    change decodeFields (pack sc 1#7 (d ++ a ++ b ++ 23#7)) 0 = _
    have hs := fld_sc sc 1#7 (d ++ a ++ b ++ 23#7)
    obtain ⟨f0, f1, f2, f3⟩ := shape0 sc 1#7 d a b 23#7
    rw [decodeFields_01 _ _ (fld_op _ _ _)]
    unfold decodeINT
    rw [hs, f0, f1, f2, f3]
    rfl))

theorem clz (sc : BitVec 3) (d : BitVec 5) (a : BitVec 5) : Statement (.clz sc d a) :=
  fun hw => .inr (.inr (by
    refine decode_of_fields ?_ hw
    change decodeFields (pack sc 1#7 (d ++ a ++ 24#12)) 0 = _
    have hs := fld_sc sc 1#7 (d ++ a ++ 24#12)
    obtain ⟨f0, f1, f2, f3⟩ := shape1 sc 1#7 d a 24#12
    rw [decodeFields_01 _ _ (fld_op _ _ _)]
    unfold decodeINT
    rw [hs, f2, f0, f1, f3]
    rfl))

theorem ctz (sc : BitVec 3) (d : BitVec 5) (a : BitVec 5) : Statement (.ctz sc d a) :=
  fun hw => .inr (.inr (by
    refine decode_of_fields ?_ hw
    change decodeFields (pack sc 1#7 (d ++ a ++ 25#12)) 0 = _
    have hs := fld_sc sc 1#7 (d ++ a ++ 25#12)
    obtain ⟨f0, f1, f2, f3⟩ := shape1 sc 1#7 d a 25#12
    rw [decodeFields_01 _ _ (fld_op _ _ _)]
    unfold decodeINT
    rw [hs, f2, f0, f1, f3]
    rfl))

theorem popc (sc : BitVec 3) (d : BitVec 5) (a : BitVec 5) : Statement (.popc sc d a) :=
  fun hw => .inr (.inr (by
    refine decode_of_fields ?_ hw
    change decodeFields (pack sc 1#7 (d ++ a ++ 26#12)) 0 = _
    have hs := fld_sc sc 1#7 (d ++ a ++ 26#12)
    obtain ⟨f0, f1, f2, f3⟩ := shape1 sc 1#7 d a 26#12
    rw [decodeFields_01 _ _ (fld_op _ _ _)]
    unfold decodeINT
    rw [hs, f2, f0, f1, f3]
    rfl))

theorem brev (sc : BitVec 3) (d : BitVec 5) (a : BitVec 5) : Statement (.brev sc d a) :=
  fun hw => .inr (.inr (by
    refine decode_of_fields ?_ hw
    change decodeFields (pack sc 1#7 (d ++ a ++ 27#12)) 0 = _
    have hs := fld_sc sc 1#7 (d ++ a ++ 27#12)
    obtain ⟨f0, f1, f2, f3⟩ := shape1 sc 1#7 d a 27#12
    rw [decodeFields_01 _ _ (fld_op _ _ _)]
    unfold decodeINT
    rw [hs, f2, f0, f1, f3]
    rfl))

theorem sextb (sc : BitVec 3) (d : BitVec 5) (a : BitVec 5) : Statement (.sextb sc d a) :=
  fun hw => .inr (.inr (by
    refine decode_of_fields ?_ hw
    change decodeFields (pack sc 1#7 (d ++ a ++ 28#12)) 0 = _
    have hs := fld_sc sc 1#7 (d ++ a ++ 28#12)
    obtain ⟨f0, f1, f2, f3⟩ := shape1 sc 1#7 d a 28#12
    rw [decodeFields_01 _ _ (fld_op _ _ _)]
    unfold decodeINT
    rw [hs, f2, f0, f1, f3]
    rfl))

theorem sexth (sc : BitVec 3) (d : BitVec 5) (a : BitVec 5) : Statement (.sexth sc d a) :=
  fun hw => .inr (.inr (by
    refine decode_of_fields ?_ hw
    change decodeFields (pack sc 1#7 (d ++ a ++ 29#12)) 0 = _
    have hs := fld_sc sc 1#7 (d ++ a ++ 29#12)
    obtain ⟨f0, f1, f2, f3⟩ := shape1 sc 1#7 d a 29#12
    rw [decodeFields_01 _ _ (fld_op _ _ _)]
    unfold decodeINT
    rw [hs, f2, f0, f1, f3]
    rfl))

theorem sextw (sc : BitVec 3) (d : BitVec 5) (a : BitVec 5) : Statement (.sextw sc d a) :=
  fun hw => .inr (.inr (by
    refine decode_of_fields ?_ hw
    change decodeFields (pack sc 1#7 (d ++ a ++ 30#12)) 0 = _
    have hs := fld_sc sc 1#7 (d ++ a ++ 30#12)
    obtain ⟨f0, f1, f2, f3⟩ := shape1 sc 1#7 d a 30#12
    rw [decodeFields_01 _ _ (fld_op _ _ _)]
    unfold decodeINT
    rw [hs, f2, f0, f1, f3]
    rfl))

theorem zextw (sc : BitVec 3) (d : BitVec 5) (a : BitVec 5) : Statement (.zextw sc d a) :=
  fun hw => .inr (.inr (by
    refine decode_of_fields ?_ hw
    change decodeFields (pack sc 1#7 (d ++ a ++ 31#12)) 0 = _
    have hs := fld_sc sc 1#7 (d ++ a ++ 31#12)
    obtain ⟨f0, f1, f2, f3⟩ := shape1 sc 1#7 d a 31#12
    rw [decodeFields_01 _ _ (fld_op _ _ _)]
    unfold decodeINT
    rw [hs, f2, f0, f1, f3]
    rfl))

theorem addsh (sc : BitVec 3) (d : BitVec 5) (a : BitVec 5) (b : BitVec 5) (h : BitVec 2) : Statement (.addsh sc d a b h) :=
  fun hw => .inr (.inr (by
    refine decode_of_fields ?_ hw
    change decodeFields (pack sc 1#7 (d ++ a ++ b ++ 8#5 ++ h)) 0 = _
    have hs := fld_sc sc 1#7 (d ++ a ++ b ++ 8#5 ++ h)
    obtain ⟨f0, f1, f2, f3⟩ := shape2 sc 1#7 d a b 8#5 h
    rw [decodeFields_01 _ _ (fld_op _ _ _)]
    have s : (fld (pack sc 1#7 (d ++ a ++ b ++ 8#5 ++ h)) 0 7).toNat = 8 * 2 ^ 2 + h.toNat := by
      rw [fld_lo _ _ _ _ _ (by decide)]
      refine (ext_span (d ++ a ++ b ++ 8#5) (h) 7 (by decide)).trans ?_
      rw [show ((d ++ a ++ b ++ 8#5).extractLsb' 0 (7 - 2)).toNat = 8 from congrArg BitVec.toNat ((ext_lo (d ++ a ++ b) (8#5) 0 5 (by decide)).trans rfl)]
    unfold decodeINT
    rw [s]
    have b_h := h.isLt
    generalize h.toNat = n_h at b_h ⊢
    interval_cases n_h <;> (rw [hs, f0, f1, f2, f3]; rfl)))

theorem addw (sc : BitVec 3) (d : BitVec 5) (a : BitVec 5) (b : BitVec 5) : Statement (.addw sc d a b) :=
  fun hw => .inr (.inr (by
    refine decode_of_fields ?_ hw
    change decodeFields (pack sc 2#7 (d ++ a ++ b ++ 0#7)) 0 = _
    have hs := fld_sc sc 2#7 (d ++ a ++ b ++ 0#7)
    obtain ⟨f0, f1, f2, f3⟩ := shape0 sc 2#7 d a b 0#7
    rw [decodeFields_02 _ _ (fld_op _ _ _)]
    unfold decodeINTW
    rw [hs, f0, f1, f2, f3]
    rfl))

theorem subw (sc : BitVec 3) (d : BitVec 5) (a : BitVec 5) (b : BitVec 5) : Statement (.subw sc d a b) :=
  fun hw => .inr (.inr (by
    refine decode_of_fields ?_ hw
    change decodeFields (pack sc 2#7 (d ++ a ++ b ++ 1#7)) 0 = _
    have hs := fld_sc sc 2#7 (d ++ a ++ b ++ 1#7)
    obtain ⟨f0, f1, f2, f3⟩ := shape0 sc 2#7 d a b 1#7
    rw [decodeFields_02 _ _ (fld_op _ _ _)]
    unfold decodeINTW
    rw [hs, f0, f1, f2, f3]
    rfl))

theorem sllw (sc : BitVec 3) (d : BitVec 5) (a : BitVec 5) (b : BitVec 5) : Statement (.sllw sc d a b) :=
  fun hw => .inr (.inr (by
    refine decode_of_fields ?_ hw
    change decodeFields (pack sc 2#7 (d ++ a ++ b ++ 8#7)) 0 = _
    have hs := fld_sc sc 2#7 (d ++ a ++ b ++ 8#7)
    obtain ⟨f0, f1, f2, f3⟩ := shape0 sc 2#7 d a b 8#7
    rw [decodeFields_02 _ _ (fld_op _ _ _)]
    unfold decodeINTW
    rw [hs, f0, f1, f2, f3]
    rfl))

theorem srlw (sc : BitVec 3) (d : BitVec 5) (a : BitVec 5) (b : BitVec 5) : Statement (.srlw sc d a b) :=
  fun hw => .inr (.inr (by
    refine decode_of_fields ?_ hw
    change decodeFields (pack sc 2#7 (d ++ a ++ b ++ 9#7)) 0 = _
    have hs := fld_sc sc 2#7 (d ++ a ++ b ++ 9#7)
    obtain ⟨f0, f1, f2, f3⟩ := shape0 sc 2#7 d a b 9#7
    rw [decodeFields_02 _ _ (fld_op _ _ _)]
    unfold decodeINTW
    rw [hs, f0, f1, f2, f3]
    rfl))

theorem sraw (sc : BitVec 3) (d : BitVec 5) (a : BitVec 5) (b : BitVec 5) : Statement (.sraw sc d a b) :=
  fun hw => .inr (.inr (by
    refine decode_of_fields ?_ hw
    change decodeFields (pack sc 2#7 (d ++ a ++ b ++ 10#7)) 0 = _
    have hs := fld_sc sc 2#7 (d ++ a ++ b ++ 10#7)
    obtain ⟨f0, f1, f2, f3⟩ := shape0 sc 2#7 d a b 10#7
    rw [decodeFields_02 _ _ (fld_op _ _ _)]
    unfold decodeINTW
    rw [hs, f0, f1, f2, f3]
    rfl))

theorem rolw (sc : BitVec 3) (d : BitVec 5) (a : BitVec 5) (b : BitVec 5) : Statement (.rolw sc d a b) :=
  fun hw => .inr (.inr (by
    refine decode_of_fields ?_ hw
    change decodeFields (pack sc 2#7 (d ++ a ++ b ++ 11#7)) 0 = _
    have hs := fld_sc sc 2#7 (d ++ a ++ b ++ 11#7)
    obtain ⟨f0, f1, f2, f3⟩ := shape0 sc 2#7 d a b 11#7
    rw [decodeFields_02 _ _ (fld_op _ _ _)]
    unfold decodeINTW
    rw [hs, f0, f1, f2, f3]
    rfl))

theorem rorw (sc : BitVec 3) (d : BitVec 5) (a : BitVec 5) (b : BitVec 5) : Statement (.rorw sc d a b) :=
  fun hw => .inr (.inr (by
    refine decode_of_fields ?_ hw
    change decodeFields (pack sc 2#7 (d ++ a ++ b ++ 12#7)) 0 = _
    have hs := fld_sc sc 2#7 (d ++ a ++ b ++ 12#7)
    obtain ⟨f0, f1, f2, f3⟩ := shape0 sc 2#7 d a b 12#7
    rw [decodeFields_02 _ _ (fld_op _ _ _)]
    unfold decodeINTW
    rw [hs, f0, f1, f2, f3]
    rfl))

theorem mul (sc : BitVec 3) (d : BitVec 5) (a : BitVec 5) (b : BitVec 5) : Statement (.mul sc d a b) :=
  fun hw => .inr (.inr (by
    refine decode_of_fields ?_ hw
    change decodeFields (pack sc 3#7 (d ++ a ++ b ++ 0#7)) 0 = _
    have hs := fld_sc sc 3#7 (d ++ a ++ b ++ 0#7)
    obtain ⟨f0, f1, f2, f3⟩ := shape0 sc 3#7 d a b 0#7
    rw [decodeFields_03 _ _ (fld_op _ _ _)]
    unfold decodeMULDIV
    rw [hs, f0, f1, f2, f3]
    rfl))

theorem mulhs (sc : BitVec 3) (d : BitVec 5) (a : BitVec 5) (b : BitVec 5) : Statement (.mulhs sc d a b) :=
  fun hw => .inr (.inr (by
    refine decode_of_fields ?_ hw
    change decodeFields (pack sc 3#7 (d ++ a ++ b ++ 1#7)) 0 = _
    have hs := fld_sc sc 3#7 (d ++ a ++ b ++ 1#7)
    obtain ⟨f0, f1, f2, f3⟩ := shape0 sc 3#7 d a b 1#7
    rw [decodeFields_03 _ _ (fld_op _ _ _)]
    unfold decodeMULDIV
    rw [hs, f0, f1, f2, f3]
    rfl))

theorem mulhz (sc : BitVec 3) (d : BitVec 5) (a : BitVec 5) (b : BitVec 5) : Statement (.mulhz sc d a b) :=
  fun hw => .inr (.inr (by
    refine decode_of_fields ?_ hw
    change decodeFields (pack sc 3#7 (d ++ a ++ b ++ 2#7)) 0 = _
    have hs := fld_sc sc 3#7 (d ++ a ++ b ++ 2#7)
    obtain ⟨f0, f1, f2, f3⟩ := shape0 sc 3#7 d a b 2#7
    rw [decodeFields_03 _ _ (fld_op _ _ _)]
    unfold decodeMULDIV
    rw [hs, f0, f1, f2, f3]
    rfl))

theorem mulhsz (sc : BitVec 3) (d : BitVec 5) (a : BitVec 5) (b : BitVec 5) : Statement (.mulhsz sc d a b) :=
  fun hw => .inr (.inr (by
    refine decode_of_fields ?_ hw
    change decodeFields (pack sc 3#7 (d ++ a ++ b ++ 3#7)) 0 = _
    have hs := fld_sc sc 3#7 (d ++ a ++ b ++ 3#7)
    obtain ⟨f0, f1, f2, f3⟩ := shape0 sc 3#7 d a b 3#7
    rw [decodeFields_03 _ _ (fld_op _ _ _)]
    unfold decodeMULDIV
    rw [hs, f0, f1, f2, f3]
    rfl))

theorem div (sc : BitVec 3) (d : BitVec 5) (a : BitVec 5) (b : BitVec 5) : Statement (.div sc d a b) :=
  fun hw => .inr (.inr (by
    refine decode_of_fields ?_ hw
    change decodeFields (pack sc 3#7 (d ++ a ++ b ++ 4#7)) 0 = _
    have hs := fld_sc sc 3#7 (d ++ a ++ b ++ 4#7)
    obtain ⟨f0, f1, f2, f3⟩ := shape0 sc 3#7 d a b 4#7
    rw [decodeFields_03 _ _ (fld_op _ _ _)]
    unfold decodeMULDIV
    rw [hs, f0, f1, f2, f3]
    rfl))

theorem divu (sc : BitVec 3) (d : BitVec 5) (a : BitVec 5) (b : BitVec 5) : Statement (.divu sc d a b) :=
  fun hw => .inr (.inr (by
    refine decode_of_fields ?_ hw
    change decodeFields (pack sc 3#7 (d ++ a ++ b ++ 5#7)) 0 = _
    have hs := fld_sc sc 3#7 (d ++ a ++ b ++ 5#7)
    obtain ⟨f0, f1, f2, f3⟩ := shape0 sc 3#7 d a b 5#7
    rw [decodeFields_03 _ _ (fld_op _ _ _)]
    unfold decodeMULDIV
    rw [hs, f0, f1, f2, f3]
    rfl))

theorem rem (sc : BitVec 3) (d : BitVec 5) (a : BitVec 5) (b : BitVec 5) : Statement (.rem sc d a b) :=
  fun hw => .inr (.inr (by
    refine decode_of_fields ?_ hw
    change decodeFields (pack sc 3#7 (d ++ a ++ b ++ 6#7)) 0 = _
    have hs := fld_sc sc 3#7 (d ++ a ++ b ++ 6#7)
    obtain ⟨f0, f1, f2, f3⟩ := shape0 sc 3#7 d a b 6#7
    rw [decodeFields_03 _ _ (fld_op _ _ _)]
    unfold decodeMULDIV
    rw [hs, f0, f1, f2, f3]
    rfl))

theorem remu (sc : BitVec 3) (d : BitVec 5) (a : BitVec 5) (b : BitVec 5) : Statement (.remu sc d a b) :=
  fun hw => .inr (.inr (by
    refine decode_of_fields ?_ hw
    change decodeFields (pack sc 3#7 (d ++ a ++ b ++ 7#7)) 0 = _
    have hs := fld_sc sc 3#7 (d ++ a ++ b ++ 7#7)
    obtain ⟨f0, f1, f2, f3⟩ := shape0 sc 3#7 d a b 7#7
    rw [decodeFields_03 _ _ (fld_op _ _ _)]
    unfold decodeMULDIV
    rw [hs, f0, f1, f2, f3]
    rfl))

theorem mulw (sc : BitVec 3) (d : BitVec 5) (a : BitVec 5) (b : BitVec 5) : Statement (.mulw sc d a b) :=
  fun hw => .inr (.inr (by
    refine decode_of_fields ?_ hw
    change decodeFields (pack sc 3#7 (d ++ a ++ b ++ 8#7)) 0 = _
    have hs := fld_sc sc 3#7 (d ++ a ++ b ++ 8#7)
    obtain ⟨f0, f1, f2, f3⟩ := shape0 sc 3#7 d a b 8#7
    rw [decodeFields_03 _ _ (fld_op _ _ _)]
    unfold decodeMULDIV
    rw [hs, f0, f1, f2, f3]
    rfl))

theorem divw (sc : BitVec 3) (d : BitVec 5) (a : BitVec 5) (b : BitVec 5) : Statement (.divw sc d a b) :=
  fun hw => .inr (.inr (by
    refine decode_of_fields ?_ hw
    change decodeFields (pack sc 3#7 (d ++ a ++ b ++ 12#7)) 0 = _
    have hs := fld_sc sc 3#7 (d ++ a ++ b ++ 12#7)
    obtain ⟨f0, f1, f2, f3⟩ := shape0 sc 3#7 d a b 12#7
    rw [decodeFields_03 _ _ (fld_op _ _ _)]
    unfold decodeMULDIV
    rw [hs, f0, f1, f2, f3]
    rfl))

theorem divuw (sc : BitVec 3) (d : BitVec 5) (a : BitVec 5) (b : BitVec 5) : Statement (.divuw sc d a b) :=
  fun hw => .inr (.inr (by
    refine decode_of_fields ?_ hw
    change decodeFields (pack sc 3#7 (d ++ a ++ b ++ 13#7)) 0 = _
    have hs := fld_sc sc 3#7 (d ++ a ++ b ++ 13#7)
    obtain ⟨f0, f1, f2, f3⟩ := shape0 sc 3#7 d a b 13#7
    rw [decodeFields_03 _ _ (fld_op _ _ _)]
    unfold decodeMULDIV
    rw [hs, f0, f1, f2, f3]
    rfl))

theorem remw (sc : BitVec 3) (d : BitVec 5) (a : BitVec 5) (b : BitVec 5) : Statement (.remw sc d a b) :=
  fun hw => .inr (.inr (by
    refine decode_of_fields ?_ hw
    change decodeFields (pack sc 3#7 (d ++ a ++ b ++ 14#7)) 0 = _
    have hs := fld_sc sc 3#7 (d ++ a ++ b ++ 14#7)
    obtain ⟨f0, f1, f2, f3⟩ := shape0 sc 3#7 d a b 14#7
    rw [decodeFields_03 _ _ (fld_op _ _ _)]
    unfold decodeMULDIV
    rw [hs, f0, f1, f2, f3]
    rfl))

theorem remuw (sc : BitVec 3) (d : BitVec 5) (a : BitVec 5) (b : BitVec 5) : Statement (.remuw sc d a b) :=
  fun hw => .inr (.inr (by
    refine decode_of_fields ?_ hw
    change decodeFields (pack sc 3#7 (d ++ a ++ b ++ 15#7)) 0 = _
    have hs := fld_sc sc 3#7 (d ++ a ++ b ++ 15#7)
    obtain ⟨f0, f1, f2, f3⟩ := shape0 sc 3#7 d a b 15#7
    rw [decodeFields_03 _ _ (fld_op _ _ _)]
    unfold decodeMULDIV
    rw [hs, f0, f1, f2, f3]
    rfl))

theorem addi (sc : BitVec 3) (d : BitVec 5) (a : BitVec 5) (i : BitVec 12) : Statement (.addi sc d a i) :=
  fun hw => .inr (.inr (by
    refine decode_of_fields ?_ hw
    change decodeFields (pack sc 4#7 (d ++ a ++ i)) 0 = _
    have hs := fld_sc sc 4#7 (d ++ a ++ i)
    obtain ⟨f0, f1, f2⟩ := shape3 sc 4#7 d a i
    rw [decodeFields_04 _ _ (fld_op _ _ _)]
    rw [hs, f0, f1, f2]))

theorem andi (sc : BitVec 3) (d : BitVec 5) (a : BitVec 5) (i : BitVec 12) : Statement (.andi sc d a i) :=
  fun hw => .inr (.inr (by
    refine decode_of_fields ?_ hw
    change decodeFields (pack sc 5#7 (d ++ a ++ i)) 0 = _
    have hs := fld_sc sc 5#7 (d ++ a ++ i)
    obtain ⟨f0, f1, f2⟩ := shape3 sc 5#7 d a i
    rw [decodeFields_05 _ _ (fld_op _ _ _)]
    rw [hs, f0, f1, f2]))

theorem ori (sc : BitVec 3) (d : BitVec 5) (a : BitVec 5) (i : BitVec 12) : Statement (.ori sc d a i) :=
  fun hw => .inr (.inr (by
    refine decode_of_fields ?_ hw
    change decodeFields (pack sc 6#7 (d ++ a ++ i)) 0 = _
    have hs := fld_sc sc 6#7 (d ++ a ++ i)
    obtain ⟨f0, f1, f2⟩ := shape3 sc 6#7 d a i
    rw [decodeFields_06 _ _ (fld_op _ _ _)]
    rw [hs, f0, f1, f2]))

theorem xori (sc : BitVec 3) (d : BitVec 5) (a : BitVec 5) (i : BitVec 12) : Statement (.xori sc d a i) :=
  fun hw => .inr (.inr (by
    refine decode_of_fields ?_ hw
    change decodeFields (pack sc 7#7 (d ++ a ++ i)) 0 = _
    have hs := fld_sc sc 7#7 (d ++ a ++ i)
    obtain ⟨f0, f1, f2⟩ := shape3 sc 7#7 d a i
    rw [decodeFields_07 _ _ (fld_op _ _ _)]
    rw [hs, f0, f1, f2]))

theorem slti (sc : BitVec 3) (d : BitVec 5) (a : BitVec 5) (i : BitVec 12) : Statement (.slti sc d a i) :=
  fun hw => .inr (.inr (by
    refine decode_of_fields ?_ hw
    change decodeFields (pack sc 8#7 (d ++ a ++ i)) 0 = _
    have hs := fld_sc sc 8#7 (d ++ a ++ i)
    obtain ⟨f0, f1, f2⟩ := shape3 sc 8#7 d a i
    rw [decodeFields_08 _ _ (fld_op _ _ _)]
    rw [hs, f0, f1, f2]))

theorem sltiu (sc : BitVec 3) (d : BitVec 5) (a : BitVec 5) (i : BitVec 12) : Statement (.sltiu sc d a i) :=
  fun hw => .inr (.inr (by
    refine decode_of_fields ?_ hw
    change decodeFields (pack sc 9#7 (d ++ a ++ i)) 0 = _
    have hs := fld_sc sc 9#7 (d ++ a ++ i)
    obtain ⟨f0, f1, f2⟩ := shape3 sc 9#7 d a i
    rw [decodeFields_09 _ _ (fld_op _ _ _)]
    rw [hs, f0, f1, f2]))

theorem addiw (sc : BitVec 3) (d : BitVec 5) (a : BitVec 5) (i : BitVec 12) : Statement (.addiw sc d a i) :=
  fun hw => .inr (.inr (by
    refine decode_of_fields ?_ hw
    change decodeFields (pack sc 11#7 (d ++ a ++ i)) 0 = _
    have hs := fld_sc sc 11#7 (d ++ a ++ i)
    obtain ⟨f0, f1, f2⟩ := shape3 sc 11#7 d a i
    rw [decodeFields_0b _ _ (fld_op _ _ _)]
    rw [hs, f0, f1, f2]))

theorem slli (sc : BitVec 3) (d : BitVec 5) (a : BitVec 5) (h : BitVec 6) : Statement (.slli sc d a h) :=
  fun hw => .inr (.inr (by
    refine decode_of_fields ?_ hw
    change decodeFields (pack sc 10#7 (d ++ a ++ 0#6 ++ h)) 0 = _
    have hs := fld_sc sc 10#7 (d ++ a ++ 0#6 ++ h)
    obtain ⟨f0, f1, f2, f3⟩ := shape4 sc 10#7 d a 0#6 h
    rw [decodeFields_0a _ _ (fld_op _ _ _)]
    unfold decodeSHIFTI
    rw [hs, f0, f1, f3, f2]
    rfl))

theorem srli (sc : BitVec 3) (d : BitVec 5) (a : BitVec 5) (h : BitVec 6) : Statement (.srli sc d a h) :=
  fun hw => .inr (.inr (by
    refine decode_of_fields ?_ hw
    change decodeFields (pack sc 10#7 (d ++ a ++ 1#6 ++ h)) 0 = _
    have hs := fld_sc sc 10#7 (d ++ a ++ 1#6 ++ h)
    obtain ⟨f0, f1, f2, f3⟩ := shape4 sc 10#7 d a 1#6 h
    rw [decodeFields_0a _ _ (fld_op _ _ _)]
    unfold decodeSHIFTI
    rw [hs, f0, f1, f3, f2]
    rfl))

theorem srai (sc : BitVec 3) (d : BitVec 5) (a : BitVec 5) (h : BitVec 6) : Statement (.srai sc d a h) :=
  fun hw => .inr (.inr (by
    refine decode_of_fields ?_ hw
    change decodeFields (pack sc 10#7 (d ++ a ++ 2#6 ++ h)) 0 = _
    have hs := fld_sc sc 10#7 (d ++ a ++ 2#6 ++ h)
    obtain ⟨f0, f1, f2, f3⟩ := shape4 sc 10#7 d a 2#6 h
    rw [decodeFields_0a _ _ (fld_op _ _ _)]
    unfold decodeSHIFTI
    rw [hs, f0, f1, f3, f2]
    rfl))

theorem rori (sc : BitVec 3) (d : BitVec 5) (a : BitVec 5) (h : BitVec 6) : Statement (.rori sc d a h) :=
  fun hw => .inr (.inr (by
    refine decode_of_fields ?_ hw
    change decodeFields (pack sc 10#7 (d ++ a ++ 3#6 ++ h)) 0 = _
    have hs := fld_sc sc 10#7 (d ++ a ++ 3#6 ++ h)
    obtain ⟨f0, f1, f2, f3⟩ := shape4 sc 10#7 d a 3#6 h
    rw [decodeFields_0a _ _ (fld_op _ _ _)]
    unfold decodeSHIFTI
    rw [hs, f0, f1, f3, f2]
    rfl))

theorem slliw (sc : BitVec 3) (d : BitVec 5) (a : BitVec 5) (h : BitVec 5) : Statement (.slliw sc d a h) :=
  fun hw => .inr (.inr (by
    refine decode_of_fields ?_ hw
    change decodeFields (pack sc 10#7 (d ++ a ++ 8#7 ++ h)) 0 = _
    have hs := fld_sc sc 10#7 (d ++ a ++ 8#7 ++ h)
    obtain ⟨f0, f1, f2, f3, f4⟩ := shape5 sc 10#7 d a 8#7 h
    rw [decodeFields_0a _ _ (fld_op _ _ _)]
    unfold decodeSHIFTI
    rw [hs, f3, f0, f1, f4, f2]
    rfl))

theorem srliw (sc : BitVec 3) (d : BitVec 5) (a : BitVec 5) (h : BitVec 5) : Statement (.srliw sc d a h) :=
  fun hw => .inr (.inr (by
    refine decode_of_fields ?_ hw
    change decodeFields (pack sc 10#7 (d ++ a ++ 10#7 ++ h)) 0 = _
    have hs := fld_sc sc 10#7 (d ++ a ++ 10#7 ++ h)
    obtain ⟨f0, f1, f2, f3, f4⟩ := shape5 sc 10#7 d a 10#7 h
    rw [decodeFields_0a _ _ (fld_op _ _ _)]
    unfold decodeSHIFTI
    rw [hs, f3, f0, f1, f4, f2]
    rfl))

theorem sraiw (sc : BitVec 3) (d : BitVec 5) (a : BitVec 5) (h : BitVec 5) : Statement (.sraiw sc d a h) :=
  fun hw => .inr (.inr (by
    refine decode_of_fields ?_ hw
    change decodeFields (pack sc 10#7 (d ++ a ++ 12#7 ++ h)) 0 = _
    have hs := fld_sc sc 10#7 (d ++ a ++ 12#7 ++ h)
    obtain ⟨f0, f1, f2, f3, f4⟩ := shape5 sc 10#7 d a 12#7 h
    rw [decodeFields_0a _ _ (fld_op _ _ _)]
    unfold decodeSHIFTI
    rw [hs, f3, f0, f1, f4, f2]
    rfl))

theorem roriw (sc : BitVec 3) (d : BitVec 5) (a : BitVec 5) (h : BitVec 5) : Statement (.roriw sc d a h) :=
  fun hw => .inr (.inr (by
    refine decode_of_fields ?_ hw
    change decodeFields (pack sc 10#7 (d ++ a ++ 14#7 ++ h)) 0 = _
    have hs := fld_sc sc 10#7 (d ++ a ++ 14#7 ++ h)
    obtain ⟨f0, f1, f2, f3, f4⟩ := shape5 sc 10#7 d a 14#7 h
    rw [decodeFields_0a _ _ (fld_op _ _ _)]
    unfold decodeSHIFTI
    rw [hs, f3, f0, f1, f4, f2]
    rfl))

theorem lui (sc : BitVec 3) (d : BitVec 5) (i : BitVec 17) : Statement (.lui sc d i) :=
  fun hw => .inr (.inr (by
    refine decode_of_fields ?_ hw
    change decodeFields (pack sc 12#7 (d ++ i)) 0 = _
    have hs := fld_sc sc 12#7 (d ++ i)
    obtain ⟨f0, f1⟩ := shape6 sc 12#7 d i
    rw [decodeFields_0c _ _ (fld_op _ _ _)]
    rw [hs, f0, f1]))

theorem auipc (sc : BitVec 3) (d : BitVec 5) (i : BitVec 17) : Statement (.auipc sc d i) :=
  fun hw => .inr (.inr (by
    refine decode_of_fields ?_ hw
    change decodeFields (pack sc 13#7 (d ++ i)) 0 = _
    have hs := fld_sc sc 13#7 (d ++ i)
    obtain ⟨f0, f1⟩ := shape6 sc 13#7 d i
    rw [decodeFields_0d _ _ (fld_op _ _ _)]
    rw [hs, f0, f1]))

theorem liw (sc : BitVec 3) (d : BitVec 5) (imm : BitVec 32) : Statement (.liw sc d imm) :=
  fun hw => .inr (.inr (by
    refine decode_of_fields ?_ hw
    change decodeFields (pack sc 127#7 (d ++ 0#17)) imm = _
    have hs := fld_sc sc 127#7 (d ++ 0#17)
    obtain ⟨f0, -, f2, -⟩ := shape7 sc 127#7 d 0#17
    rw [decodeFields_7f _ _ (fld_op _ _ _)]
    rw [hs, f2, f0]
    rfl))

theorem beq (sc : BitVec 3) (a : BitVec 5) (b : BitVec 5) (o : BitVec 12) : Statement (.beq sc a b o) :=
  fun hw => .inr (.inr (by
    refine decode_of_fields ?_ hw
    change decodeFields (pack sc 16#7 (a ++ b ++ o)) 0 = _
    have hs := fld_sc sc 16#7 (a ++ b ++ o)
    obtain ⟨f0, f1, f2⟩ := shape3 sc 16#7 a b o
    rw [decodeFields_10 _ _ (fld_op _ _ _)]
    rw [hs, f0, f1, f2]))

theorem bne (sc : BitVec 3) (a : BitVec 5) (b : BitVec 5) (o : BitVec 12) : Statement (.bne sc a b o) :=
  fun hw => .inr (.inr (by
    refine decode_of_fields ?_ hw
    change decodeFields (pack sc 17#7 (a ++ b ++ o)) 0 = _
    have hs := fld_sc sc 17#7 (a ++ b ++ o)
    obtain ⟨f0, f1, f2⟩ := shape3 sc 17#7 a b o
    rw [decodeFields_11 _ _ (fld_op _ _ _)]
    rw [hs, f0, f1, f2]))

theorem blt (sc : BitVec 3) (a : BitVec 5) (b : BitVec 5) (o : BitVec 12) : Statement (.blt sc a b o) :=
  fun hw => .inr (.inr (by
    refine decode_of_fields ?_ hw
    change decodeFields (pack sc 18#7 (a ++ b ++ o)) 0 = _
    have hs := fld_sc sc 18#7 (a ++ b ++ o)
    obtain ⟨f0, f1, f2⟩ := shape3 sc 18#7 a b o
    rw [decodeFields_12 _ _ (fld_op _ _ _)]
    rw [hs, f0, f1, f2]))

theorem bge (sc : BitVec 3) (a : BitVec 5) (b : BitVec 5) (o : BitVec 12) : Statement (.bge sc a b o) :=
  fun hw => .inr (.inr (by
    refine decode_of_fields ?_ hw
    change decodeFields (pack sc 19#7 (a ++ b ++ o)) 0 = _
    have hs := fld_sc sc 19#7 (a ++ b ++ o)
    obtain ⟨f0, f1, f2⟩ := shape3 sc 19#7 a b o
    rw [decodeFields_13 _ _ (fld_op _ _ _)]
    rw [hs, f0, f1, f2]))

theorem bltu (sc : BitVec 3) (a : BitVec 5) (b : BitVec 5) (o : BitVec 12) : Statement (.bltu sc a b o) :=
  fun hw => .inr (.inr (by
    refine decode_of_fields ?_ hw
    change decodeFields (pack sc 20#7 (a ++ b ++ o)) 0 = _
    have hs := fld_sc sc 20#7 (a ++ b ++ o)
    obtain ⟨f0, f1, f2⟩ := shape3 sc 20#7 a b o
    rw [decodeFields_14 _ _ (fld_op _ _ _)]
    rw [hs, f0, f1, f2]))

theorem bgeu (sc : BitVec 3) (a : BitVec 5) (b : BitVec 5) (o : BitVec 12) : Statement (.bgeu sc a b o) :=
  fun hw => .inr (.inr (by
    refine decode_of_fields ?_ hw
    change decodeFields (pack sc 21#7 (a ++ b ++ o)) 0 = _
    have hs := fld_sc sc 21#7 (a ++ b ++ o)
    obtain ⟨f0, f1, f2⟩ := shape3 sc 21#7 a b o
    rw [decodeFields_15 _ _ (fld_op _ _ _)]
    rw [hs, f0, f1, f2]))

theorem jal (sc : BitVec 3) (d : BitVec 5) (o : BitVec 17) : Statement (.jal sc d o) :=
  fun hw => .inr (.inr (by
    refine decode_of_fields ?_ hw
    change decodeFields (pack sc 22#7 (d ++ o)) 0 = _
    have hs := fld_sc sc 22#7 (d ++ o)
    obtain ⟨f0, f1⟩ := shape6 sc 22#7 d o
    rw [decodeFields_16 _ _ (fld_op _ _ _)]
    rw [hs, f0, f1]))

theorem jalr (sc : BitVec 3) (d : BitVec 5) (a : BitVec 5) (i : BitVec 12) : Statement (.jalr sc d a i) :=
  fun hw => .inr (.inr (by
    refine decode_of_fields ?_ hw
    change decodeFields (pack sc 23#7 (d ++ a ++ i)) 0 = _
    have hs := fld_sc sc 23#7 (d ++ a ++ i)
    obtain ⟨f0, f1, f2⟩ := shape3 sc 23#7 d a i
    rw [decodeFields_17 _ _ (fld_op _ _ _)]
    rw [hs, f0, f1, f2]))

theorem ldb (sc : BitVec 3) (d : BitVec 5) (a : BitVec 5) (i : BitVec 12) : Statement (.ldb sc d a i) :=
  fun hw => .inr (.inr (by
    refine decode_of_fields ?_ hw
    change decodeFields (pack sc 24#7 (d ++ a ++ i)) 0 = _
    have hs := fld_sc sc 24#7 (d ++ a ++ i)
    obtain ⟨f0, f1, f2⟩ := shape3 sc 24#7 d a i
    rw [decodeFields_18 _ _ (fld_op _ _ _)]
    rw [hs, f0, f1, f2]))

theorem ldh (sc : BitVec 3) (d : BitVec 5) (a : BitVec 5) (i : BitVec 12) : Statement (.ldh sc d a i) :=
  fun hw => .inr (.inr (by
    refine decode_of_fields ?_ hw
    change decodeFields (pack sc 25#7 (d ++ a ++ i)) 0 = _
    have hs := fld_sc sc 25#7 (d ++ a ++ i)
    obtain ⟨f0, f1, f2⟩ := shape3 sc 25#7 d a i
    rw [decodeFields_19 _ _ (fld_op _ _ _)]
    rw [hs, f0, f1, f2]))

theorem ldw (sc : BitVec 3) (d : BitVec 5) (a : BitVec 5) (i : BitVec 12) : Statement (.ldw sc d a i) :=
  fun hw => .inr (.inr (by
    refine decode_of_fields ?_ hw
    change decodeFields (pack sc 26#7 (d ++ a ++ i)) 0 = _
    have hs := fld_sc sc 26#7 (d ++ a ++ i)
    obtain ⟨f0, f1, f2⟩ := shape3 sc 26#7 d a i
    rw [decodeFields_1a _ _ (fld_op _ _ _)]
    rw [hs, f0, f1, f2]))

theorem ldd (sc : BitVec 3) (d : BitVec 5) (a : BitVec 5) (i : BitVec 12) : Statement (.ldd sc d a i) :=
  fun hw => .inr (.inr (by
    refine decode_of_fields ?_ hw
    change decodeFields (pack sc 27#7 (d ++ a ++ i)) 0 = _
    have hs := fld_sc sc 27#7 (d ++ a ++ i)
    obtain ⟨f0, f1, f2⟩ := shape3 sc 27#7 d a i
    rw [decodeFields_1b _ _ (fld_op _ _ _)]
    rw [hs, f0, f1, f2]))

theorem ldbz (sc : BitVec 3) (d : BitVec 5) (a : BitVec 5) (i : BitVec 12) : Statement (.ldbz sc d a i) :=
  fun hw => .inr (.inr (by
    refine decode_of_fields ?_ hw
    change decodeFields (pack sc 28#7 (d ++ a ++ i)) 0 = _
    have hs := fld_sc sc 28#7 (d ++ a ++ i)
    obtain ⟨f0, f1, f2⟩ := shape3 sc 28#7 d a i
    rw [decodeFields_1c _ _ (fld_op _ _ _)]
    rw [hs, f0, f1, f2]))

theorem ldhz (sc : BitVec 3) (d : BitVec 5) (a : BitVec 5) (i : BitVec 12) : Statement (.ldhz sc d a i) :=
  fun hw => .inr (.inr (by
    refine decode_of_fields ?_ hw
    change decodeFields (pack sc 29#7 (d ++ a ++ i)) 0 = _
    have hs := fld_sc sc 29#7 (d ++ a ++ i)
    obtain ⟨f0, f1, f2⟩ := shape3 sc 29#7 d a i
    rw [decodeFields_1d _ _ (fld_op _ _ _)]
    rw [hs, f0, f1, f2]))

theorem ldwz (sc : BitVec 3) (d : BitVec 5) (a : BitVec 5) (i : BitVec 12) : Statement (.ldwz sc d a i) :=
  fun hw => .inr (.inr (by
    refine decode_of_fields ?_ hw
    change decodeFields (pack sc 30#7 (d ++ a ++ i)) 0 = _
    have hs := fld_sc sc 30#7 (d ++ a ++ i)
    obtain ⟨f0, f1, f2⟩ := shape3 sc 30#7 d a i
    rw [decodeFields_1e _ _ (fld_op _ _ _)]
    rw [hs, f0, f1, f2]))

theorem stb (sc : BitVec 3) (t : BitVec 5) (a : BitVec 5) (i : BitVec 12) : Statement (.stb sc t a i) :=
  fun hw => .inr (.inr (by
    refine decode_of_fields ?_ hw
    change decodeFields (pack sc 32#7 (t ++ a ++ i)) 0 = _
    have hs := fld_sc sc 32#7 (t ++ a ++ i)
    obtain ⟨f0, f1, f2⟩ := shape3 sc 32#7 t a i
    rw [decodeFields_20 _ _ (fld_op _ _ _)]
    rw [hs, f0, f1, f2]))

theorem sth (sc : BitVec 3) (t : BitVec 5) (a : BitVec 5) (i : BitVec 12) : Statement (.sth sc t a i) :=
  fun hw => .inr (.inr (by
    refine decode_of_fields ?_ hw
    change decodeFields (pack sc 33#7 (t ++ a ++ i)) 0 = _
    have hs := fld_sc sc 33#7 (t ++ a ++ i)
    obtain ⟨f0, f1, f2⟩ := shape3 sc 33#7 t a i
    rw [decodeFields_21 _ _ (fld_op _ _ _)]
    rw [hs, f0, f1, f2]))

theorem stw (sc : BitVec 3) (t : BitVec 5) (a : BitVec 5) (i : BitVec 12) : Statement (.stw sc t a i) :=
  fun hw => .inr (.inr (by
    refine decode_of_fields ?_ hw
    change decodeFields (pack sc 34#7 (t ++ a ++ i)) 0 = _
    have hs := fld_sc sc 34#7 (t ++ a ++ i)
    obtain ⟨f0, f1, f2⟩ := shape3 sc 34#7 t a i
    rw [decodeFields_22 _ _ (fld_op _ _ _)]
    rw [hs, f0, f1, f2]))

theorem std (sc : BitVec 3) (t : BitVec 5) (a : BitVec 5) (i : BitVec 12) : Statement (.std sc t a i) :=
  fun hw => .inr (.inr (by
    refine decode_of_fields ?_ hw
    change decodeFields (pack sc 35#7 (t ++ a ++ i)) 0 = _
    have hs := fld_sc sc 35#7 (t ++ a ++ i)
    obtain ⟨f0, f1, f2⟩ := shape3 sc 35#7 t a i
    rw [decodeFields_23 _ _ (fld_op _ _ _)]
    rw [hs, f0, f1, f2]))

theorem fldw (sc : BitVec 3) (d : BitVec 5) (a : BitVec 5) (i : BitVec 12) : Statement (.fldw sc d a i) :=
  fun hw => .inr (.inr (by
    refine decode_of_fields ?_ hw
    change decodeFields (pack sc 36#7 (d ++ a ++ i)) 0 = _
    have hs := fld_sc sc 36#7 (d ++ a ++ i)
    obtain ⟨f0, f1, f2⟩ := shape3 sc 36#7 d a i
    rw [decodeFields_24 _ _ (fld_op _ _ _)]
    rw [hs, f0, f1, f2]))

theorem fldd (sc : BitVec 3) (d : BitVec 5) (a : BitVec 5) (i : BitVec 12) : Statement (.fldd sc d a i) :=
  fun hw => .inr (.inr (by
    refine decode_of_fields ?_ hw
    change decodeFields (pack sc 37#7 (d ++ a ++ i)) 0 = _
    have hs := fld_sc sc 37#7 (d ++ a ++ i)
    obtain ⟨f0, f1, f2⟩ := shape3 sc 37#7 d a i
    rw [decodeFields_25 _ _ (fld_op _ _ _)]
    rw [hs, f0, f1, f2]))

theorem fstw (sc : BitVec 3) (t : BitVec 5) (a : BitVec 5) (i : BitVec 12) : Statement (.fstw sc t a i) :=
  fun hw => .inr (.inr (by
    refine decode_of_fields ?_ hw
    change decodeFields (pack sc 38#7 (t ++ a ++ i)) 0 = _
    have hs := fld_sc sc 38#7 (t ++ a ++ i)
    obtain ⟨f0, f1, f2⟩ := shape3 sc 38#7 t a i
    rw [decodeFields_26 _ _ (fld_op _ _ _)]
    rw [hs, f0, f1, f2]))

theorem fstd (sc : BitVec 3) (t : BitVec 5) (a : BitVec 5) (i : BitVec 12) : Statement (.fstd sc t a i) :=
  fun hw => .inr (.inr (by
    refine decode_of_fields ?_ hw
    change decodeFields (pack sc 39#7 (t ++ a ++ i)) 0 = _
    have hs := fld_sc sc 39#7 (t ++ a ++ i)
    obtain ⟨f0, f1, f2⟩ := shape3 sc 39#7 t a i
    rw [decodeFields_27 _ _ (fld_op _ _ _)]
    rw [hs, f0, f1, f2]))

theorem ldAcq (sc : BitVec 3) (d : BitVec 5) (a : BitVec 5) (e : BitVec 3) (z : BitVec 2) : Statement (.ldAcq sc d a e z) :=
  fun hw => .inr (.inr (by
    refine decode_of_fields ?_ hw
    change decodeFields (pack sc 40#7 (d ++ a ++ 0#7 ++ e ++ z)) 0 = _
    have hs := fld_sc sc 40#7 (d ++ a ++ 0#7 ++ e ++ z)
    obtain ⟨f0, f1, f2, f3, f4⟩ := shape8 sc 40#7 d a 0#7 e z
    rw [decodeFields_28 _ _ (fld_op _ _ _)]
    have s : (fld (pack sc 40#7 (d ++ a ++ 0#7 ++ e ++ z)) 0 7).toNat = (0 * 2 ^ 3 + e.toNat) * 2 ^ 2 + z.toNat := by
      have e0 : ((d ++ a ++ 0#7).extractLsb' 0 2).toNat = 0 := congrArg BitVec.toNat ((ext_lo (d ++ a) (0#7) 0 2 (by decide)).trans rfl)
      have e1 : ((d ++ a ++ 0#7 ++ e).extractLsb' 0 5).toNat = 0 * 2 ^ 3 + e.toNat := by
        refine (ext_span (d ++ a ++ 0#7) (e) 5 (by decide)).trans ?_
        rw [show 5 - 3 = 2 from rfl, e0]
      have e2 : ((d ++ a ++ 0#7 ++ e ++ z).extractLsb' 0 7).toNat = (0 * 2 ^ 3 + e.toNat) * 2 ^ 2 + z.toNat := by
        refine (ext_span (d ++ a ++ 0#7 ++ e) (z) 7 (by decide)).trans ?_
        rw [show 7 - 2 = 5 from rfl, e1]
      rw [fld_lo _ _ _ _ _ (by decide)]; exact e2
    unfold decodeORDERED
    rw [s]
    have b_e := e.isLt
    generalize e.toNat = n_e at b_e ⊢
    have b_z := z.isLt
    generalize z.toNat = n_z at b_z ⊢
    interval_cases n_e <;> interval_cases n_z <;> (rw [hs, f2, f0, f1, f3, f4]; rfl)))

theorem stRel (sc : BitVec 3) (a : BitVec 5) (b : BitVec 5) (e : BitVec 3) (z : BitVec 2) : Statement (.stRel sc a b e z) :=
  fun hw => .inr (.inr (by
    refine decode_of_fields ?_ hw
    change decodeFields (pack sc 40#7 (0#5 ++ a ++ b ++ 1#2 ++ e ++ z)) 0 = _
    have hs := fld_sc sc 40#7 (0#5 ++ a ++ b ++ 1#2 ++ e ++ z)
    obtain ⟨f0, f1, f2, f3, f4⟩ := shape9 sc 40#7 0#5 a b 1#2 e z
    rw [decodeFields_28 _ _ (fld_op _ _ _)]
    have s : (fld (pack sc 40#7 (0#5 ++ a ++ b ++ 1#2 ++ e ++ z)) 0 7).toNat = (1 * 2 ^ 3 + e.toNat) * 2 ^ 2 + z.toNat := by
      have e0 : ((0#5 ++ a ++ b ++ 1#2).extractLsb' 0 2).toNat = 1 := congrArg BitVec.toNat ((ext_lo (0#5 ++ a ++ b) (1#2) 0 2 (by decide)).trans rfl)
      have e1 : ((0#5 ++ a ++ b ++ 1#2 ++ e).extractLsb' 0 5).toNat = 1 * 2 ^ 3 + e.toNat := by
        refine (ext_span (0#5 ++ a ++ b ++ 1#2) (e) 5 (by decide)).trans ?_
        rw [show 5 - 3 = 2 from rfl, e0]
      have e2 : ((0#5 ++ a ++ b ++ 1#2 ++ e ++ z).extractLsb' 0 7).toNat = (1 * 2 ^ 3 + e.toNat) * 2 ^ 2 + z.toNat := by
        refine (ext_span (0#5 ++ a ++ b ++ 1#2 ++ e) (z) 7 (by decide)).trans ?_
        rw [show 7 - 2 = 5 from rfl, e1]
      rw [fld_lo _ _ _ _ _ (by decide)]; exact e2
    unfold decodeORDERED
    rw [s]
    have b_e := e.isLt
    generalize e.toNat = n_e at b_e ⊢
    have b_z := z.isLt
    generalize z.toNat = n_z at b_z ⊢
    interval_cases n_e <;> interval_cases n_z <;> (rw [hs, f0, f1, f2, f3, f4]; rfl)))

theorem setfull (sc : BitVec 3) (a : BitVec 5) : Statement (.setfull sc a) :=
  fun hw => .inr (.inr (by
    refine decode_of_fields ?_ hw
    change decodeFields (pack sc 41#7 (0#5 ++ a ++ 0#12)) 0 = _
    have hs := fld_sc sc 41#7 (0#5 ++ a ++ 0#12)
    obtain ⟨f0, f1, f2, f3⟩ := shape10 sc 41#7 0#5 a 0#12
    rw [decodeFields_29 _ _ (fld_op _ _ _)]
    unfold decodeFEMEM
    rw [hs, f0, f2, f1, f3]
    rfl))

theorem setempty (sc : BitVec 3) (a : BitVec 5) : Statement (.setempty sc a) :=
  fun hw => .inr (.inr (by
    refine decode_of_fields ?_ hw
    change decodeFields (pack sc 41#7 (0#5 ++ a ++ 1#12)) 0 = _
    have hs := fld_sc sc 41#7 (0#5 ++ a ++ 1#12)
    obtain ⟨f0, f1, f2, f3⟩ := shape10 sc 41#7 0#5 a 1#12
    rw [decodeFields_29 _ _ (fld_op _ _ _)]
    unfold decodeFEMEM
    rw [hs, f0, f2, f1, f3]
    rfl))

theorem ldtake (sc : BitVec 3) (d : BitVec 5) (a : BitVec 5) : Statement (.ldtake sc d a) :=
  fun hw => .inr (.inr (by
    refine decode_of_fields ?_ hw
    change decodeFields (pack sc 41#7 (d ++ a ++ 2#12)) 0 = _
    have hs := fld_sc sc 41#7 (d ++ a ++ 2#12)
    obtain ⟨f0, f1, f2, f3⟩ := shape1 sc 41#7 d a 2#12
    rw [decodeFields_29 _ _ (fld_op _ _ _)]
    unfold decodeFEMEM
    rw [hs, f2, f0, f1, f3]
    rfl))

theorem stfill (sc : BitVec 3) (a : BitVec 5) (b : BitVec 5) : Statement (.stfill sc a b) :=
  fun hw => .inr (.inr (by
    refine decode_of_fields ?_ hw
    change decodeFields (pack sc 41#7 (0#5 ++ a ++ b ++ 3#7)) 0 = _
    have hs := fld_sc sc 41#7 (0#5 ++ a ++ b ++ 3#7)
    obtain ⟨f0, f1, f2, f3⟩ := shape11 sc 41#7 0#5 a b 3#7
    rw [decodeFields_29 _ _ (fld_op _ _ _)]
    unfold decodeFEMEM
    rw [hs, f0, f1, f2, f3]
    rfl))

theorem festat (sc : BitVec 3) (d : BitVec 5) (a : BitVec 5) : Statement (.festat sc d a) :=
  fun hw => .inr (.inr (by
    refine decode_of_fields ?_ hw
    change decodeFields (pack sc 41#7 (d ++ a ++ 4#12)) 0 = _
    have hs := fld_sc sc 41#7 (d ++ a ++ 4#12)
    obtain ⟨f0, f1, f2, f3⟩ := shape1 sc 41#7 d a 4#12
    rw [decodeFields_29 _ _ (fld_op _ _ _)]
    unfold decodeFEMEM
    rw [hs, f2, f0, f1, f3]
    rfl))

theorem amoadd (sc : BitVec 3) (d : BitVec 5) (a : BitVec 5) (b : BitVec 5) (w : BitVec 1) : Statement (.amoadd sc d a b w) :=
  fun hw => .inr (.inr (by
    refine decode_of_fields ?_ hw
    change decodeFields (pack sc 42#7 (d ++ a ++ b ++ 0#3 ++ w ++ 0#3)) 0 = _
    have hs := fld_sc sc 42#7 (d ++ a ++ b ++ 0#3 ++ w ++ 0#3)
    obtain ⟨f0, f1, f2, f3⟩ := shape12 sc 42#7 d a b 0#3 w 0#3
    rw [decodeFields_2a _ _ (fld_op _ _ _)]
    have s : (fld (pack sc 42#7 (d ++ a ++ b ++ 0#3 ++ w ++ 0#3)) 0 7).toNat = (0 * 2 ^ 1 + w.toNat) * 2 ^ 3 + 0 := by
      have e0 : ((d ++ a ++ b ++ 0#3).extractLsb' 0 3).toNat = 0 := congrArg BitVec.toNat ((ext_lo (d ++ a ++ b) (0#3) 0 3 (by decide)).trans rfl)
      have e1 : ((d ++ a ++ b ++ 0#3 ++ w).extractLsb' 0 4).toNat = 0 * 2 ^ 1 + w.toNat := by
        refine (ext_span (d ++ a ++ b ++ 0#3) (w) 4 (by decide)).trans ?_
        rw [show 4 - 1 = 3 from rfl, e0]
      have e2 : ((d ++ a ++ b ++ 0#3 ++ w ++ 0#3).extractLsb' 0 7).toNat = (0 * 2 ^ 1 + w.toNat) * 2 ^ 3 + 0 := by
        refine (ext_span (d ++ a ++ b ++ 0#3 ++ w) (0#3) 7 (by decide)).trans ?_
        rw [show 7 - 3 = 4 from rfl, e1]; rfl
      rw [fld_lo _ _ _ _ _ (by decide)]; exact e2
    unfold decodeATOMIC
    rw [s]
    have b_w := w.isLt
    generalize w.toNat = n_w at b_w ⊢
    interval_cases n_w <;> (rw [hs, f0, f1, f2, f3]; rfl)))

theorem amomin (sc : BitVec 3) (d : BitVec 5) (a : BitVec 5) (b : BitVec 5) (w : BitVec 1) : Statement (.amomin sc d a b w) :=
  fun hw => .inr (.inr (by
    refine decode_of_fields ?_ hw
    change decodeFields (pack sc 42#7 (d ++ a ++ b ++ 0#3 ++ w ++ 1#3)) 0 = _
    have hs := fld_sc sc 42#7 (d ++ a ++ b ++ 0#3 ++ w ++ 1#3)
    obtain ⟨f0, f1, f2, f3⟩ := shape12 sc 42#7 d a b 0#3 w 1#3
    rw [decodeFields_2a _ _ (fld_op _ _ _)]
    have s : (fld (pack sc 42#7 (d ++ a ++ b ++ 0#3 ++ w ++ 1#3)) 0 7).toNat = (0 * 2 ^ 1 + w.toNat) * 2 ^ 3 + 1 := by
      have e0 : ((d ++ a ++ b ++ 0#3).extractLsb' 0 3).toNat = 0 := congrArg BitVec.toNat ((ext_lo (d ++ a ++ b) (0#3) 0 3 (by decide)).trans rfl)
      have e1 : ((d ++ a ++ b ++ 0#3 ++ w).extractLsb' 0 4).toNat = 0 * 2 ^ 1 + w.toNat := by
        refine (ext_span (d ++ a ++ b ++ 0#3) (w) 4 (by decide)).trans ?_
        rw [show 4 - 1 = 3 from rfl, e0]
      have e2 : ((d ++ a ++ b ++ 0#3 ++ w ++ 1#3).extractLsb' 0 7).toNat = (0 * 2 ^ 1 + w.toNat) * 2 ^ 3 + 1 := by
        refine (ext_span (d ++ a ++ b ++ 0#3 ++ w) (1#3) 7 (by decide)).trans ?_
        rw [show 7 - 3 = 4 from rfl, e1]; rfl
      rw [fld_lo _ _ _ _ _ (by decide)]; exact e2
    unfold decodeATOMIC
    rw [s]
    have b_w := w.isLt
    generalize w.toNat = n_w at b_w ⊢
    interval_cases n_w <;> (rw [hs, f0, f1, f2, f3]; rfl)))

theorem amomax (sc : BitVec 3) (d : BitVec 5) (a : BitVec 5) (b : BitVec 5) (w : BitVec 1) : Statement (.amomax sc d a b w) :=
  fun hw => .inr (.inr (by
    refine decode_of_fields ?_ hw
    change decodeFields (pack sc 42#7 (d ++ a ++ b ++ 0#3 ++ w ++ 2#3)) 0 = _
    have hs := fld_sc sc 42#7 (d ++ a ++ b ++ 0#3 ++ w ++ 2#3)
    obtain ⟨f0, f1, f2, f3⟩ := shape12 sc 42#7 d a b 0#3 w 2#3
    rw [decodeFields_2a _ _ (fld_op _ _ _)]
    have s : (fld (pack sc 42#7 (d ++ a ++ b ++ 0#3 ++ w ++ 2#3)) 0 7).toNat = (0 * 2 ^ 1 + w.toNat) * 2 ^ 3 + 2 := by
      have e0 : ((d ++ a ++ b ++ 0#3).extractLsb' 0 3).toNat = 0 := congrArg BitVec.toNat ((ext_lo (d ++ a ++ b) (0#3) 0 3 (by decide)).trans rfl)
      have e1 : ((d ++ a ++ b ++ 0#3 ++ w).extractLsb' 0 4).toNat = 0 * 2 ^ 1 + w.toNat := by
        refine (ext_span (d ++ a ++ b ++ 0#3) (w) 4 (by decide)).trans ?_
        rw [show 4 - 1 = 3 from rfl, e0]
      have e2 : ((d ++ a ++ b ++ 0#3 ++ w ++ 2#3).extractLsb' 0 7).toNat = (0 * 2 ^ 1 + w.toNat) * 2 ^ 3 + 2 := by
        refine (ext_span (d ++ a ++ b ++ 0#3 ++ w) (2#3) 7 (by decide)).trans ?_
        rw [show 7 - 3 = 4 from rfl, e1]; rfl
      rw [fld_lo _ _ _ _ _ (by decide)]; exact e2
    unfold decodeATOMIC
    rw [s]
    have b_w := w.isLt
    generalize w.toNat = n_w at b_w ⊢
    interval_cases n_w <;> (rw [hs, f0, f1, f2, f3]; rfl)))

theorem amoand (sc : BitVec 3) (d : BitVec 5) (a : BitVec 5) (b : BitVec 5) (w : BitVec 1) : Statement (.amoand sc d a b w) :=
  fun hw => .inr (.inr (by
    refine decode_of_fields ?_ hw
    change decodeFields (pack sc 42#7 (d ++ a ++ b ++ 0#3 ++ w ++ 3#3)) 0 = _
    have hs := fld_sc sc 42#7 (d ++ a ++ b ++ 0#3 ++ w ++ 3#3)
    obtain ⟨f0, f1, f2, f3⟩ := shape12 sc 42#7 d a b 0#3 w 3#3
    rw [decodeFields_2a _ _ (fld_op _ _ _)]
    have s : (fld (pack sc 42#7 (d ++ a ++ b ++ 0#3 ++ w ++ 3#3)) 0 7).toNat = (0 * 2 ^ 1 + w.toNat) * 2 ^ 3 + 3 := by
      have e0 : ((d ++ a ++ b ++ 0#3).extractLsb' 0 3).toNat = 0 := congrArg BitVec.toNat ((ext_lo (d ++ a ++ b) (0#3) 0 3 (by decide)).trans rfl)
      have e1 : ((d ++ a ++ b ++ 0#3 ++ w).extractLsb' 0 4).toNat = 0 * 2 ^ 1 + w.toNat := by
        refine (ext_span (d ++ a ++ b ++ 0#3) (w) 4 (by decide)).trans ?_
        rw [show 4 - 1 = 3 from rfl, e0]
      have e2 : ((d ++ a ++ b ++ 0#3 ++ w ++ 3#3).extractLsb' 0 7).toNat = (0 * 2 ^ 1 + w.toNat) * 2 ^ 3 + 3 := by
        refine (ext_span (d ++ a ++ b ++ 0#3 ++ w) (3#3) 7 (by decide)).trans ?_
        rw [show 7 - 3 = 4 from rfl, e1]; rfl
      rw [fld_lo _ _ _ _ _ (by decide)]; exact e2
    unfold decodeATOMIC
    rw [s]
    have b_w := w.isLt
    generalize w.toNat = n_w at b_w ⊢
    interval_cases n_w <;> (rw [hs, f0, f1, f2, f3]; rfl)))

theorem amoor (sc : BitVec 3) (d : BitVec 5) (a : BitVec 5) (b : BitVec 5) (w : BitVec 1) : Statement (.amoor sc d a b w) :=
  fun hw => .inr (.inr (by
    refine decode_of_fields ?_ hw
    change decodeFields (pack sc 42#7 (d ++ a ++ b ++ 0#3 ++ w ++ 4#3)) 0 = _
    have hs := fld_sc sc 42#7 (d ++ a ++ b ++ 0#3 ++ w ++ 4#3)
    obtain ⟨f0, f1, f2, f3⟩ := shape12 sc 42#7 d a b 0#3 w 4#3
    rw [decodeFields_2a _ _ (fld_op _ _ _)]
    have s : (fld (pack sc 42#7 (d ++ a ++ b ++ 0#3 ++ w ++ 4#3)) 0 7).toNat = (0 * 2 ^ 1 + w.toNat) * 2 ^ 3 + 4 := by
      have e0 : ((d ++ a ++ b ++ 0#3).extractLsb' 0 3).toNat = 0 := congrArg BitVec.toNat ((ext_lo (d ++ a ++ b) (0#3) 0 3 (by decide)).trans rfl)
      have e1 : ((d ++ a ++ b ++ 0#3 ++ w).extractLsb' 0 4).toNat = 0 * 2 ^ 1 + w.toNat := by
        refine (ext_span (d ++ a ++ b ++ 0#3) (w) 4 (by decide)).trans ?_
        rw [show 4 - 1 = 3 from rfl, e0]
      have e2 : ((d ++ a ++ b ++ 0#3 ++ w ++ 4#3).extractLsb' 0 7).toNat = (0 * 2 ^ 1 + w.toNat) * 2 ^ 3 + 4 := by
        refine (ext_span (d ++ a ++ b ++ 0#3 ++ w) (4#3) 7 (by decide)).trans ?_
        rw [show 7 - 3 = 4 from rfl, e1]; rfl
      rw [fld_lo _ _ _ _ _ (by decide)]; exact e2
    unfold decodeATOMIC
    rw [s]
    have b_w := w.isLt
    generalize w.toNat = n_w at b_w ⊢
    interval_cases n_w <;> (rw [hs, f0, f1, f2, f3]; rfl)))

theorem amoxor (sc : BitVec 3) (d : BitVec 5) (a : BitVec 5) (b : BitVec 5) (w : BitVec 1) : Statement (.amoxor sc d a b w) :=
  fun hw => .inr (.inr (by
    refine decode_of_fields ?_ hw
    change decodeFields (pack sc 42#7 (d ++ a ++ b ++ 0#3 ++ w ++ 5#3)) 0 = _
    have hs := fld_sc sc 42#7 (d ++ a ++ b ++ 0#3 ++ w ++ 5#3)
    obtain ⟨f0, f1, f2, f3⟩ := shape12 sc 42#7 d a b 0#3 w 5#3
    rw [decodeFields_2a _ _ (fld_op _ _ _)]
    have s : (fld (pack sc 42#7 (d ++ a ++ b ++ 0#3 ++ w ++ 5#3)) 0 7).toNat = (0 * 2 ^ 1 + w.toNat) * 2 ^ 3 + 5 := by
      have e0 : ((d ++ a ++ b ++ 0#3).extractLsb' 0 3).toNat = 0 := congrArg BitVec.toNat ((ext_lo (d ++ a ++ b) (0#3) 0 3 (by decide)).trans rfl)
      have e1 : ((d ++ a ++ b ++ 0#3 ++ w).extractLsb' 0 4).toNat = 0 * 2 ^ 1 + w.toNat := by
        refine (ext_span (d ++ a ++ b ++ 0#3) (w) 4 (by decide)).trans ?_
        rw [show 4 - 1 = 3 from rfl, e0]
      have e2 : ((d ++ a ++ b ++ 0#3 ++ w ++ 5#3).extractLsb' 0 7).toNat = (0 * 2 ^ 1 + w.toNat) * 2 ^ 3 + 5 := by
        refine (ext_span (d ++ a ++ b ++ 0#3 ++ w) (5#3) 7 (by decide)).trans ?_
        rw [show 7 - 3 = 4 from rfl, e1]; rfl
      rw [fld_lo _ _ _ _ _ (by decide)]; exact e2
    unfold decodeATOMIC
    rw [s]
    have b_w := w.isLt
    generalize w.toNat = n_w at b_w ⊢
    interval_cases n_w <;> (rw [hs, f0, f1, f2, f3]; rfl)))

theorem amoswap (sc : BitVec 3) (d : BitVec 5) (a : BitVec 5) (b : BitVec 5) (w : BitVec 1) : Statement (.amoswap sc d a b w) :=
  fun hw => .inr (.inr (by
    refine decode_of_fields ?_ hw
    change decodeFields (pack sc 42#7 (d ++ a ++ b ++ 0#3 ++ w ++ 6#3)) 0 = _
    have hs := fld_sc sc 42#7 (d ++ a ++ b ++ 0#3 ++ w ++ 6#3)
    obtain ⟨f0, f1, f2, f3⟩ := shape12 sc 42#7 d a b 0#3 w 6#3
    rw [decodeFields_2a _ _ (fld_op _ _ _)]
    have s : (fld (pack sc 42#7 (d ++ a ++ b ++ 0#3 ++ w ++ 6#3)) 0 7).toNat = (0 * 2 ^ 1 + w.toNat) * 2 ^ 3 + 6 := by
      have e0 : ((d ++ a ++ b ++ 0#3).extractLsb' 0 3).toNat = 0 := congrArg BitVec.toNat ((ext_lo (d ++ a ++ b) (0#3) 0 3 (by decide)).trans rfl)
      have e1 : ((d ++ a ++ b ++ 0#3 ++ w).extractLsb' 0 4).toNat = 0 * 2 ^ 1 + w.toNat := by
        refine (ext_span (d ++ a ++ b ++ 0#3) (w) 4 (by decide)).trans ?_
        rw [show 4 - 1 = 3 from rfl, e0]
      have e2 : ((d ++ a ++ b ++ 0#3 ++ w ++ 6#3).extractLsb' 0 7).toNat = (0 * 2 ^ 1 + w.toNat) * 2 ^ 3 + 6 := by
        refine (ext_span (d ++ a ++ b ++ 0#3 ++ w) (6#3) 7 (by decide)).trans ?_
        rw [show 7 - 3 = 4 from rfl, e1]; rfl
      rw [fld_lo _ _ _ _ _ (by decide)]; exact e2
    unfold decodeATOMIC
    rw [s]
    have b_w := w.isLt
    generalize w.toNat = n_w at b_w ⊢
    interval_cases n_w <;> (rw [hs, f0, f1, f2, f3]; rfl)))

theorem amocas (sc : BitVec 3) (d : BitVec 5) (a : BitVec 5) (b : BitVec 5) (w : BitVec 1) : Statement (.amocas sc d a b w) :=
  fun hw => .inr (.inr (by
    refine decode_of_fields ?_ hw
    change decodeFields (pack sc 42#7 (d ++ a ++ b ++ 0#3 ++ w ++ 7#3)) 0 = _
    have hs := fld_sc sc 42#7 (d ++ a ++ b ++ 0#3 ++ w ++ 7#3)
    obtain ⟨f0, f1, f2, f3⟩ := shape12 sc 42#7 d a b 0#3 w 7#3
    rw [decodeFields_2a _ _ (fld_op _ _ _)]
    have s : (fld (pack sc 42#7 (d ++ a ++ b ++ 0#3 ++ w ++ 7#3)) 0 7).toNat = (0 * 2 ^ 1 + w.toNat) * 2 ^ 3 + 7 := by
      have e0 : ((d ++ a ++ b ++ 0#3).extractLsb' 0 3).toNat = 0 := congrArg BitVec.toNat ((ext_lo (d ++ a ++ b) (0#3) 0 3 (by decide)).trans rfl)
      have e1 : ((d ++ a ++ b ++ 0#3 ++ w).extractLsb' 0 4).toNat = 0 * 2 ^ 1 + w.toNat := by
        refine (ext_span (d ++ a ++ b ++ 0#3) (w) 4 (by decide)).trans ?_
        rw [show 4 - 1 = 3 from rfl, e0]
      have e2 : ((d ++ a ++ b ++ 0#3 ++ w ++ 7#3).extractLsb' 0 7).toNat = (0 * 2 ^ 1 + w.toNat) * 2 ^ 3 + 7 := by
        refine (ext_span (d ++ a ++ b ++ 0#3 ++ w) (7#3) 7 (by decide)).trans ?_
        rw [show 7 - 3 = 4 from rfl, e1]; rfl
      rw [fld_lo _ _ _ _ _ (by decide)]; exact e2
    unfold decodeATOMIC
    rw [s]
    have b_w := w.isLt
    generalize w.toNat = n_w at b_w ⊢
    interval_cases n_w <;> (rw [hs, f0, f1, f2, f3]; rfl)))

theorem accF32 (sc : BitVec 3) (a : BitVec 5) (b : BitVec 5) : Statement (.accF32 sc a b) :=
  fun hw => .inr (.inr (by
    refine decode_of_fields ?_ hw
    change decodeFields (pack sc 43#7 (0#5 ++ a ++ b ++ 0#7)) 0 = _
    have hs := fld_sc sc 43#7 (0#5 ++ a ++ b ++ 0#7)
    obtain ⟨f0, f1, f2, f3⟩ := shape11 sc 43#7 0#5 a b 0#7
    rw [decodeFields_2b _ _ (fld_op _ _ _)]
    unfold decodeACCUM
    rw [hs, f0, f1, f2, f3]
    rfl))

theorem accBf (sc : BitVec 3) (a : BitVec 5) (b : BitVec 5) : Statement (.accBf sc a b) :=
  fun hw => .inr (.inr (by
    refine decode_of_fields ?_ hw
    change decodeFields (pack sc 43#7 (0#5 ++ a ++ b ++ 1#7)) 0 = _
    have hs := fld_sc sc 43#7 (0#5 ++ a ++ b ++ 1#7)
    obtain ⟨f0, f1, f2, f3⟩ := shape11 sc 43#7 0#5 a b 1#7
    rw [decodeFields_2b _ _ (fld_op _ _ _)]
    unfold decodeACCUM
    rw [hs, f0, f1, f2, f3]
    rfl))

theorem accS32 (sc : BitVec 3) (a : BitVec 5) (b : BitVec 5) : Statement (.accS32 sc a b) :=
  fun hw => .inr (.inr (by
    refine decode_of_fields ?_ hw
    change decodeFields (pack sc 43#7 (0#5 ++ a ++ b ++ 2#7)) 0 = _
    have hs := fld_sc sc 43#7 (0#5 ++ a ++ b ++ 2#7)
    obtain ⟨f0, f1, f2, f3⟩ := shape11 sc 43#7 0#5 a b 2#7
    rw [decodeFields_2b _ _ (fld_op _ _ _)]
    unfold decodeACCUM
    rw [hs, f0, f1, f2, f3]
    rfl))

theorem accS64 (sc : BitVec 3) (a : BitVec 5) (b : BitVec 5) : Statement (.accS64 sc a b) :=
  fun hw => .inr (.inr (by
    refine decode_of_fields ?_ hw
    change decodeFields (pack sc 43#7 (0#5 ++ a ++ b ++ 3#7)) 0 = _
    have hs := fld_sc sc 43#7 (0#5 ++ a ++ b ++ 3#7)
    obtain ⟨f0, f1, f2, f3⟩ := shape11 sc 43#7 0#5 a b 3#7
    rw [decodeFields_2b _ _ (fld_op _ _ _)]
    unfold decodeACCUM
    rw [hs, f0, f1, f2, f3]
    rfl))

theorem flushres (sc : BitVec 3) : Statement (.flushres sc) :=
  fun hw => .inr (.inr (by
    refine decode_of_fields ?_ hw
    change decodeFields (pack sc 43#7 (16#22)) 0 = _
    have hs := fld_sc sc 43#7 (16#22)
    obtain ⟨f0, f1⟩ := shape13 sc 43#7 16#22
    rw [decodeFields_2b _ _ (fld_op _ _ _)]
    unfold decodeACCUM
    rw [hs, f0, f1]
    rfl))

theorem tailstat (sc : BitVec 3) (d : BitVec 5) (a : BitVec 5) : Statement (.tailstat sc d a) :=
  fun hw => .inr (.inr (by
    refine decode_of_fields ?_ hw
    change decodeFields (pack sc 43#7 (d ++ a ++ 17#12)) 0 = _
    have hs := fld_sc sc 43#7 (d ++ a ++ 17#12)
    obtain ⟨f0, f1, f2, f3⟩ := shape1 sc 43#7 d a 17#12
    rw [decodeFields_2b _ _ (fld_op _ _ _)]
    unfold decodeACCUM
    rw [hs, f2, f0, f1, f3]
    rfl))

theorem csrrw (sc : BitVec 3) (d : BitVec 5) (a : BitVec 5) (c : BitVec 12) : Statement (.csrrw sc d a c) :=
  fun hw => .inr (.inr (by
    refine decode_of_fields ?_ hw
    change decodeFields (pack sc 48#7 (d ++ a ++ c)) 0 = _
    have hs := fld_sc sc 48#7 (d ++ a ++ c)
    obtain ⟨f0, f1, f2⟩ := shape3 sc 48#7 d a c
    rw [decodeFields_30 _ _ (fld_op _ _ _)]
    rw [hs, f0, f1, f2]))

theorem csrrs (sc : BitVec 3) (d : BitVec 5) (a : BitVec 5) (c : BitVec 12) : Statement (.csrrs sc d a c) :=
  fun hw => .inr (.inr (by
    refine decode_of_fields ?_ hw
    change decodeFields (pack sc 49#7 (d ++ a ++ c)) 0 = _
    have hs := fld_sc sc 49#7 (d ++ a ++ c)
    obtain ⟨f0, f1, f2⟩ := shape3 sc 49#7 d a c
    rw [decodeFields_31 _ _ (fld_op _ _ _)]
    rw [hs, f0, f1, f2]))

theorem csrrc (sc : BitVec 3) (d : BitVec 5) (a : BitVec 5) (c : BitVec 12) : Statement (.csrrc sc d a c) :=
  fun hw => .inr (.inr (by
    refine decode_of_fields ?_ hw
    change decodeFields (pack sc 50#7 (d ++ a ++ c)) 0 = _
    have hs := fld_sc sc 50#7 (d ++ a ++ c)
    obtain ⟨f0, f1, f2⟩ := shape3 sc 50#7 d a c
    rw [decodeFields_32 _ _ (fld_op _ _ _)]
    rw [hs, f0, f1, f2]))

theorem csrrwi (sc : BitVec 3) (d : BitVec 5) (i : BitVec 5) (c : BitVec 12) : Statement (.csrrwi sc d i c) :=
  fun hw => .inr (.inr (by
    refine decode_of_fields ?_ hw
    change decodeFields (pack sc 51#7 (d ++ i ++ c)) 0 = _
    have hs := fld_sc sc 51#7 (d ++ i ++ c)
    obtain ⟨f0, f1, f2⟩ := shape3 sc 51#7 d i c
    rw [decodeFields_33 _ _ (fld_op _ _ _)]
    rw [hs, f0, f1, f2]))

theorem csrrsi (sc : BitVec 3) (d : BitVec 5) (i : BitVec 5) (c : BitVec 12) : Statement (.csrrsi sc d i c) :=
  fun hw => .inr (.inr (by
    refine decode_of_fields ?_ hw
    change decodeFields (pack sc 52#7 (d ++ i ++ c)) 0 = _
    have hs := fld_sc sc 52#7 (d ++ i ++ c)
    obtain ⟨f0, f1, f2⟩ := shape3 sc 52#7 d i c
    rw [decodeFields_34 _ _ (fld_op _ _ _)]
    rw [hs, f0, f1, f2]))

theorem csrrci (sc : BitVec 3) (d : BitVec 5) (i : BitVec 5) (c : BitVec 12) : Statement (.csrrci sc d i c) :=
  fun hw => .inr (.inr (by
    refine decode_of_fields ?_ hw
    change decodeFields (pack sc 53#7 (d ++ i ++ c)) 0 = _
    have hs := fld_sc sc 53#7 (d ++ i ++ c)
    obtain ⟨f0, f1, f2⟩ := shape3 sc 53#7 d i c
    rw [decodeFields_35 _ _ (fld_op _ _ _)]
    rw [hs, f0, f1, f2]))

theorem ecall (sc : BitVec 3) : Statement (.ecall sc) :=
  fun hw => .inr (.inr (by
    refine decode_of_fields ?_ hw
    change decodeFields (pack sc 54#7 (0#22)) 0 = _
    have hs := fld_sc sc 54#7 (0#22)
    obtain ⟨f0, f1⟩ := shape13 sc 54#7 0#22
    rw [decodeFields_36 _ _ (fld_op _ _ _)]
    unfold decodeSYSTEM
    rw [hs, f0, f1]
    rfl))

theorem ebreak (sc : BitVec 3) : Statement (.ebreak sc) :=
  fun hw => .inr (.inr (by
    refine decode_of_fields ?_ hw
    change decodeFields (pack sc 54#7 (1#22)) 0 = _
    have hs := fld_sc sc 54#7 (1#22)
    obtain ⟨f0, f1⟩ := shape13 sc 54#7 1#22
    rw [decodeFields_36 _ _ (fld_op _ _ _)]
    unfold decodeSYSTEM
    rw [hs, f0, f1]
    rfl))

theorem uret (sc : BitVec 3) : Statement (.uret sc) :=
  fun hw => .inr (.inr (by
    refine decode_of_fields ?_ hw
    change decodeFields (pack sc 54#7 (2#22)) 0 = _
    have hs := fld_sc sc 54#7 (2#22)
    obtain ⟨f0, f1⟩ := shape13 sc 54#7 2#22
    rw [decodeFields_36 _ _ (fld_op _ _ _)]
    unfold decodeSYSTEM
    rw [hs, f0, f1]
    rfl))

theorem kret (sc : BitVec 3) : Statement (.kret sc) :=
  fun hw => .inr (.inr (by
    refine decode_of_fields ?_ hw
    change decodeFields (pack sc 54#7 (3#22)) 0 = _
    have hs := fld_sc sc 54#7 (3#22)
    obtain ⟨f0, f1⟩ := shape13 sc 54#7 3#22
    rw [decodeFields_36 _ _ (fld_op _ _ _)]
    unfold decodeSYSTEM
    rw [hs, f0, f1]
    rfl))

theorem fret (sc : BitVec 3) : Statement (.fret sc) :=
  fun hw => .inr (.inr (by
    refine decode_of_fields ?_ hw
    change decodeFields (pack sc 54#7 (4#22)) 0 = _
    have hs := fld_sc sc 54#7 (4#22)
    obtain ⟨f0, f1⟩ := shape13 sc 54#7 4#22
    rw [decodeFields_36 _ _ (fld_op _ _ _)]
    unfold decodeSYSTEM
    rw [hs, f0, f1]
    rfl))

theorem wfi (sc : BitVec 3) : Statement (.wfi sc) :=
  fun hw => .inr (.inr (by
    refine decode_of_fields ?_ hw
    change decodeFields (pack sc 54#7 (5#22)) 0 = _
    have hs := fld_sc sc 54#7 (5#22)
    obtain ⟨f0, f1⟩ := shape13 sc 54#7 5#22
    rw [decodeFields_36 _ _ (fld_op _ _ _)]
    unfold decodeSYSTEM
    rw [hs, f0, f1]
    rfl))

theorem fenceI (sc : BitVec 3) : Statement (.fenceI sc) :=
  fun hw => .inr (.inr (by
    refine decode_of_fields ?_ hw
    change decodeFields (pack sc 54#7 (6#22)) 0 = _
    have hs := fld_sc sc 54#7 (6#22)
    obtain ⟨f0, f1⟩ := shape13 sc 54#7 6#22
    rw [decodeFields_36 _ _ (fld_op _ _ _)]
    unfold decodeSYSTEM
    rw [hs, f0, f1]
    rfl))

theorem tlbinv (sc : BitVec 3) (a : BitVec 5) (b : BitVec 5) : Statement (.tlbinv sc a b) :=
  fun hw => .inr (.inr (by
    refine decode_of_fields ?_ hw
    change decodeFields (pack sc 54#7 (0#5 ++ a ++ b ++ 8#7)) 0 = _
    have hs := fld_sc sc 54#7 (0#5 ++ a ++ b ++ 8#7)
    obtain ⟨f0, f1, f2, f3⟩ := shape11 sc 54#7 0#5 a b 8#7
    rw [decodeFields_36 _ _ (fld_op _ _ _)]
    unfold decodeSYSTEM
    rw [hs, f0, f1, f2, f3]
    rfl))

theorem savept (sc : BitVec 3) : Statement (.savept sc) :=
  fun hw => .inr (.inr (by
    refine decode_of_fields ?_ hw
    change decodeFields (pack sc 54#7 (9#22)) 0 = _
    have hs := fld_sc sc 54#7 (9#22)
    obtain ⟨f0, f1⟩ := shape13 sc 54#7 9#22
    rw [decodeFields_36 _ _ (fld_op _ _ _)]
    unfold decodeSYSTEM
    rw [hs, f0, f1]
    rfl))

theorem ckpt (sc : BitVec 3) : Statement (.ckpt sc) :=
  fun hw => .inr (.inr (by
    refine decode_of_fields ?_ hw
    change decodeFields (pack sc 54#7 (10#22)) 0 = _
    have hs := fld_sc sc 54#7 (10#22)
    obtain ⟨f0, f1⟩ := shape13 sc 54#7 10#22
    rw [decodeFields_36 _ _ (fld_op _ _ _)]
    unfold decodeSYSTEM
    rw [hs, f0, f1]
    rfl))

theorem tstamp (sc : BitVec 3) (d : BitVec 5) : Statement (.tstamp sc d) :=
  fun hw => .inr (.inr (by
    refine decode_of_fields ?_ hw
    change decodeFields (pack sc 54#7 (d ++ 11#17)) 0 = _
    have hs := fld_sc sc 54#7 (d ++ 11#17)
    obtain ⟨f0, f1, -, f3⟩ := shape7 sc 54#7 d 11#17
    rw [decodeFields_36 _ _ (fld_op _ _ _)]
    unfold decodeSYSTEM
    rw [hs, f1, f0, f3]
    rfl))

theorem fence (sc : BitVec 3) (k : BitVec 3) (e : BitVec 3) : Statement (.fence sc k e) :=
  fun hw => .inr (.inr (by
    refine decode_of_fields ?_ hw
    change decodeFields (pack sc 55#7 (0#16 ++ k ++ e)) 0 = _
    have hs := fld_sc sc 55#7 (0#16 ++ k ++ e)
    obtain ⟨f0, f1, f2⟩ := shape14 sc 55#7 0#16 k e
    rw [decodeFields_37 _ _ (fld_op _ _ _)]
    rw [hs, f0, f1, f2]
    rfl))

theorem send (sc : BitVec 3) (d : BitVec 5) (a : BitVec 5) (b : BitVec 5) (r : BitVec 1) (u : BitVec 1) (p : BitVec 1) : Statement (.send sc d a b r u p) :=
  fun hw => .inr (.inr (by
    refine decode_of_fields ?_ hw
    change decodeFields (pack sc 56#7 (d ++ a ++ b ++ 0#4 ++ r ++ u ++ p)) 0 = _
    have hs := fld_sc sc 56#7 (d ++ a ++ b ++ 0#4 ++ r ++ u ++ p)
    obtain ⟨f0, f1, f2, f3, f4, f5⟩ := shape15 sc 56#7 d a b 0#4 r u p
    rw [decodeFields_38 _ _ (fld_op _ _ _)]
    have s : (fld (pack sc 56#7 (d ++ a ++ b ++ 0#4 ++ r ++ u ++ p)) 0 7).toNat = ((0 * 2 ^ 1 + r.toNat) * 2 ^ 1 + u.toNat) * 2 ^ 1 + p.toNat := by
      have e0 : ((d ++ a ++ b ++ 0#4).extractLsb' 0 4).toNat = 0 := congrArg BitVec.toNat ((ext_lo (d ++ a ++ b) (0#4) 0 4 (by decide)).trans rfl)
      have e1 : ((d ++ a ++ b ++ 0#4 ++ r).extractLsb' 0 5).toNat = 0 * 2 ^ 1 + r.toNat := by
        refine (ext_span (d ++ a ++ b ++ 0#4) (r) 5 (by decide)).trans ?_
        rw [show 5 - 1 = 4 from rfl, e0]
      have e2 : ((d ++ a ++ b ++ 0#4 ++ r ++ u).extractLsb' 0 6).toNat = (0 * 2 ^ 1 + r.toNat) * 2 ^ 1 + u.toNat := by
        refine (ext_span (d ++ a ++ b ++ 0#4 ++ r) (u) 6 (by decide)).trans ?_
        rw [show 6 - 1 = 5 from rfl, e1]
      have e3 : ((d ++ a ++ b ++ 0#4 ++ r ++ u ++ p).extractLsb' 0 7).toNat = ((0 * 2 ^ 1 + r.toNat) * 2 ^ 1 + u.toNat) * 2 ^ 1 + p.toNat := by
        refine (ext_span (d ++ a ++ b ++ 0#4 ++ r ++ u) (p) 7 (by decide)).trans ?_
        rw [show 7 - 1 = 6 from rfl, e2]
      rw [fld_lo _ _ _ _ _ (by decide)]; exact e3
    unfold decodeMSG
    rw [s]
    have b_r := r.isLt
    generalize r.toNat = n_r at b_r ⊢
    have b_u := u.isLt
    generalize u.toNat = n_u at b_u ⊢
    have b_p := p.isLt
    generalize p.toNat = n_p at b_p ⊢
    interval_cases n_r <;> interval_cases n_u <;> interval_cases n_p <;> (rw [hs, f0, f1, f2, f3, f4, f5]; rfl)))

theorem spawn (sc : BitVec 3) (a : BitVec 5) (b : BitVec 5) : Statement (.spawn sc a b) :=
  fun hw => .inr (.inr (by
    refine decode_of_fields ?_ hw
    change decodeFields (pack sc 56#7 (0#5 ++ a ++ b ++ 8#7)) 0 = _
    have hs := fld_sc sc 56#7 (0#5 ++ a ++ b ++ 8#7)
    obtain ⟨f0, f1, f2, f3⟩ := shape11 sc 56#7 0#5 a b 8#7
    rw [decodeFields_38 _ _ (fld_op _ _ _)]
    unfold decodeMSG
    rw [hs, f0, f1, f2, f3]
    rfl))

theorem tend (sc : BitVec 3) : Statement (.tend sc) :=
  fun hw => .inr (.inr (by
    refine decode_of_fields ?_ hw
    change decodeFields (pack sc 56#7 (16#22)) 0 = _
    have hs := fld_sc sc 56#7 (16#22)
    obtain ⟨f0, f1⟩ := shape13 sc 56#7 16#22
    rw [decodeFields_38 _ _ (fld_op _ _ _)]
    unfold decodeMSG
    rw [hs, f0, f1]
    rfl))

theorem tendX (sc : BitVec 3) : Statement (.tendX sc) :=
  fun hw => .inr (.inr (by
    refine decode_of_fields ?_ hw
    change decodeFields (pack sc 56#7 (17#22)) 0 = _
    have hs := fld_sc sc 56#7 (17#22)
    obtain ⟨f0, f1⟩ := shape13 sc 56#7 17#22
    rw [decodeFields_38 _ _ (fld_op _ _ _)]
    unfold decodeMSG
    rw [hs, f0, f1]
    rfl))

theorem tyield (sc : BitVec 3) : Statement (.tyield sc) :=
  fun hw => .inr (.inr (by
    refine decode_of_fields ?_ hw
    change decodeFields (pack sc 56#7 (18#22)) 0 = _
    have hs := fld_sc sc 56#7 (18#22)
    obtain ⟨f0, f1⟩ := shape13 sc 56#7 18#22
    rw [decodeFields_38 _ _ (fld_op _ _ _)]
    unfold decodeMSG
    rw [hs, f0, f1]
    rfl))

theorem msgpeek (sc : BitVec 3) (d : BitVec 5) (a : BitVec 5) : Statement (.msgpeek sc d a) :=
  fun hw => .inr (.inr (by
    refine decode_of_fields ?_ hw
    change decodeFields (pack sc 56#7 (d ++ a ++ 24#12)) 0 = _
    have hs := fld_sc sc 56#7 (d ++ a ++ 24#12)
    obtain ⟨f0, f1, f2, f3⟩ := shape1 sc 56#7 d a 24#12
    rw [decodeFields_38 _ _ (fld_op _ _ _)]
    unfold decodeMSG
    rw [hs, f2, f0, f1, f3]
    rfl))

theorem barinit (sc : BitVec 3) (a : BitVec 5) (b : BitVec 5) : Statement (.barinit sc a b) :=
  fun hw => .inr (.inr (by
    refine decode_of_fields ?_ hw
    change decodeFields (pack sc 57#7 (0#5 ++ a ++ b ++ 0#7)) 0 = _
    have hs := fld_sc sc 57#7 (0#5 ++ a ++ b ++ 0#7)
    obtain ⟨f0, f1, f2, f3⟩ := shape11 sc 57#7 0#5 a b 0#7
    rw [decodeFields_39 _ _ (fld_op _ _ _)]
    unfold decodeSYNC
    rw [hs, f0, f1, f2, f3]
    rfl))

theorem barjoin (sc : BitVec 3) (a : BitVec 5) : Statement (.barjoin sc a) :=
  fun hw => .inr (.inr (by
    refine decode_of_fields ?_ hw
    change decodeFields (pack sc 57#7 (0#5 ++ a ++ 1#12)) 0 = _
    have hs := fld_sc sc 57#7 (0#5 ++ a ++ 1#12)
    obtain ⟨f0, f1, f2, f3⟩ := shape10 sc 57#7 0#5 a 1#12
    rw [decodeFields_39 _ _ (fld_op _ _ _)]
    unfold decodeSYNC
    rw [hs, f0, f2, f1, f3]
    rfl))

theorem bararrive (sc : BitVec 3) (a : BitVec 5) : Statement (.bararrive sc a) :=
  fun hw => .inr (.inr (by
    refine decode_of_fields ?_ hw
    change decodeFields (pack sc 57#7 (0#5 ++ a ++ 2#12)) 0 = _
    have hs := fld_sc sc 57#7 (0#5 ++ a ++ 2#12)
    obtain ⟨f0, f1, f2, f3⟩ := shape10 sc 57#7 0#5 a 2#12
    rw [decodeFields_39 _ _ (fld_op _ _ _)]
    unfold decodeSYNC
    rw [hs, f0, f2, f1, f3]
    rfl))

theorem barwait (sc : BitVec 3) (a : BitVec 5) : Statement (.barwait sc a) :=
  fun hw => .inr (.inr (by
    refine decode_of_fields ?_ hw
    change decodeFields (pack sc 57#7 (0#5 ++ a ++ 3#12)) 0 = _
    have hs := fld_sc sc 57#7 (0#5 ++ a ++ 3#12)
    obtain ⟨f0, f1, f2, f3⟩ := shape10 sc 57#7 0#5 a 3#12
    rw [decodeFields_39 _ _ (fld_op _ _ _)]
    unfold decodeSYNC
    rw [hs, f0, f2, f1, f3]
    rfl))

theorem bardrop (sc : BitVec 3) (a : BitVec 5) : Statement (.bardrop sc a) :=
  fun hw => .inr (.inr (by
    refine decode_of_fields ?_ hw
    change decodeFields (pack sc 57#7 (0#5 ++ a ++ 4#12)) 0 = _
    have hs := fld_sc sc 57#7 (0#5 ++ a ++ 4#12)
    obtain ⟨f0, f1, f2, f3⟩ := shape10 sc 57#7 0#5 a 4#12
    rw [decodeFields_39 _ _ (fld_op _ _ _)]
    unfold decodeSYNC
    rw [hs, f0, f2, f1, f3]
    rfl))

theorem lwatch (sc : BitVec 3) (a : BitVec 5) : Statement (.lwatch sc a) :=
  fun hw => .inr (.inr (by
    refine decode_of_fields ?_ hw
    change decodeFields (pack sc 57#7 (0#5 ++ a ++ 8#12)) 0 = _
    have hs := fld_sc sc 57#7 (0#5 ++ a ++ 8#12)
    obtain ⟨f0, f1, f2, f3⟩ := shape10 sc 57#7 0#5 a 8#12
    rw [decodeFields_39 _ _ (fld_op _ _ _)]
    unfold decodeSYNC
    rw [hs, f0, f2, f1, f3]
    rfl))

theorem lwait (sc : BitVec 3) (d : BitVec 5) (a : BitVec 5) : Statement (.lwait sc d a) :=
  fun hw => .inr (.inr (by
    refine decode_of_fields ?_ hw
    change decodeFields (pack sc 57#7 (d ++ a ++ 9#12)) 0 = _
    have hs := fld_sc sc 57#7 (d ++ a ++ 9#12)
    obtain ⟨f0, f1, f2, f3⟩ := shape1 sc 57#7 d a 9#12
    rw [decodeFields_39 _ _ (fld_op _ _ _)]
    unfold decodeSYNC
    rw [hs, f2, f0, f1, f3]
    rfl))

theorem cntadd (sc : BitVec 3) (a : BitVec 5) (b : BitVec 5) : Statement (.cntadd sc a b) :=
  fun hw => .inr (.inr (by
    refine decode_of_fields ?_ hw
    change decodeFields (pack sc 57#7 (0#5 ++ a ++ b ++ 16#7)) 0 = _
    have hs := fld_sc sc 57#7 (0#5 ++ a ++ b ++ 16#7)
    obtain ⟨f0, f1, f2, f3⟩ := shape11 sc 57#7 0#5 a b 16#7
    rw [decodeFields_39 _ _ (fld_op _ _ _)]
    unfold decodeSYNC
    rw [hs, f0, f1, f2, f3]
    rfl))

theorem cntwait (sc : BitVec 3) (a : BitVec 5) (b : BitVec 5) : Statement (.cntwait sc a b) :=
  fun hw => .inr (.inr (by
    refine decode_of_fields ?_ hw
    change decodeFields (pack sc 57#7 (0#5 ++ a ++ b ++ 17#7)) 0 = _
    have hs := fld_sc sc 57#7 (0#5 ++ a ++ b ++ 17#7)
    obtain ⟨f0, f1, f2, f3⟩ := shape11 sc 57#7 0#5 a b 17#7
    rw [decodeFields_39 _ _ (fld_op _ _ _)]
    unfold decodeSYNC
    rw [hs, f0, f1, f2, f3]
    rfl))

theorem cntread (sc : BitVec 3) (d : BitVec 5) (a : BitVec 5) : Statement (.cntread sc d a) :=
  fun hw => .inr (.inr (by
    refine decode_of_fields ?_ hw
    change decodeFields (pack sc 57#7 (d ++ a ++ 18#12)) 0 = _
    have hs := fld_sc sc 57#7 (d ++ a ++ 18#12)
    obtain ⟨f0, f1, f2, f3⟩ := shape1 sc 57#7 d a 18#12
    rw [decodeFields_39 _ _ (fld_op _ _ _)]
    unfold decodeSYNC
    rw [hs, f2, f0, f1, f3]
    rfl))

theorem cancel (sc : BitVec 3) (a : BitVec 5) : Statement (.cancel sc a) :=
  fun hw => .inr (.inr (by
    refine decode_of_fields ?_ hw
    change decodeFields (pack sc 57#7 (0#5 ++ a ++ 24#12)) 0 = _
    have hs := fld_sc sc 57#7 (0#5 ++ a ++ 24#12)
    obtain ⟨f0, f1, f2, f3⟩ := shape10 sc 57#7 0#5 a 24#12
    rw [decodeFields_39 _ _ (fld_op _ _ _)]
    unfold decodeSYNC
    rw [hs, f0, f2, f1, f3]
    rfl))

theorem submit (sc : BitVec 3) (a : BitVec 5) : Statement (.submit sc a) :=
  fun hw => .inr (.inr (by
    refine decode_of_fields ?_ hw
    change decodeFields (pack sc 58#7 (0#5 ++ a ++ 0#12)) 0 = _
    have hs := fld_sc sc 58#7 (0#5 ++ a ++ 0#12)
    obtain ⟨f0, f1, f2, f3⟩ := shape10 sc 58#7 0#5 a 0#12
    rw [decodeFields_3a _ _ (fld_op _ _ _)]
    unfold decodeENGINE
    rw [hs, f0, f2, f1, f3]
    rfl))

theorem submitB (sc : BitVec 3) (d : BitVec 5) (a : BitVec 5) : Statement (.submitB sc d a) :=
  fun hw => .inr (.inr (by
    refine decode_of_fields ?_ hw
    change decodeFields (pack sc 58#7 (d ++ a ++ 1#12)) 0 = _
    have hs := fld_sc sc 58#7 (d ++ a ++ 1#12)
    obtain ⟨f0, f1, f2, f3⟩ := shape1 sc 58#7 d a 1#12
    rw [decodeFields_3a _ _ (fld_op _ _ _)]
    unfold decodeENGINE
    rw [hs, f2, f0, f1, f3]
    rfl))

theorem tmap (sc : BitVec 3) (a : BitVec 5) (i : BitVec 5) : Statement (.tmap sc a i) :=
  fun hw => .inr (.inr (by
    refine decode_of_fields ?_ hw
    change decodeFields (pack sc 58#7 (0#5 ++ a ++ i ++ 8#7)) 0 = _
    have hs := fld_sc sc 58#7 (0#5 ++ a ++ i ++ 8#7)
    obtain ⟨f0, f1, f2, f3⟩ := shape11 sc 58#7 0#5 a i 8#7
    rw [decodeFields_3a _ _ (fld_op _ _ _)]
    unfold decodeENGINE
    rw [hs, f0, f1, f2, f3]
    rfl))

theorem waitany (sc : BitVec 3) (d : BitVec 5) (a : BitVec 5) : Statement (.waitany sc d a) :=
  fun hw => .inr (.inr (by
    refine decode_of_fields ?_ hw
    change decodeFields (pack sc 58#7 (d ++ a ++ 16#12)) 0 = _
    have hs := fld_sc sc 58#7 (d ++ a ++ 16#12)
    obtain ⟨f0, f1, f2, f3⟩ := shape1 sc 58#7 d a 16#12
    rw [decodeFields_3a _ _ (fld_op _ _ _)]
    unfold decodeENGINE
    rw [hs, f2, f0, f1, f3]
    rfl))

theorem waitall (sc : BitVec 3) (a : BitVec 5) : Statement (.waitall sc a) :=
  fun hw => .inr (.inr (by
    refine decode_of_fields ?_ hw
    change decodeFields (pack sc 58#7 (0#5 ++ a ++ 17#12)) 0 = _
    have hs := fld_sc sc 58#7 (0#5 ++ a ++ 17#12)
    obtain ⟨f0, f1, f2, f3⟩ := shape10 sc 58#7 0#5 a 17#12
    rw [decodeFields_3a _ _ (fld_op _ _ _)]
    unfold decodeENGINE
    rw [hs, f0, f2, f1, f3]
    rfl))

theorem fftag (sc : BitVec 3) (d : BitVec 5) (a : BitVec 5) : Statement (.fftag sc d a) :=
  fun hw => .inr (.inr (by
    refine decode_of_fields ?_ hw
    change decodeFields (pack sc 58#7 (d ++ a ++ 18#12)) 0 = _
    have hs := fld_sc sc 58#7 (d ++ a ++ 18#12)
    obtain ⟨f0, f1, f2, f3⟩ := shape1 sc 58#7 d a 18#12
    rw [decodeFields_3a _ _ (fld_op _ _ _)]
    unfold decodeENGINE
    rw [hs, f2, f0, f1, f3]
    rfl))

theorem clrtag (sc : BitVec 3) (a : BitVec 5) : Statement (.clrtag sc a) :=
  fun hw => .inr (.inr (by
    refine decode_of_fields ?_ hw
    change decodeFields (pack sc 58#7 (0#5 ++ a ++ 19#12)) 0 = _
    have hs := fld_sc sc 58#7 (0#5 ++ a ++ 19#12)
    obtain ⟨f0, f1, f2, f3⟩ := shape10 sc 58#7 0#5 a 19#12
    rw [decodeFields_3a _ _ (fld_op _ _ _)]
    unfold decodeENGINE
    rw [hs, f0, f2, f1, f3]
    rfl))

theorem mreq (sc : BitVec 3) (a : BitVec 5) (b : BitVec 5) : Statement (.mreq sc a b) :=
  fun hw => .inr (.inr (by
    refine decode_of_fields ?_ hw
    change decodeFields (pack sc 58#7 (0#5 ++ a ++ b ++ 24#7)) 0 = _
    have hs := fld_sc sc 58#7 (0#5 ++ a ++ b ++ 24#7)
    obtain ⟨f0, f1, f2, f3⟩ := shape11 sc 58#7 0#5 a b 24#7
    rw [decodeFields_3a _ _ (fld_op _ _ _)]
    unfold decodeENGINE
    rw [hs, f0, f1, f2, f3]
    rfl))

theorem mbind (sc : BitVec 3) (a : BitVec 5) (b : BitVec 5) : Statement (.mbind sc a b) :=
  fun hw => .inr (.inr (by
    refine decode_of_fields ?_ hw
    change decodeFields (pack sc 58#7 (0#5 ++ a ++ b ++ 25#7)) 0 = _
    have hs := fld_sc sc 58#7 (0#5 ++ a ++ b ++ 25#7)
    obtain ⟨f0, f1, f2, f3⟩ := shape11 sc 58#7 0#5 a b 25#7
    rw [decodeFields_3a _ _ (fld_op _ _ _)]
    unfold decodeENGINE
    rw [hs, f0, f1, f2, f3]
    rfl))

theorem fadd (sc : BitVec 3) (d : BitVec 5) (a : BitVec 5) (b : BitVec 5) (p : BitVec 1) : Statement (.fadd sc d a b p) :=
  fun hw => .inr (.inr (by
    refine decode_of_fields ?_ hw
    change decodeFields (pack sc 64#7 (d ++ a ++ b ++ 0#6 ++ p)) 0 = _
    have hs := fld_sc sc 64#7 (d ++ a ++ b ++ 0#6 ++ p)
    obtain ⟨f0, f1, f2, f3⟩ := shape16 sc 64#7 d a b 0#6 p
    rw [decodeFields_40 _ _ (fld_op _ _ _)]
    have s : (fld (pack sc 64#7 (d ++ a ++ b ++ 0#6 ++ p)) 0 7).toNat = 0 * 2 ^ 1 + p.toNat := by
      rw [fld_lo _ _ _ _ _ (by decide)]
      refine (ext_span (d ++ a ++ b ++ 0#6) (p) 7 (by decide)).trans ?_
      rw [show ((d ++ a ++ b ++ 0#6).extractLsb' 0 (7 - 1)).toNat = 0 from congrArg BitVec.toNat ((ext_lo (d ++ a ++ b) (0#6) 0 6 (by decide)).trans rfl)]
    unfold decodeFP
    rw [s]
    have b_p := p.isLt
    generalize p.toNat = n_p at b_p ⊢
    interval_cases n_p <;> (rw [hs, f0, f1, f2, f3]; rfl)))

theorem fsub (sc : BitVec 3) (d : BitVec 5) (a : BitVec 5) (b : BitVec 5) (p : BitVec 1) : Statement (.fsub sc d a b p) :=
  fun hw => .inr (.inr (by
    refine decode_of_fields ?_ hw
    change decodeFields (pack sc 64#7 (d ++ a ++ b ++ 1#6 ++ p)) 0 = _
    have hs := fld_sc sc 64#7 (d ++ a ++ b ++ 1#6 ++ p)
    obtain ⟨f0, f1, f2, f3⟩ := shape16 sc 64#7 d a b 1#6 p
    rw [decodeFields_40 _ _ (fld_op _ _ _)]
    have s : (fld (pack sc 64#7 (d ++ a ++ b ++ 1#6 ++ p)) 0 7).toNat = 1 * 2 ^ 1 + p.toNat := by
      rw [fld_lo _ _ _ _ _ (by decide)]
      refine (ext_span (d ++ a ++ b ++ 1#6) (p) 7 (by decide)).trans ?_
      rw [show ((d ++ a ++ b ++ 1#6).extractLsb' 0 (7 - 1)).toNat = 1 from congrArg BitVec.toNat ((ext_lo (d ++ a ++ b) (1#6) 0 6 (by decide)).trans rfl)]
    unfold decodeFP
    rw [s]
    have b_p := p.isLt
    generalize p.toNat = n_p at b_p ⊢
    interval_cases n_p <;> (rw [hs, f0, f1, f2, f3]; rfl)))

theorem fmul (sc : BitVec 3) (d : BitVec 5) (a : BitVec 5) (b : BitVec 5) (p : BitVec 1) : Statement (.fmul sc d a b p) :=
  fun hw => .inr (.inr (by
    refine decode_of_fields ?_ hw
    change decodeFields (pack sc 64#7 (d ++ a ++ b ++ 2#6 ++ p)) 0 = _
    have hs := fld_sc sc 64#7 (d ++ a ++ b ++ 2#6 ++ p)
    obtain ⟨f0, f1, f2, f3⟩ := shape16 sc 64#7 d a b 2#6 p
    rw [decodeFields_40 _ _ (fld_op _ _ _)]
    have s : (fld (pack sc 64#7 (d ++ a ++ b ++ 2#6 ++ p)) 0 7).toNat = 2 * 2 ^ 1 + p.toNat := by
      rw [fld_lo _ _ _ _ _ (by decide)]
      refine (ext_span (d ++ a ++ b ++ 2#6) (p) 7 (by decide)).trans ?_
      rw [show ((d ++ a ++ b ++ 2#6).extractLsb' 0 (7 - 1)).toNat = 2 from congrArg BitVec.toNat ((ext_lo (d ++ a ++ b) (2#6) 0 6 (by decide)).trans rfl)]
    unfold decodeFP
    rw [s]
    have b_p := p.isLt
    generalize p.toNat = n_p at b_p ⊢
    interval_cases n_p <;> (rw [hs, f0, f1, f2, f3]; rfl)))

theorem fdiv (sc : BitVec 3) (d : BitVec 5) (a : BitVec 5) (b : BitVec 5) (p : BitVec 1) : Statement (.fdiv sc d a b p) :=
  fun hw => .inr (.inr (by
    refine decode_of_fields ?_ hw
    change decodeFields (pack sc 64#7 (d ++ a ++ b ++ 3#6 ++ p)) 0 = _
    have hs := fld_sc sc 64#7 (d ++ a ++ b ++ 3#6 ++ p)
    obtain ⟨f0, f1, f2, f3⟩ := shape16 sc 64#7 d a b 3#6 p
    rw [decodeFields_40 _ _ (fld_op _ _ _)]
    have s : (fld (pack sc 64#7 (d ++ a ++ b ++ 3#6 ++ p)) 0 7).toNat = 3 * 2 ^ 1 + p.toNat := by
      rw [fld_lo _ _ _ _ _ (by decide)]
      refine (ext_span (d ++ a ++ b ++ 3#6) (p) 7 (by decide)).trans ?_
      rw [show ((d ++ a ++ b ++ 3#6).extractLsb' 0 (7 - 1)).toNat = 3 from congrArg BitVec.toNat ((ext_lo (d ++ a ++ b) (3#6) 0 6 (by decide)).trans rfl)]
    unfold decodeFP
    rw [s]
    have b_p := p.isLt
    generalize p.toNat = n_p at b_p ⊢
    interval_cases n_p <;> (rw [hs, f0, f1, f2, f3]; rfl)))

theorem fsqrt (sc : BitVec 3) (d : BitVec 5) (a : BitVec 5) (p : BitVec 1) : Statement (.fsqrt sc d a p) :=
  fun hw => .inr (.inr (by
    refine decode_of_fields ?_ hw
    change decodeFields (pack sc 64#7 (d ++ a ++ 4#11 ++ p)) 0 = _
    have hs := fld_sc sc 64#7 (d ++ a ++ 4#11 ++ p)
    obtain ⟨f0, f1, f2, f3⟩ := shape17 sc 64#7 d a 4#11 p
    rw [decodeFields_40 _ _ (fld_op _ _ _)]
    have s : (fld (pack sc 64#7 (d ++ a ++ 4#11 ++ p)) 0 7).toNat = 4 * 2 ^ 1 + p.toNat := by
      rw [fld_lo _ _ _ _ _ (by decide)]
      refine (ext_span (d ++ a ++ 4#11) (p) 7 (by decide)).trans ?_
      rw [show ((d ++ a ++ 4#11).extractLsb' 0 (7 - 1)).toNat = 4 from congrArg BitVec.toNat ((ext_lo (d ++ a) (4#11) 0 6 (by decide)).trans rfl)]
    unfold decodeFP
    rw [s]
    have b_p := p.isLt
    generalize p.toNat = n_p at b_p ⊢
    interval_cases n_p <;> (rw [hs, f2, f0, f1, f3]; rfl)))

theorem fmin (sc : BitVec 3) (d : BitVec 5) (a : BitVec 5) (b : BitVec 5) (p : BitVec 1) : Statement (.fmin sc d a b p) :=
  fun hw => .inr (.inr (by
    refine decode_of_fields ?_ hw
    change decodeFields (pack sc 64#7 (d ++ a ++ b ++ 5#6 ++ p)) 0 = _
    have hs := fld_sc sc 64#7 (d ++ a ++ b ++ 5#6 ++ p)
    obtain ⟨f0, f1, f2, f3⟩ := shape16 sc 64#7 d a b 5#6 p
    rw [decodeFields_40 _ _ (fld_op _ _ _)]
    have s : (fld (pack sc 64#7 (d ++ a ++ b ++ 5#6 ++ p)) 0 7).toNat = 5 * 2 ^ 1 + p.toNat := by
      rw [fld_lo _ _ _ _ _ (by decide)]
      refine (ext_span (d ++ a ++ b ++ 5#6) (p) 7 (by decide)).trans ?_
      rw [show ((d ++ a ++ b ++ 5#6).extractLsb' 0 (7 - 1)).toNat = 5 from congrArg BitVec.toNat ((ext_lo (d ++ a ++ b) (5#6) 0 6 (by decide)).trans rfl)]
    unfold decodeFP
    rw [s]
    have b_p := p.isLt
    generalize p.toNat = n_p at b_p ⊢
    interval_cases n_p <;> (rw [hs, f0, f1, f2, f3]; rfl)))

theorem fmax (sc : BitVec 3) (d : BitVec 5) (a : BitVec 5) (b : BitVec 5) (p : BitVec 1) : Statement (.fmax sc d a b p) :=
  fun hw => .inr (.inr (by
    refine decode_of_fields ?_ hw
    change decodeFields (pack sc 64#7 (d ++ a ++ b ++ 6#6 ++ p)) 0 = _
    have hs := fld_sc sc 64#7 (d ++ a ++ b ++ 6#6 ++ p)
    obtain ⟨f0, f1, f2, f3⟩ := shape16 sc 64#7 d a b 6#6 p
    rw [decodeFields_40 _ _ (fld_op _ _ _)]
    have s : (fld (pack sc 64#7 (d ++ a ++ b ++ 6#6 ++ p)) 0 7).toNat = 6 * 2 ^ 1 + p.toNat := by
      rw [fld_lo _ _ _ _ _ (by decide)]
      refine (ext_span (d ++ a ++ b ++ 6#6) (p) 7 (by decide)).trans ?_
      rw [show ((d ++ a ++ b ++ 6#6).extractLsb' 0 (7 - 1)).toNat = 6 from congrArg BitVec.toNat ((ext_lo (d ++ a ++ b) (6#6) 0 6 (by decide)).trans rfl)]
    unfold decodeFP
    rw [s]
    have b_p := p.isLt
    generalize p.toNat = n_p at b_p ⊢
    interval_cases n_p <;> (rw [hs, f0, f1, f2, f3]; rfl)))

theorem fsgncpy (sc : BitVec 3) (d : BitVec 5) (a : BitVec 5) (b : BitVec 5) (p : BitVec 1) : Statement (.fsgncpy sc d a b p) :=
  fun hw => .inr (.inr (by
    refine decode_of_fields ?_ hw
    change decodeFields (pack sc 64#7 (d ++ a ++ b ++ 7#6 ++ p)) 0 = _
    have hs := fld_sc sc 64#7 (d ++ a ++ b ++ 7#6 ++ p)
    obtain ⟨f0, f1, f2, f3⟩ := shape16 sc 64#7 d a b 7#6 p
    rw [decodeFields_40 _ _ (fld_op _ _ _)]
    have s : (fld (pack sc 64#7 (d ++ a ++ b ++ 7#6 ++ p)) 0 7).toNat = 7 * 2 ^ 1 + p.toNat := by
      rw [fld_lo _ _ _ _ _ (by decide)]
      refine (ext_span (d ++ a ++ b ++ 7#6) (p) 7 (by decide)).trans ?_
      rw [show ((d ++ a ++ b ++ 7#6).extractLsb' 0 (7 - 1)).toNat = 7 from congrArg BitVec.toNat ((ext_lo (d ++ a ++ b) (7#6) 0 6 (by decide)).trans rfl)]
    unfold decodeFP
    rw [s]
    have b_p := p.isLt
    generalize p.toNat = n_p at b_p ⊢
    interval_cases n_p <;> (rw [hs, f0, f1, f2, f3]; rfl)))

theorem fsgnneg (sc : BitVec 3) (d : BitVec 5) (a : BitVec 5) (b : BitVec 5) (p : BitVec 1) : Statement (.fsgnneg sc d a b p) :=
  fun hw => .inr (.inr (by
    refine decode_of_fields ?_ hw
    change decodeFields (pack sc 64#7 (d ++ a ++ b ++ 8#6 ++ p)) 0 = _
    have hs := fld_sc sc 64#7 (d ++ a ++ b ++ 8#6 ++ p)
    obtain ⟨f0, f1, f2, f3⟩ := shape16 sc 64#7 d a b 8#6 p
    rw [decodeFields_40 _ _ (fld_op _ _ _)]
    have s : (fld (pack sc 64#7 (d ++ a ++ b ++ 8#6 ++ p)) 0 7).toNat = 8 * 2 ^ 1 + p.toNat := by
      rw [fld_lo _ _ _ _ _ (by decide)]
      refine (ext_span (d ++ a ++ b ++ 8#6) (p) 7 (by decide)).trans ?_
      rw [show ((d ++ a ++ b ++ 8#6).extractLsb' 0 (7 - 1)).toNat = 8 from congrArg BitVec.toNat ((ext_lo (d ++ a ++ b) (8#6) 0 6 (by decide)).trans rfl)]
    unfold decodeFP
    rw [s]
    have b_p := p.isLt
    generalize p.toNat = n_p at b_p ⊢
    interval_cases n_p <;> (rw [hs, f0, f1, f2, f3]; rfl)))

theorem fsgnxor (sc : BitVec 3) (d : BitVec 5) (a : BitVec 5) (b : BitVec 5) (p : BitVec 1) : Statement (.fsgnxor sc d a b p) :=
  fun hw => .inr (.inr (by
    refine decode_of_fields ?_ hw
    change decodeFields (pack sc 64#7 (d ++ a ++ b ++ 9#6 ++ p)) 0 = _
    have hs := fld_sc sc 64#7 (d ++ a ++ b ++ 9#6 ++ p)
    obtain ⟨f0, f1, f2, f3⟩ := shape16 sc 64#7 d a b 9#6 p
    rw [decodeFields_40 _ _ (fld_op _ _ _)]
    have s : (fld (pack sc 64#7 (d ++ a ++ b ++ 9#6 ++ p)) 0 7).toNat = 9 * 2 ^ 1 + p.toNat := by
      rw [fld_lo _ _ _ _ _ (by decide)]
      refine (ext_span (d ++ a ++ b ++ 9#6) (p) 7 (by decide)).trans ?_
      rw [show ((d ++ a ++ b ++ 9#6).extractLsb' 0 (7 - 1)).toNat = 9 from congrArg BitVec.toNat ((ext_lo (d ++ a ++ b) (9#6) 0 6 (by decide)).trans rfl)]
    unfold decodeFP
    rw [s]
    have b_p := p.isLt
    generalize p.toNat = n_p at b_p ⊢
    interval_cases n_p <;> (rw [hs, f0, f1, f2, f3]; rfl)))

theorem feq (sc : BitVec 3) (d : BitVec 5) (a : BitVec 5) (b : BitVec 5) (p : BitVec 1) : Statement (.feq sc d a b p) :=
  fun hw => .inr (.inr (by
    refine decode_of_fields ?_ hw
    change decodeFields (pack sc 64#7 (d ++ a ++ b ++ 10#6 ++ p)) 0 = _
    have hs := fld_sc sc 64#7 (d ++ a ++ b ++ 10#6 ++ p)
    obtain ⟨f0, f1, f2, f3⟩ := shape16 sc 64#7 d a b 10#6 p
    rw [decodeFields_40 _ _ (fld_op _ _ _)]
    have s : (fld (pack sc 64#7 (d ++ a ++ b ++ 10#6 ++ p)) 0 7).toNat = 10 * 2 ^ 1 + p.toNat := by
      rw [fld_lo _ _ _ _ _ (by decide)]
      refine (ext_span (d ++ a ++ b ++ 10#6) (p) 7 (by decide)).trans ?_
      rw [show ((d ++ a ++ b ++ 10#6).extractLsb' 0 (7 - 1)).toNat = 10 from congrArg BitVec.toNat ((ext_lo (d ++ a ++ b) (10#6) 0 6 (by decide)).trans rfl)]
    unfold decodeFP
    rw [s]
    have b_p := p.isLt
    generalize p.toNat = n_p at b_p ⊢
    interval_cases n_p <;> (rw [hs, f0, f1, f2, f3]; rfl)))

theorem flt (sc : BitVec 3) (d : BitVec 5) (a : BitVec 5) (b : BitVec 5) (p : BitVec 1) : Statement (.flt sc d a b p) :=
  fun hw => .inr (.inr (by
    refine decode_of_fields ?_ hw
    change decodeFields (pack sc 64#7 (d ++ a ++ b ++ 11#6 ++ p)) 0 = _
    have hs := fld_sc sc 64#7 (d ++ a ++ b ++ 11#6 ++ p)
    obtain ⟨f0, f1, f2, f3⟩ := shape16 sc 64#7 d a b 11#6 p
    rw [decodeFields_40 _ _ (fld_op _ _ _)]
    have s : (fld (pack sc 64#7 (d ++ a ++ b ++ 11#6 ++ p)) 0 7).toNat = 11 * 2 ^ 1 + p.toNat := by
      rw [fld_lo _ _ _ _ _ (by decide)]
      refine (ext_span (d ++ a ++ b ++ 11#6) (p) 7 (by decide)).trans ?_
      rw [show ((d ++ a ++ b ++ 11#6).extractLsb' 0 (7 - 1)).toNat = 11 from congrArg BitVec.toNat ((ext_lo (d ++ a ++ b) (11#6) 0 6 (by decide)).trans rfl)]
    unfold decodeFP
    rw [s]
    have b_p := p.isLt
    generalize p.toNat = n_p at b_p ⊢
    interval_cases n_p <;> (rw [hs, f0, f1, f2, f3]; rfl)))

theorem fle (sc : BitVec 3) (d : BitVec 5) (a : BitVec 5) (b : BitVec 5) (p : BitVec 1) : Statement (.fle sc d a b p) :=
  fun hw => .inr (.inr (by
    refine decode_of_fields ?_ hw
    change decodeFields (pack sc 64#7 (d ++ a ++ b ++ 12#6 ++ p)) 0 = _
    have hs := fld_sc sc 64#7 (d ++ a ++ b ++ 12#6 ++ p)
    obtain ⟨f0, f1, f2, f3⟩ := shape16 sc 64#7 d a b 12#6 p
    rw [decodeFields_40 _ _ (fld_op _ _ _)]
    have s : (fld (pack sc 64#7 (d ++ a ++ b ++ 12#6 ++ p)) 0 7).toNat = 12 * 2 ^ 1 + p.toNat := by
      rw [fld_lo _ _ _ _ _ (by decide)]
      refine (ext_span (d ++ a ++ b ++ 12#6) (p) 7 (by decide)).trans ?_
      rw [show ((d ++ a ++ b ++ 12#6).extractLsb' 0 (7 - 1)).toNat = 12 from congrArg BitVec.toNat ((ext_lo (d ++ a ++ b) (12#6) 0 6 (by decide)).trans rfl)]
    unfold decodeFP
    rw [s]
    have b_p := p.isLt
    generalize p.toNat = n_p at b_p ⊢
    interval_cases n_p <;> (rw [hs, f0, f1, f2, f3]; rfl)))

theorem fclass (sc : BitVec 3) (d : BitVec 5) (a : BitVec 5) (p : BitVec 1) : Statement (.fclass sc d a p) :=
  fun hw => .inr (.inr (by
    refine decode_of_fields ?_ hw
    change decodeFields (pack sc 64#7 (d ++ a ++ 13#11 ++ p)) 0 = _
    have hs := fld_sc sc 64#7 (d ++ a ++ 13#11 ++ p)
    obtain ⟨f0, f1, f2, f3⟩ := shape17 sc 64#7 d a 13#11 p
    rw [decodeFields_40 _ _ (fld_op _ _ _)]
    have s : (fld (pack sc 64#7 (d ++ a ++ 13#11 ++ p)) 0 7).toNat = 13 * 2 ^ 1 + p.toNat := by
      rw [fld_lo _ _ _ _ _ (by decide)]
      refine (ext_span (d ++ a ++ 13#11) (p) 7 (by decide)).trans ?_
      rw [show ((d ++ a ++ 13#11).extractLsb' 0 (7 - 1)).toNat = 13 from congrArg BitVec.toNat ((ext_lo (d ++ a) (13#11) 0 6 (by decide)).trans rfl)]
    unfold decodeFP
    rw [s]
    have b_p := p.isLt
    generalize p.toNat = n_p at b_p ⊢
    interval_cases n_p <;> (rw [hs, f2, f0, f1, f3]; rfl)))

theorem fcvt (sc : BitVec 3) (d : BitVec 5) (a : BitVec 5) (c : BitVec 5) : Statement (.fcvt sc d a c) :=
  fun hw => .inr (.inr (by
    refine decode_of_fields ?_ hw
    change decodeFields (pack sc 64#7 (d ++ a ++ c ++ 28#7)) 0 = _
    have hs := fld_sc sc 64#7 (d ++ a ++ c ++ 28#7)
    obtain ⟨f0, f1, f2, f3⟩ := shape0 sc 64#7 d a c 28#7
    rw [decodeFields_40 _ _ (fld_op _ _ _)]
    unfold decodeFP
    rw [hs, f0, f1, f2, f3]
    rfl))

theorem fmvg (sc : BitVec 3) (d : BitVec 5) (a : BitVec 5) (p : BitVec 1) : Statement (.fmvg sc d a p) :=
  fun hw => .inr (.inr (by
    refine decode_of_fields ?_ hw
    change decodeFields (pack sc 64#7 (d ++ a ++ 15#11 ++ p)) 0 = _
    have hs := fld_sc sc 64#7 (d ++ a ++ 15#11 ++ p)
    obtain ⟨f0, f1, f2, f3⟩ := shape17 sc 64#7 d a 15#11 p
    rw [decodeFields_40 _ _ (fld_op _ _ _)]
    have s : (fld (pack sc 64#7 (d ++ a ++ 15#11 ++ p)) 0 7).toNat = 15 * 2 ^ 1 + p.toNat := by
      rw [fld_lo _ _ _ _ _ (by decide)]
      refine (ext_span (d ++ a ++ 15#11) (p) 7 (by decide)).trans ?_
      rw [show ((d ++ a ++ 15#11).extractLsb' 0 (7 - 1)).toNat = 15 from congrArg BitVec.toNat ((ext_lo (d ++ a) (15#11) 0 6 (by decide)).trans rfl)]
    unfold decodeFP
    rw [s]
    have b_p := p.isLt
    generalize p.toNat = n_p at b_p ⊢
    interval_cases n_p <;> (rw [hs, f2, f0, f1, f3]; rfl)))

theorem fmvf (sc : BitVec 3) (d : BitVec 5) (a : BitVec 5) (p : BitVec 1) : Statement (.fmvf sc d a p) :=
  fun hw => .inr (.inr (by
    refine decode_of_fields ?_ hw
    change decodeFields (pack sc 64#7 (d ++ a ++ 16#11 ++ p)) 0 = _
    have hs := fld_sc sc 64#7 (d ++ a ++ 16#11 ++ p)
    obtain ⟨f0, f1, f2, f3⟩ := shape17 sc 64#7 d a 16#11 p
    rw [decodeFields_40 _ _ (fld_op _ _ _)]
    have s : (fld (pack sc 64#7 (d ++ a ++ 16#11 ++ p)) 0 7).toNat = 16 * 2 ^ 1 + p.toNat := by
      rw [fld_lo _ _ _ _ _ (by decide)]
      refine (ext_span (d ++ a ++ 16#11) (p) 7 (by decide)).trans ?_
      rw [show ((d ++ a ++ 16#11).extractLsb' 0 (7 - 1)).toNat = 16 from congrArg BitVec.toNat ((ext_lo (d ++ a) (16#11) 0 6 (by decide)).trans rfl)]
    unfold decodeFP
    rw [s]
    have b_p := p.isLt
    generalize p.toNat = n_p at b_p ⊢
    interval_cases n_p <;> (rw [hs, f2, f0, f1, f3]; rfl)))

theorem fmaS (sc : BitVec 3) (d : BitVec 5) (a : BitVec 5) (b : BitVec 5) (c : BitVec 5) : Statement (.fmaS sc d a b c) :=
  fun hw => .inr (.inr (by
    refine decode_of_fields ?_ hw
    change decodeFields (pack sc 65#7 (d ++ a ++ b ++ c ++ 0#2)) 0 = _
    have hs := fld_sc sc 65#7 (d ++ a ++ b ++ c ++ 0#2)
    obtain ⟨f0, f1, f2, f3, f4⟩ := shape18 sc 65#7 d a b c 0#2
    rw [decodeFields_41 _ _ (fld_op _ _ _)]
    unfold decodeFMA_S
    rw [hs, f0, f1, f2, f3, f4]
    rfl))

theorem fmsS (sc : BitVec 3) (d : BitVec 5) (a : BitVec 5) (b : BitVec 5) (c : BitVec 5) : Statement (.fmsS sc d a b c) :=
  fun hw => .inr (.inr (by
    refine decode_of_fields ?_ hw
    change decodeFields (pack sc 65#7 (d ++ a ++ b ++ c ++ 1#2)) 0 = _
    have hs := fld_sc sc 65#7 (d ++ a ++ b ++ c ++ 1#2)
    obtain ⟨f0, f1, f2, f3, f4⟩ := shape18 sc 65#7 d a b c 1#2
    rw [decodeFields_41 _ _ (fld_op _ _ _)]
    unfold decodeFMA_S
    rw [hs, f0, f1, f2, f3, f4]
    rfl))

theorem fnmaS (sc : BitVec 3) (d : BitVec 5) (a : BitVec 5) (b : BitVec 5) (c : BitVec 5) : Statement (.fnmaS sc d a b c) :=
  fun hw => .inr (.inr (by
    refine decode_of_fields ?_ hw
    change decodeFields (pack sc 65#7 (d ++ a ++ b ++ c ++ 2#2)) 0 = _
    have hs := fld_sc sc 65#7 (d ++ a ++ b ++ c ++ 2#2)
    obtain ⟨f0, f1, f2, f3, f4⟩ := shape18 sc 65#7 d a b c 2#2
    rw [decodeFields_41 _ _ (fld_op _ _ _)]
    unfold decodeFMA_S
    rw [hs, f0, f1, f2, f3, f4]
    rfl))

theorem fnmsS (sc : BitVec 3) (d : BitVec 5) (a : BitVec 5) (b : BitVec 5) (c : BitVec 5) : Statement (.fnmsS sc d a b c) :=
  fun hw => .inr (.inr (by
    refine decode_of_fields ?_ hw
    change decodeFields (pack sc 65#7 (d ++ a ++ b ++ c ++ 3#2)) 0 = _
    have hs := fld_sc sc 65#7 (d ++ a ++ b ++ c ++ 3#2)
    obtain ⟨f0, f1, f2, f3, f4⟩ := shape18 sc 65#7 d a b c 3#2
    rw [decodeFields_41 _ _ (fld_op _ _ _)]
    unfold decodeFMA_S
    rw [hs, f0, f1, f2, f3, f4]
    rfl))

theorem fmaD (sc : BitVec 3) (d : BitVec 5) (a : BitVec 5) (b : BitVec 5) (c : BitVec 5) : Statement (.fmaD sc d a b c) :=
  fun hw => .inr (.inr (by
    refine decode_of_fields ?_ hw
    change decodeFields (pack sc 66#7 (d ++ a ++ b ++ c ++ 0#2)) 0 = _
    have hs := fld_sc sc 66#7 (d ++ a ++ b ++ c ++ 0#2)
    obtain ⟨f0, f1, f2, f3, f4⟩ := shape18 sc 66#7 d a b c 0#2
    rw [decodeFields_42 _ _ (fld_op _ _ _)]
    unfold decodeFMA_D
    rw [hs, f0, f1, f2, f3, f4]
    rfl))

theorem fmsD (sc : BitVec 3) (d : BitVec 5) (a : BitVec 5) (b : BitVec 5) (c : BitVec 5) : Statement (.fmsD sc d a b c) :=
  fun hw => .inr (.inr (by
    refine decode_of_fields ?_ hw
    change decodeFields (pack sc 66#7 (d ++ a ++ b ++ c ++ 1#2)) 0 = _
    have hs := fld_sc sc 66#7 (d ++ a ++ b ++ c ++ 1#2)
    obtain ⟨f0, f1, f2, f3, f4⟩ := shape18 sc 66#7 d a b c 1#2
    rw [decodeFields_42 _ _ (fld_op _ _ _)]
    unfold decodeFMA_D
    rw [hs, f0, f1, f2, f3, f4]
    rfl))

theorem fnmaD (sc : BitVec 3) (d : BitVec 5) (a : BitVec 5) (b : BitVec 5) (c : BitVec 5) : Statement (.fnmaD sc d a b c) :=
  fun hw => .inr (.inr (by
    refine decode_of_fields ?_ hw
    change decodeFields (pack sc 66#7 (d ++ a ++ b ++ c ++ 2#2)) 0 = _
    have hs := fld_sc sc 66#7 (d ++ a ++ b ++ c ++ 2#2)
    obtain ⟨f0, f1, f2, f3, f4⟩ := shape18 sc 66#7 d a b c 2#2
    rw [decodeFields_42 _ _ (fld_op _ _ _)]
    unfold decodeFMA_D
    rw [hs, f0, f1, f2, f3, f4]
    rfl))

theorem fnmsD (sc : BitVec 3) (d : BitVec 5) (a : BitVec 5) (b : BitVec 5) (c : BitVec 5) : Statement (.fnmsD sc d a b c) :=
  fun hw => .inr (.inr (by
    refine decode_of_fields ?_ hw
    change decodeFields (pack sc 66#7 (d ++ a ++ b ++ c ++ 3#2)) 0 = _
    have hs := fld_sc sc 66#7 (d ++ a ++ b ++ c ++ 3#2)
    obtain ⟨f0, f1, f2, f3, f4⟩ := shape18 sc 66#7 d a b c 3#2
    rw [decodeFields_42 _ _ (fld_op _ _ _)]
    unfold decodeFMA_D
    rw [hs, f0, f1, f2, f3, f4]
    rfl))

theorem vadd (sc : BitVec 3) (d : BitVec 5) (a : BitVec 5) (b : BitVec 5) (k : BitVec 3) : Statement (.vadd sc d a b k) :=
  fun hw => .inr (.inr (by
    refine decode_of_fields ?_ hw
    change decodeFields (pack sc 80#7 (d ++ a ++ b ++ k ++ 0#4)) 0 = _
    have hs := fld_sc sc 80#7 (d ++ a ++ b ++ k ++ 0#4)
    obtain ⟨f0, f1, f2, f3, f4⟩ := shape19 sc 80#7 d a b k 0#4
    rw [decodeFields_50 _ _ (fld_op _ _ _)]
    unfold decodeVARITH
    rw [hs, f0, f1, f2, f3, f4]
    rfl))

theorem vsub (sc : BitVec 3) (d : BitVec 5) (a : BitVec 5) (b : BitVec 5) (k : BitVec 3) : Statement (.vsub sc d a b k) :=
  fun hw => .inr (.inr (by
    refine decode_of_fields ?_ hw
    change decodeFields (pack sc 80#7 (d ++ a ++ b ++ k ++ 1#4)) 0 = _
    have hs := fld_sc sc 80#7 (d ++ a ++ b ++ k ++ 1#4)
    obtain ⟨f0, f1, f2, f3, f4⟩ := shape19 sc 80#7 d a b k 1#4
    rw [decodeFields_50 _ _ (fld_op _ _ _)]
    unfold decodeVARITH
    rw [hs, f0, f1, f2, f3, f4]
    rfl))

theorem vmul (sc : BitVec 3) (d : BitVec 5) (a : BitVec 5) (b : BitVec 5) (k : BitVec 3) : Statement (.vmul sc d a b k) :=
  fun hw => .inr (.inr (by
    refine decode_of_fields ?_ hw
    change decodeFields (pack sc 80#7 (d ++ a ++ b ++ k ++ 2#4)) 0 = _
    have hs := fld_sc sc 80#7 (d ++ a ++ b ++ k ++ 2#4)
    obtain ⟨f0, f1, f2, f3, f4⟩ := shape19 sc 80#7 d a b k 2#4
    rw [decodeFields_50 _ _ (fld_op _ _ _)]
    unfold decodeVARITH
    rw [hs, f0, f1, f2, f3, f4]
    rfl))

theorem vmulh (sc : BitVec 3) (d : BitVec 5) (a : BitVec 5) (b : BitVec 5) (k : BitVec 3) : Statement (.vmulh sc d a b k) :=
  fun hw => .inr (.inr (by
    refine decode_of_fields ?_ hw
    change decodeFields (pack sc 80#7 (d ++ a ++ b ++ k ++ 3#4)) 0 = _
    have hs := fld_sc sc 80#7 (d ++ a ++ b ++ k ++ 3#4)
    obtain ⟨f0, f1, f2, f3, f4⟩ := shape19 sc 80#7 d a b k 3#4
    rw [decodeFields_50 _ _ (fld_op _ _ _)]
    unfold decodeVARITH
    rw [hs, f0, f1, f2, f3, f4]
    rfl))

theorem vmin (sc : BitVec 3) (d : BitVec 5) (a : BitVec 5) (b : BitVec 5) (k : BitVec 3) : Statement (.vmin sc d a b k) :=
  fun hw => .inr (.inr (by
    refine decode_of_fields ?_ hw
    change decodeFields (pack sc 80#7 (d ++ a ++ b ++ k ++ 4#4)) 0 = _
    have hs := fld_sc sc 80#7 (d ++ a ++ b ++ k ++ 4#4)
    obtain ⟨f0, f1, f2, f3, f4⟩ := shape19 sc 80#7 d a b k 4#4
    rw [decodeFields_50 _ _ (fld_op _ _ _)]
    unfold decodeVARITH
    rw [hs, f0, f1, f2, f3, f4]
    rfl))

theorem vmax (sc : BitVec 3) (d : BitVec 5) (a : BitVec 5) (b : BitVec 5) (k : BitVec 3) : Statement (.vmax sc d a b k) :=
  fun hw => .inr (.inr (by
    refine decode_of_fields ?_ hw
    change decodeFields (pack sc 80#7 (d ++ a ++ b ++ k ++ 5#4)) 0 = _
    have hs := fld_sc sc 80#7 (d ++ a ++ b ++ k ++ 5#4)
    obtain ⟨f0, f1, f2, f3, f4⟩ := shape19 sc 80#7 d a b k 5#4
    rw [decodeFields_50 _ _ (fld_op _ _ _)]
    unfold decodeVARITH
    rw [hs, f0, f1, f2, f3, f4]
    rfl))

theorem vand (sc : BitVec 3) (d : BitVec 5) (a : BitVec 5) (b : BitVec 5) (k : BitVec 3) : Statement (.vand sc d a b k) :=
  fun hw => .inr (.inr (by
    refine decode_of_fields ?_ hw
    change decodeFields (pack sc 80#7 (d ++ a ++ b ++ k ++ 6#4)) 0 = _
    have hs := fld_sc sc 80#7 (d ++ a ++ b ++ k ++ 6#4)
    obtain ⟨f0, f1, f2, f3, f4⟩ := shape19 sc 80#7 d a b k 6#4
    rw [decodeFields_50 _ _ (fld_op _ _ _)]
    unfold decodeVARITH
    rw [hs, f0, f1, f2, f3, f4]
    rfl))

theorem vor (sc : BitVec 3) (d : BitVec 5) (a : BitVec 5) (b : BitVec 5) (k : BitVec 3) : Statement (.vor sc d a b k) :=
  fun hw => .inr (.inr (by
    refine decode_of_fields ?_ hw
    change decodeFields (pack sc 80#7 (d ++ a ++ b ++ k ++ 7#4)) 0 = _
    have hs := fld_sc sc 80#7 (d ++ a ++ b ++ k ++ 7#4)
    obtain ⟨f0, f1, f2, f3, f4⟩ := shape19 sc 80#7 d a b k 7#4
    rw [decodeFields_50 _ _ (fld_op _ _ _)]
    unfold decodeVARITH
    rw [hs, f0, f1, f2, f3, f4]
    rfl))

theorem vxor (sc : BitVec 3) (d : BitVec 5) (a : BitVec 5) (b : BitVec 5) (k : BitVec 3) : Statement (.vxor sc d a b k) :=
  fun hw => .inr (.inr (by
    refine decode_of_fields ?_ hw
    change decodeFields (pack sc 80#7 (d ++ a ++ b ++ k ++ 8#4)) 0 = _
    have hs := fld_sc sc 80#7 (d ++ a ++ b ++ k ++ 8#4)
    obtain ⟨f0, f1, f2, f3, f4⟩ := shape19 sc 80#7 d a b k 8#4
    rw [decodeFields_50 _ _ (fld_op _ _ _)]
    unfold decodeVARITH
    rw [hs, f0, f1, f2, f3, f4]
    rfl))

theorem vandn (sc : BitVec 3) (d : BitVec 5) (a : BitVec 5) (b : BitVec 5) (k : BitVec 3) : Statement (.vandn sc d a b k) :=
  fun hw => .inr (.inr (by
    refine decode_of_fields ?_ hw
    change decodeFields (pack sc 80#7 (d ++ a ++ b ++ k ++ 9#4)) 0 = _
    have hs := fld_sc sc 80#7 (d ++ a ++ b ++ k ++ 9#4)
    obtain ⟨f0, f1, f2, f3, f4⟩ := shape19 sc 80#7 d a b k 9#4
    rw [decodeFields_50 _ _ (fld_op _ _ _)]
    unfold decodeVARITH
    rw [hs, f0, f1, f2, f3, f4]
    rfl))

theorem vsll (sc : BitVec 3) (d : BitVec 5) (a : BitVec 5) (b : BitVec 5) (k : BitVec 3) : Statement (.vsll sc d a b k) :=
  fun hw => .inr (.inr (by
    refine decode_of_fields ?_ hw
    change decodeFields (pack sc 80#7 (d ++ a ++ b ++ k ++ 10#4)) 0 = _
    have hs := fld_sc sc 80#7 (d ++ a ++ b ++ k ++ 10#4)
    obtain ⟨f0, f1, f2, f3, f4⟩ := shape19 sc 80#7 d a b k 10#4
    rw [decodeFields_50 _ _ (fld_op _ _ _)]
    unfold decodeVARITH
    rw [hs, f0, f1, f2, f3, f4]
    rfl))

theorem vsrl (sc : BitVec 3) (d : BitVec 5) (a : BitVec 5) (b : BitVec 5) (k : BitVec 3) : Statement (.vsrl sc d a b k) :=
  fun hw => .inr (.inr (by
    refine decode_of_fields ?_ hw
    change decodeFields (pack sc 80#7 (d ++ a ++ b ++ k ++ 11#4)) 0 = _
    have hs := fld_sc sc 80#7 (d ++ a ++ b ++ k ++ 11#4)
    obtain ⟨f0, f1, f2, f3, f4⟩ := shape19 sc 80#7 d a b k 11#4
    rw [decodeFields_50 _ _ (fld_op _ _ _)]
    unfold decodeVARITH
    rw [hs, f0, f1, f2, f3, f4]
    rfl))

theorem vsra (sc : BitVec 3) (d : BitVec 5) (a : BitVec 5) (b : BitVec 5) (k : BitVec 3) : Statement (.vsra sc d a b k) :=
  fun hw => .inr (.inr (by
    refine decode_of_fields ?_ hw
    change decodeFields (pack sc 80#7 (d ++ a ++ b ++ k ++ 12#4)) 0 = _
    have hs := fld_sc sc 80#7 (d ++ a ++ b ++ k ++ 12#4)
    obtain ⟨f0, f1, f2, f3, f4⟩ := shape19 sc 80#7 d a b k 12#4
    rw [decodeFields_50 _ _ (fld_op _ _ _)]
    unfold decodeVARITH
    rw [hs, f0, f1, f2, f3, f4]
    rfl))

theorem vmac (sc : BitVec 3) (d : BitVec 5) (a : BitVec 5) (b : BitVec 5) (k : BitVec 3) : Statement (.vmac sc d a b k) :=
  fun hw => .inr (.inr (by
    refine decode_of_fields ?_ hw
    change decodeFields (pack sc 80#7 (d ++ a ++ b ++ k ++ 13#4)) 0 = _
    have hs := fld_sc sc 80#7 (d ++ a ++ b ++ k ++ 13#4)
    obtain ⟨f0, f1, f2, f3, f4⟩ := shape19 sc 80#7 d a b k 13#4
    rw [decodeFields_50 _ _ (fld_op _ _ _)]
    unfold decodeVARITH
    rw [hs, f0, f1, f2, f3, f4]
    rfl))

theorem vadds (sc : BitVec 3) (d : BitVec 5) (a : BitVec 5) (b : BitVec 5) (k : BitVec 3) : Statement (.vadds sc d a b k) :=
  fun hw => .inr (.inr (by
    refine decode_of_fields ?_ hw
    change decodeFields (pack sc 80#7 (d ++ a ++ b ++ k ++ 14#4)) 0 = _
    have hs := fld_sc sc 80#7 (d ++ a ++ b ++ k ++ 14#4)
    obtain ⟨f0, f1, f2, f3, f4⟩ := shape19 sc 80#7 d a b k 14#4
    rw [decodeFields_50 _ _ (fld_op _ _ _)]
    unfold decodeVARITH
    rw [hs, f0, f1, f2, f3, f4]
    rfl))

theorem vsubs (sc : BitVec 3) (d : BitVec 5) (a : BitVec 5) (b : BitVec 5) (k : BitVec 3) : Statement (.vsubs sc d a b k) :=
  fun hw => .inr (.inr (by
    refine decode_of_fields ?_ hw
    change decodeFields (pack sc 80#7 (d ++ a ++ b ++ k ++ 15#4)) 0 = _
    have hs := fld_sc sc 80#7 (d ++ a ++ b ++ k ++ 15#4)
    obtain ⟨f0, f1, f2, f3, f4⟩ := shape19 sc 80#7 d a b k 15#4
    rw [decodeFields_50 _ _ (fld_op _ _ _)]
    unfold decodeVARITH
    rw [hs, f0, f1, f2, f3, f4]
    rfl))

theorem vabs (sc : BitVec 3) (d : BitVec 5) (a : BitVec 5) (k : BitVec 3) : Statement (.vabs sc d a k) :=
  fun hw => .inr (.inr (by
    refine decode_of_fields ?_ hw
    change decodeFields (pack sc 81#7 (d ++ a ++ 0#5 ++ k ++ 0#4)) 0 = _
    have hs := fld_sc sc 81#7 (d ++ a ++ 0#5 ++ k ++ 0#4)
    obtain ⟨f0, f1, f2, f3, f4⟩ := shape20 sc 81#7 d a 0#5 k 0#4
    rw [decodeFields_51 _ _ (fld_op _ _ _)]
    unfold decodeVUNARY
    rw [hs, f2, f0, f1, f3, f4]
    rfl))

theorem vneg (sc : BitVec 3) (d : BitVec 5) (a : BitVec 5) (k : BitVec 3) : Statement (.vneg sc d a k) :=
  fun hw => .inr (.inr (by
    refine decode_of_fields ?_ hw
    change decodeFields (pack sc 81#7 (d ++ a ++ 0#5 ++ k ++ 1#4)) 0 = _
    have hs := fld_sc sc 81#7 (d ++ a ++ 0#5 ++ k ++ 1#4)
    obtain ⟨f0, f1, f2, f3, f4⟩ := shape20 sc 81#7 d a 0#5 k 1#4
    rw [decodeFields_51 _ _ (fld_op _ _ _)]
    unfold decodeVUNARY
    rw [hs, f2, f0, f1, f3, f4]
    rfl))

theorem vdiv (sc : BitVec 3) (d : BitVec 5) (a : BitVec 5) (b : BitVec 5) (k : BitVec 3) : Statement (.vdiv sc d a b k) :=
  fun hw => .inr (.inr (by
    refine decode_of_fields ?_ hw
    change decodeFields (pack sc 81#7 (d ++ a ++ b ++ k ++ 2#4)) 0 = _
    have hs := fld_sc sc 81#7 (d ++ a ++ b ++ k ++ 2#4)
    obtain ⟨f0, f1, f2, f3, f4⟩ := shape19 sc 81#7 d a b k 2#4
    rw [decodeFields_51 _ _ (fld_op _ _ _)]
    unfold decodeVUNARY
    rw [hs, f0, f1, f2, f3, f4]
    rfl))

theorem vsel (sc : BitVec 3) (d : BitVec 5) (a : BitVec 5) (b : BitVec 5) (k : BitVec 3) : Statement (.vsel sc d a b k) :=
  fun hw => .inr (.inr (by
    refine decode_of_fields ?_ hw
    change decodeFields (pack sc 81#7 (d ++ a ++ b ++ k ++ 3#4)) 0 = _
    have hs := fld_sc sc 81#7 (d ++ a ++ b ++ k ++ 3#4)
    obtain ⟨f0, f1, f2, f3, f4⟩ := shape19 sc 81#7 d a b k 3#4
    rw [decodeFields_51 _ _ (fld_op _ _ _)]
    unfold decodeVUNARY
    rw [hs, f0, f1, f2, f3, f4]
    rfl))

theorem vcmp (sc : BitVec 3) (d : BitVec 3) (a : BitVec 5) (b : BitVec 5) (k : BitVec 3) (c : BitVec 2) : Statement (.vcmp sc d a b k c) :=
  fun hw => .inr (.inr (by
    refine decode_of_fields ?_ hw
    change decodeFields (pack sc 82#7 (0#2 ++ d ++ a ++ b ++ k ++ 0#2 ++ c)) 0 = _
    have hs := fld_sc sc 82#7 (0#2 ++ d ++ a ++ b ++ k ++ 0#2 ++ c)
    obtain ⟨f0, f1, f2, f3, f4, f5⟩ := shape21 sc 82#7 0#2 d a b k 0#2 c
    rw [decodeFields_52 _ _ (fld_op _ _ _)]
    have s : (fld (pack sc 82#7 (0#2 ++ d ++ a ++ b ++ k ++ 0#2 ++ c)) 0 4).toNat = 0 * 2 ^ 2 + c.toNat := by
      rw [fld_lo _ _ _ _ _ (by decide)]
      refine (ext_span (0#2 ++ d ++ a ++ b ++ k ++ 0#2) (c) 4 (by decide)).trans ?_
      rw [show ((0#2 ++ d ++ a ++ b ++ k ++ 0#2).extractLsb' 0 (4 - 2)).toNat = 0 from congrArg BitVec.toNat ((ext_lo (0#2 ++ d ++ a ++ b ++ k) (0#2) 0 2 (by decide)).trans rfl)]
    unfold decodeVCMP
    rw [s]
    have b_c := c.isLt
    generalize c.toNat = n_c at b_c ⊢
    interval_cases n_c <;> (rw [hs, f0, f1, f2, f3, f4, f5]; rfl)))

theorem vredAdd (sc : BitVec 3) (d : BitVec 5) (a : BitVec 5) (k : BitVec 3) : Statement (.vredAdd sc d a k) :=
  fun hw => .inr (.inr (by
    refine decode_of_fields ?_ hw
    change decodeFields (pack sc 83#7 (d ++ a ++ 0#5 ++ k ++ 0#4)) 0 = _
    have hs := fld_sc sc 83#7 (d ++ a ++ 0#5 ++ k ++ 0#4)
    obtain ⟨f0, f1, f2, f3, f4⟩ := shape20 sc 83#7 d a 0#5 k 0#4
    rw [decodeFields_53 _ _ (fld_op _ _ _)]
    unfold decodeVREDSCAN
    rw [hs, f2, f0, f1, f3, f4]
    rfl))

theorem vredMax (sc : BitVec 3) (d : BitVec 5) (a : BitVec 5) (k : BitVec 3) : Statement (.vredMax sc d a k) :=
  fun hw => .inr (.inr (by
    refine decode_of_fields ?_ hw
    change decodeFields (pack sc 83#7 (d ++ a ++ 0#5 ++ k ++ 1#4)) 0 = _
    have hs := fld_sc sc 83#7 (d ++ a ++ 0#5 ++ k ++ 1#4)
    obtain ⟨f0, f1, f2, f3, f4⟩ := shape20 sc 83#7 d a 0#5 k 1#4
    rw [decodeFields_53 _ _ (fld_op _ _ _)]
    unfold decodeVREDSCAN
    rw [hs, f2, f0, f1, f3, f4]
    rfl))

theorem vredMin (sc : BitVec 3) (d : BitVec 5) (a : BitVec 5) (k : BitVec 3) : Statement (.vredMin sc d a k) :=
  fun hw => .inr (.inr (by
    refine decode_of_fields ?_ hw
    change decodeFields (pack sc 83#7 (d ++ a ++ 0#5 ++ k ++ 2#4)) 0 = _
    have hs := fld_sc sc 83#7 (d ++ a ++ 0#5 ++ k ++ 2#4)
    obtain ⟨f0, f1, f2, f3, f4⟩ := shape20 sc 83#7 d a 0#5 k 2#4
    rw [decodeFields_53 _ _ (fld_op _ _ _)]
    unfold decodeVREDSCAN
    rw [hs, f2, f0, f1, f3, f4]
    rfl))

theorem vscanAddI (sc : BitVec 3) (d : BitVec 5) (a : BitVec 5) (g : BitVec 1) (h : BitVec 3) (k : BitVec 3) : Statement (.vscanAddI sc d a g h k) :=
  fun hw => .inr (.inr (by
    refine decode_of_fields ?_ hw
    change decodeFields (pack sc 83#7 (d ++ a ++ 0#1 ++ g ++ h ++ k ++ 4#4)) 0 = _
    have hs := fld_sc sc 83#7 (d ++ a ++ 0#1 ++ g ++ h ++ k ++ 4#4)
    obtain ⟨f0, f1, f2, f3, f4, f5, f6⟩ := shape22 sc 83#7 d a 0#1 g h k 4#4
    rw [decodeFields_53 _ _ (fld_op _ _ _)]
    unfold decodeVREDSCAN
    rw [hs, f2, f0, f1, f3, f4, f5, f6]
    rfl))

theorem vscanMaxI (sc : BitVec 3) (d : BitVec 5) (a : BitVec 5) (g : BitVec 1) (h : BitVec 3) (k : BitVec 3) : Statement (.vscanMaxI sc d a g h k) :=
  fun hw => .inr (.inr (by
    refine decode_of_fields ?_ hw
    change decodeFields (pack sc 83#7 (d ++ a ++ 0#1 ++ g ++ h ++ k ++ 5#4)) 0 = _
    have hs := fld_sc sc 83#7 (d ++ a ++ 0#1 ++ g ++ h ++ k ++ 5#4)
    obtain ⟨f0, f1, f2, f3, f4, f5, f6⟩ := shape22 sc 83#7 d a 0#1 g h k 5#4
    rw [decodeFields_53 _ _ (fld_op _ _ _)]
    unfold decodeVREDSCAN
    rw [hs, f2, f0, f1, f3, f4, f5, f6]
    rfl))

theorem vscanMinI (sc : BitVec 3) (d : BitVec 5) (a : BitVec 5) (g : BitVec 1) (h : BitVec 3) (k : BitVec 3) : Statement (.vscanMinI sc d a g h k) :=
  fun hw => .inr (.inr (by
    refine decode_of_fields ?_ hw
    change decodeFields (pack sc 83#7 (d ++ a ++ 0#1 ++ g ++ h ++ k ++ 6#4)) 0 = _
    have hs := fld_sc sc 83#7 (d ++ a ++ 0#1 ++ g ++ h ++ k ++ 6#4)
    obtain ⟨f0, f1, f2, f3, f4, f5, f6⟩ := shape22 sc 83#7 d a 0#1 g h k 6#4
    rw [decodeFields_53 _ _ (fld_op _ _ _)]
    unfold decodeVREDSCAN
    rw [hs, f2, f0, f1, f3, f4, f5, f6]
    rfl))

theorem vscanAddE (sc : BitVec 3) (d : BitVec 5) (a : BitVec 5) (g : BitVec 1) (h : BitVec 3) (k : BitVec 3) : Statement (.vscanAddE sc d a g h k) :=
  fun hw => .inr (.inr (by
    refine decode_of_fields ?_ hw
    change decodeFields (pack sc 83#7 (d ++ a ++ 0#1 ++ g ++ h ++ k ++ 8#4)) 0 = _
    have hs := fld_sc sc 83#7 (d ++ a ++ 0#1 ++ g ++ h ++ k ++ 8#4)
    obtain ⟨f0, f1, f2, f3, f4, f5, f6⟩ := shape22 sc 83#7 d a 0#1 g h k 8#4
    rw [decodeFields_53 _ _ (fld_op _ _ _)]
    unfold decodeVREDSCAN
    rw [hs, f2, f0, f1, f3, f4, f5, f6]
    rfl))

theorem vscanMaxE (sc : BitVec 3) (d : BitVec 5) (a : BitVec 5) (g : BitVec 1) (h : BitVec 3) (k : BitVec 3) : Statement (.vscanMaxE sc d a g h k) :=
  fun hw => .inr (.inr (by
    refine decode_of_fields ?_ hw
    change decodeFields (pack sc 83#7 (d ++ a ++ 0#1 ++ g ++ h ++ k ++ 9#4)) 0 = _
    have hs := fld_sc sc 83#7 (d ++ a ++ 0#1 ++ g ++ h ++ k ++ 9#4)
    obtain ⟨f0, f1, f2, f3, f4, f5, f6⟩ := shape22 sc 83#7 d a 0#1 g h k 9#4
    rw [decodeFields_53 _ _ (fld_op _ _ _)]
    unfold decodeVREDSCAN
    rw [hs, f2, f0, f1, f3, f4, f5, f6]
    rfl))

theorem vscanMinE (sc : BitVec 3) (d : BitVec 5) (a : BitVec 5) (g : BitVec 1) (h : BitVec 3) (k : BitVec 3) : Statement (.vscanMinE sc d a g h k) :=
  fun hw => .inr (.inr (by
    refine decode_of_fields ?_ hw
    change decodeFields (pack sc 83#7 (d ++ a ++ 0#1 ++ g ++ h ++ k ++ 10#4)) 0 = _
    have hs := fld_sc sc 83#7 (d ++ a ++ 0#1 ++ g ++ h ++ k ++ 10#4)
    obtain ⟨f0, f1, f2, f3, f4, f5, f6⟩ := shape22 sc 83#7 d a 0#1 g h k 10#4
    rw [decodeFields_53 _ _ (fld_op _ _ _)]
    unfold decodeVREDSCAN
    rw [hs, f2, f0, f1, f3, f4, f5, f6]
    rfl))

theorem vperm (sc : BitVec 3) (d : BitVec 5) (a : BitVec 5) (b : BitVec 5) (k : BitVec 3) : Statement (.vperm sc d a b k) :=
  fun hw => .inr (.inr (by
    refine decode_of_fields ?_ hw
    change decodeFields (pack sc 84#7 (d ++ a ++ b ++ k ++ 0#4)) 0 = _
    have hs := fld_sc sc 84#7 (d ++ a ++ b ++ k ++ 0#4)
    obtain ⟨f0, f1, f2, f3, f4⟩ := shape19 sc 84#7 d a b k 0#4
    rw [decodeFields_54 _ _ (fld_op _ _ _)]
    unfold decodeVPERM
    rw [hs, f0, f1, f2, f3, f4]
    rfl))

theorem vslideup (sc : BitVec 3) (d : BitVec 5) (a : BitVec 5) (b : BitVec 5) (k : BitVec 3) : Statement (.vslideup sc d a b k) :=
  fun hw => .inr (.inr (by
    refine decode_of_fields ?_ hw
    change decodeFields (pack sc 84#7 (d ++ a ++ b ++ k ++ 1#4)) 0 = _
    have hs := fld_sc sc 84#7 (d ++ a ++ b ++ k ++ 1#4)
    obtain ⟨f0, f1, f2, f3, f4⟩ := shape19 sc 84#7 d a b k 1#4
    rw [decodeFields_54 _ _ (fld_op _ _ _)]
    unfold decodeVPERM
    rw [hs, f0, f1, f2, f3, f4]
    rfl))

theorem vslidedn (sc : BitVec 3) (d : BitVec 5) (a : BitVec 5) (b : BitVec 5) (k : BitVec 3) : Statement (.vslidedn sc d a b k) :=
  fun hw => .inr (.inr (by
    refine decode_of_fields ?_ hw
    change decodeFields (pack sc 84#7 (d ++ a ++ b ++ k ++ 2#4)) 0 = _
    have hs := fld_sc sc 84#7 (d ++ a ++ b ++ k ++ 2#4)
    obtain ⟨f0, f1, f2, f3, f4⟩ := shape19 sc 84#7 d a b k 2#4
    rw [decodeFields_54 _ _ (fld_op _ _ _)]
    unfold decodeVPERM
    rw [hs, f0, f1, f2, f3, f4]
    rfl))

theorem vbcast (sc : BitVec 3) (d : BitVec 5) (a : BitVec 5) (k : BitVec 3) : Statement (.vbcast sc d a k) :=
  fun hw => .inr (.inr (by
    refine decode_of_fields ?_ hw
    change decodeFields (pack sc 84#7 (d ++ a ++ 0#5 ++ k ++ 3#4)) 0 = _
    have hs := fld_sc sc 84#7 (d ++ a ++ 0#5 ++ k ++ 3#4)
    obtain ⟨f0, f1, f2, f3, f4⟩ := shape20 sc 84#7 d a 0#5 k 3#4
    rw [decodeFields_54 _ _ (fld_op _ _ _)]
    unfold decodeVPERM
    rw [hs, f2, f0, f1, f3, f4]
    rfl))

theorem vins (sc : BitVec 3) (d : BitVec 5) (a : BitVec 5) (b : BitVec 5) (k : BitVec 3) : Statement (.vins sc d a b k) :=
  fun hw => .inr (.inr (by
    refine decode_of_fields ?_ hw
    change decodeFields (pack sc 84#7 (d ++ a ++ b ++ k ++ 4#4)) 0 = _
    have hs := fld_sc sc 84#7 (d ++ a ++ b ++ k ++ 4#4)
    obtain ⟨f0, f1, f2, f3, f4⟩ := shape19 sc 84#7 d a b k 4#4
    rw [decodeFields_54 _ _ (fld_op _ _ _)]
    unfold decodeVPERM
    rw [hs, f0, f1, f2, f3, f4]
    rfl))

theorem vext (sc : BitVec 3) (d : BitVec 5) (a : BitVec 5) (b : BitVec 5) (k : BitVec 3) : Statement (.vext sc d a b k) :=
  fun hw => .inr (.inr (by
    refine decode_of_fields ?_ hw
    change decodeFields (pack sc 84#7 (d ++ a ++ b ++ k ++ 5#4)) 0 = _
    have hs := fld_sc sc 84#7 (d ++ a ++ b ++ k ++ 5#4)
    obtain ⟨f0, f1, f2, f3, f4⟩ := shape19 sc 84#7 d a b k 5#4
    rw [decodeFields_54 _ _ (fld_op _ _ _)]
    unfold decodeVPERM
    rw [hs, f0, f1, f2, f3, f4]
    rfl))

theorem vcvtLo (sc : BitVec 3) (d : BitVec 5) (a : BitVec 5) (t : BitVec 4) (k : BitVec 3) : Statement (.vcvtLo sc d a t k) :=
  fun hw => .inr (.inr (by
    refine decode_of_fields ?_ hw
    change decodeFields (pack sc 85#7 (d ++ a ++ 0#1 ++ t ++ k ++ 0#4)) 0 = _
    have hs := fld_sc sc 85#7 (d ++ a ++ 0#1 ++ t ++ k ++ 0#4)
    obtain ⟨f0, f1, f2, f3, f4, f5⟩ := shape23 sc 85#7 d a 0#1 t k 0#4
    rw [decodeFields_55 _ _ (fld_op _ _ _)]
    unfold decodeVCVT
    rw [hs, f2, f0, f1, f3, f4, f5]
    rfl))

theorem vcvtHi (sc : BitVec 3) (d : BitVec 5) (a : BitVec 5) (t : BitVec 4) (k : BitVec 3) : Statement (.vcvtHi sc d a t k) :=
  fun hw => .inr (.inr (by
    refine decode_of_fields ?_ hw
    change decodeFields (pack sc 85#7 (d ++ a ++ 0#1 ++ t ++ k ++ 1#4)) 0 = _
    have hs := fld_sc sc 85#7 (d ++ a ++ 0#1 ++ t ++ k ++ 1#4)
    obtain ⟨f0, f1, f2, f3, f4, f5⟩ := shape23 sc 85#7 d a 0#1 t k 1#4
    rw [decodeFields_55 _ _ (fld_op _ _ _)]
    unfold decodeVCVT
    rw [hs, f2, f0, f1, f3, f4, f5]
    rfl))

theorem vquantE43 (sc : BitVec 3) (d : BitVec 5) (a : BitVec 5) (b : BitVec 5) (k : BitVec 3) : Statement (.vquantE43 sc d a b k) :=
  fun hw => .inr (.inr (by
    refine decode_of_fields ?_ hw
    change decodeFields (pack sc 86#7 (d ++ a ++ b ++ k ++ 0#4)) 0 = _
    have hs := fld_sc sc 86#7 (d ++ a ++ b ++ k ++ 0#4)
    obtain ⟨f0, f1, f2, f3, f4⟩ := shape19 sc 86#7 d a b k 0#4
    rw [decodeFields_56 _ _ (fld_op _ _ _)]
    unfold decodeVQNT
    rw [hs, f0, f1, f2, f3, f4]
    rfl))

theorem vquantE52 (sc : BitVec 3) (d : BitVec 5) (a : BitVec 5) (b : BitVec 5) (k : BitVec 3) : Statement (.vquantE52 sc d a b k) :=
  fun hw => .inr (.inr (by
    refine decode_of_fields ?_ hw
    change decodeFields (pack sc 86#7 (d ++ a ++ b ++ k ++ 1#4)) 0 = _
    have hs := fld_sc sc 86#7 (d ++ a ++ b ++ k ++ 1#4)
    obtain ⟨f0, f1, f2, f3, f4⟩ := shape19 sc 86#7 d a b k 1#4
    rw [decodeFields_56 _ _ (fld_op _ _ _)]
    unfold decodeVQNT
    rw [hs, f0, f1, f2, f3, f4]
    rfl))

theorem vquantS8 (sc : BitVec 3) (d : BitVec 5) (a : BitVec 5) (b : BitVec 5) (k : BitVec 3) : Statement (.vquantS8 sc d a b k) :=
  fun hw => .inr (.inr (by
    refine decode_of_fields ?_ hw
    change decodeFields (pack sc 86#7 (d ++ a ++ b ++ k ++ 2#4)) 0 = _
    have hs := fld_sc sc 86#7 (d ++ a ++ b ++ k ++ 2#4)
    obtain ⟨f0, f1, f2, f3, f4⟩ := shape19 sc 86#7 d a b k 2#4
    rw [decodeFields_56 _ _ (fld_op _ _ _)]
    unfold decodeVQNT
    rw [hs, f0, f1, f2, f3, f4]
    rfl))

theorem vdeqE43 (sc : BitVec 3) (d : BitVec 5) (a : BitVec 5) (b : BitVec 5) (k : BitVec 3) : Statement (.vdeqE43 sc d a b k) :=
  fun hw => .inr (.inr (by
    refine decode_of_fields ?_ hw
    change decodeFields (pack sc 86#7 (d ++ a ++ b ++ k ++ 4#4)) 0 = _
    have hs := fld_sc sc 86#7 (d ++ a ++ b ++ k ++ 4#4)
    obtain ⟨f0, f1, f2, f3, f4⟩ := shape19 sc 86#7 d a b k 4#4
    rw [decodeFields_56 _ _ (fld_op _ _ _)]
    unfold decodeVQNT
    rw [hs, f0, f1, f2, f3, f4]
    rfl))

theorem vdeqE52 (sc : BitVec 3) (d : BitVec 5) (a : BitVec 5) (b : BitVec 5) (k : BitVec 3) : Statement (.vdeqE52 sc d a b k) :=
  fun hw => .inr (.inr (by
    refine decode_of_fields ?_ hw
    change decodeFields (pack sc 86#7 (d ++ a ++ b ++ k ++ 5#4)) 0 = _
    have hs := fld_sc sc 86#7 (d ++ a ++ b ++ k ++ 5#4)
    obtain ⟨f0, f1, f2, f3, f4⟩ := shape19 sc 86#7 d a b k 5#4
    rw [decodeFields_56 _ _ (fld_op _ _ _)]
    unfold decodeVQNT
    rw [hs, f0, f1, f2, f3, f4]
    rfl))

theorem vdeqS8 (sc : BitVec 3) (d : BitVec 5) (a : BitVec 5) (b : BitVec 5) (k : BitVec 3) : Statement (.vdeqS8 sc d a b k) :=
  fun hw => .inr (.inr (by
    refine decode_of_fields ?_ hw
    change decodeFields (pack sc 86#7 (d ++ a ++ b ++ k ++ 6#4)) 0 = _
    have hs := fld_sc sc 86#7 (d ++ a ++ b ++ k ++ 6#4)
    obtain ⟨f0, f1, f2, f3, f4⟩ := shape19 sc 86#7 d a b k 6#4
    rw [decodeFields_56 _ _ (fld_op _ _ _)]
    unfold decodeVQNT
    rw [hs, f0, f1, f2, f3, f4]
    rfl))

theorem vamax (sc : BitVec 3) (h : BitVec 2) (a : BitVec 5) (k : BitVec 3) : Statement (.vamax sc h a k) :=
  fun hw => .inr (.inr (by
    refine decode_of_fields ?_ hw
    change decodeFields (pack sc 86#7 (0#3 ++ h ++ a ++ 0#5 ++ k ++ 8#4)) 0 = _
    have hs := fld_sc sc 86#7 (0#3 ++ h ++ a ++ 0#5 ++ k ++ 8#4)
    obtain ⟨f0, f1, f2, f3, f4, f5⟩ := shape24 sc 86#7 0#3 h a 0#5 k 8#4
    rw [decodeFields_56 _ _ (fld_op _ _ _)]
    unfold decodeVQNT
    rw [hs, f0, f3, f1, f2, f4, f5]
    rfl))

theorem scld (sc : BitVec 3) (d : BitVec 5) (h : BitVec 2) (t : BitVec 4) : Statement (.scld sc d h t) :=
  fun hw => .inr (.inr (by
    refine decode_of_fields ?_ hw
    change decodeFields (pack sc 86#7 (d ++ 0#3 ++ h ++ 0#1 ++ t ++ 9#7)) 0 = _
    have hs := fld_sc sc 86#7 (d ++ 0#3 ++ h ++ 0#1 ++ t ++ 9#7)
    obtain ⟨f0, f1, f2, f3, f4, f5, f6⟩ := shape25 sc 86#7 d 0#3 h 0#1 t 9#7
    rw [decodeFields_56 _ _ (fld_op _ _ _)]
    unfold decodeVQNT
    rw [hs, f1, f3, f5, f0, f2, f4, f6]
    rfl))

theorem vrcp (sc : BitVec 3) (d : BitVec 5) (a : BitVec 5) (k : BitVec 3) : Statement (.vrcp sc d a k) :=
  fun hw => .inr (.inr (by
    refine decode_of_fields ?_ hw
    change decodeFields (pack sc 87#7 (d ++ a ++ 0#5 ++ k ++ 0#4)) 0 = _
    have hs := fld_sc sc 87#7 (d ++ a ++ 0#5 ++ k ++ 0#4)
    obtain ⟨f0, f1, f2, f3, f4⟩ := shape20 sc 87#7 d a 0#5 k 0#4
    rw [decodeFields_57 _ _ (fld_op _ _ _)]
    unfold decodeVSFU
    rw [hs, f2, f0, f1, f3, f4]
    rfl))

theorem vrsqrt (sc : BitVec 3) (d : BitVec 5) (a : BitVec 5) (k : BitVec 3) : Statement (.vrsqrt sc d a k) :=
  fun hw => .inr (.inr (by
    refine decode_of_fields ?_ hw
    change decodeFields (pack sc 87#7 (d ++ a ++ 0#5 ++ k ++ 1#4)) 0 = _
    have hs := fld_sc sc 87#7 (d ++ a ++ 0#5 ++ k ++ 1#4)
    obtain ⟨f0, f1, f2, f3, f4⟩ := shape20 sc 87#7 d a 0#5 k 1#4
    rw [decodeFields_57 _ _ (fld_op _ _ _)]
    unfold decodeVSFU
    rw [hs, f2, f0, f1, f3, f4]
    rfl))

theorem vexp2 (sc : BitVec 3) (d : BitVec 5) (a : BitVec 5) (k : BitVec 3) : Statement (.vexp2 sc d a k) :=
  fun hw => .inr (.inr (by
    refine decode_of_fields ?_ hw
    change decodeFields (pack sc 87#7 (d ++ a ++ 0#5 ++ k ++ 2#4)) 0 = _
    have hs := fld_sc sc 87#7 (d ++ a ++ 0#5 ++ k ++ 2#4)
    obtain ⟨f0, f1, f2, f3, f4⟩ := shape20 sc 87#7 d a 0#5 k 2#4
    rw [decodeFields_57 _ _ (fld_op _ _ _)]
    unfold decodeVSFU
    rw [hs, f2, f0, f1, f3, f4]
    rfl))

theorem vlog2 (sc : BitVec 3) (d : BitVec 5) (a : BitVec 5) (k : BitVec 3) : Statement (.vlog2 sc d a k) :=
  fun hw => .inr (.inr (by
    refine decode_of_fields ?_ hw
    change decodeFields (pack sc 87#7 (d ++ a ++ 0#5 ++ k ++ 3#4)) 0 = _
    have hs := fld_sc sc 87#7 (d ++ a ++ 0#5 ++ k ++ 3#4)
    obtain ⟨f0, f1, f2, f3, f4⟩ := shape20 sc 87#7 d a 0#5 k 3#4
    rw [decodeFields_57 _ _ (fld_op _ _ _)]
    unfold decodeVSFU
    rw [hs, f2, f0, f1, f3, f4]
    rfl))

theorem vsqrt (sc : BitVec 3) (d : BitVec 5) (a : BitVec 5) (k : BitVec 3) : Statement (.vsqrt sc d a k) :=
  fun hw => .inr (.inr (by
    refine decode_of_fields ?_ hw
    change decodeFields (pack sc 87#7 (d ++ a ++ 0#5 ++ k ++ 4#4)) 0 = _
    have hs := fld_sc sc 87#7 (d ++ a ++ 0#5 ++ k ++ 4#4)
    obtain ⟨f0, f1, f2, f3, f4⟩ := shape20 sc 87#7 d a 0#5 k 4#4
    rw [decodeFields_57 _ _ (fld_op _ _ _)]
    unfold decodeVSFU
    rw [hs, f2, f0, f1, f3, f4]
    rfl))

theorem vld (sc : BitVec 3) (d : BitVec 5) (a : BitVec 5) (k : BitVec 3) (o : BitVec 9) : Statement (.vld sc d a k o) :=
  fun hw => .inr (.inr (by
    refine decode_of_fields ?_ hw
    change decodeFields (pack sc 88#7 (d ++ a ++ k ++ o)) 0 = _
    have hs := fld_sc sc 88#7 (d ++ a ++ k ++ o)
    obtain ⟨f0, f1, f2, f3⟩ := shape26 sc 88#7 d a k o
    rw [decodeFields_58 _ _ (fld_op _ _ _)]
    rw [hs, f0, f1, f2, f3]))

theorem vst (sc : BitVec 3) (d : BitVec 5) (a : BitVec 5) (k : BitVec 3) (o : BitVec 9) : Statement (.vst sc d a k o) :=
  fun hw => .inr (.inr (by
    refine decode_of_fields ?_ hw
    change decodeFields (pack sc 89#7 (d ++ a ++ k ++ o)) 0 = _
    have hs := fld_sc sc 89#7 (d ++ a ++ k ++ o)
    obtain ⟨f0, f1, f2, f3⟩ := shape26 sc 89#7 d a k o
    rw [decodeFields_59 _ _ (fld_op _ _ _)]
    rw [hs, f0, f1, f2, f3]))

theorem vlds (sc : BitVec 3) (d : BitVec 5) (a : BitVec 5) (b : BitVec 5) (k : BitVec 3) : Statement (.vlds sc d a b k) :=
  fun hw => .inr (.inr (by
    refine decode_of_fields ?_ hw
    change decodeFields (pack sc 90#7 (d ++ a ++ b ++ k ++ 0#4)) 0 = _
    have hs := fld_sc sc 90#7 (d ++ a ++ b ++ k ++ 0#4)
    obtain ⟨f0, f1, f2, f3, f4⟩ := shape19 sc 90#7 d a b k 0#4
    rw [decodeFields_5a _ _ (fld_op _ _ _)]
    unfold decodeVMEMX
    rw [hs, f0, f1, f2, f3, f4]
    rfl))

theorem vsts (sc : BitVec 3) (d : BitVec 5) (a : BitVec 5) (b : BitVec 5) (k : BitVec 3) : Statement (.vsts sc d a b k) :=
  fun hw => .inr (.inr (by
    refine decode_of_fields ?_ hw
    change decodeFields (pack sc 90#7 (d ++ a ++ b ++ k ++ 1#4)) 0 = _
    have hs := fld_sc sc 90#7 (d ++ a ++ b ++ k ++ 1#4)
    obtain ⟨f0, f1, f2, f3, f4⟩ := shape19 sc 90#7 d a b k 1#4
    rw [decodeFields_5a _ _ (fld_op _ _ _)]
    unfold decodeVMEMX
    rw [hs, f0, f1, f2, f3, f4]
    rfl))

theorem vgath (sc : BitVec 3) (d : BitVec 5) (a : BitVec 5) (b : BitVec 5) (k : BitVec 3) : Statement (.vgath sc d a b k) :=
  fun hw => .inr (.inr (by
    refine decode_of_fields ?_ hw
    change decodeFields (pack sc 90#7 (d ++ a ++ b ++ k ++ 2#4)) 0 = _
    have hs := fld_sc sc 90#7 (d ++ a ++ b ++ k ++ 2#4)
    obtain ⟨f0, f1, f2, f3, f4⟩ := shape19 sc 90#7 d a b k 2#4
    rw [decodeFields_5a _ _ (fld_op _ _ _)]
    unfold decodeVMEMX
    rw [hs, f0, f1, f2, f3, f4]
    rfl))

theorem vscat (sc : BitVec 3) (d : BitVec 5) (a : BitVec 5) (b : BitVec 5) (k : BitVec 3) : Statement (.vscat sc d a b k) :=
  fun hw => .inr (.inr (by
    refine decode_of_fields ?_ hw
    change decodeFields (pack sc 90#7 (d ++ a ++ b ++ k ++ 3#4)) 0 = _
    have hs := fld_sc sc 90#7 (d ++ a ++ b ++ k ++ 3#4)
    obtain ⟨f0, f1, f2, f3, f4⟩ := shape19 sc 90#7 d a b k 3#4
    rw [decodeFields_5a _ _ (fld_op _ _ _)]
    unfold decodeVMEMX
    rw [hs, f0, f1, f2, f3, f4]
    rfl))

theorem vldb (sc : BitVec 3) (d : BitVec 5) (a : BitVec 5) (k : BitVec 3) : Statement (.vldb sc d a k) :=
  fun hw => .inr (.inr (by
    refine decode_of_fields ?_ hw
    change decodeFields (pack sc 90#7 (d ++ a ++ 0#5 ++ k ++ 4#4)) 0 = _
    have hs := fld_sc sc 90#7 (d ++ a ++ 0#5 ++ k ++ 4#4)
    obtain ⟨f0, f1, f2, f3, f4⟩ := shape20 sc 90#7 d a 0#5 k 4#4
    rw [decodeFields_5a _ _ (fld_op _ _ _)]
    unfold decodeVMEMX
    rw [hs, f2, f0, f1, f3, f4]
    rfl))

theorem kand (sc : BitVec 3) (d : BitVec 3) (a : BitVec 3) (b : BitVec 3) : Statement (.kand sc d a b) :=
  fun hw => .inr (.inr (by
    refine decode_of_fields ?_ hw
    change decodeFields (pack sc 91#7 (0#2 ++ d ++ 0#2 ++ a ++ 0#2 ++ b ++ 0#7)) 0 = _
    have hs := fld_sc sc 91#7 (0#2 ++ d ++ 0#2 ++ a ++ 0#2 ++ b ++ 0#7)
    obtain ⟨f0, f1, f2, f3, f4, f5, f6, f7⟩ := shape27 sc 91#7 0#2 d 0#2 a 0#2 b 0#7
    rw [decodeFields_5b _ _ (fld_op _ _ _)]
    unfold decodeMASK
    rw [hs, f0, f2, f4, f6, f1, f3, f5, f7]
    rfl))

theorem kor (sc : BitVec 3) (d : BitVec 3) (a : BitVec 3) (b : BitVec 3) : Statement (.kor sc d a b) :=
  fun hw => .inr (.inr (by
    refine decode_of_fields ?_ hw
    change decodeFields (pack sc 91#7 (0#2 ++ d ++ 0#2 ++ a ++ 0#2 ++ b ++ 1#7)) 0 = _
    have hs := fld_sc sc 91#7 (0#2 ++ d ++ 0#2 ++ a ++ 0#2 ++ b ++ 1#7)
    obtain ⟨f0, f1, f2, f3, f4, f5, f6, f7⟩ := shape27 sc 91#7 0#2 d 0#2 a 0#2 b 1#7
    rw [decodeFields_5b _ _ (fld_op _ _ _)]
    unfold decodeMASK
    rw [hs, f0, f2, f4, f6, f1, f3, f5, f7]
    rfl))

theorem kxor (sc : BitVec 3) (d : BitVec 3) (a : BitVec 3) (b : BitVec 3) : Statement (.kxor sc d a b) :=
  fun hw => .inr (.inr (by
    refine decode_of_fields ?_ hw
    change decodeFields (pack sc 91#7 (0#2 ++ d ++ 0#2 ++ a ++ 0#2 ++ b ++ 2#7)) 0 = _
    have hs := fld_sc sc 91#7 (0#2 ++ d ++ 0#2 ++ a ++ 0#2 ++ b ++ 2#7)
    obtain ⟨f0, f1, f2, f3, f4, f5, f6, f7⟩ := shape27 sc 91#7 0#2 d 0#2 a 0#2 b 2#7
    rw [decodeFields_5b _ _ (fld_op _ _ _)]
    unfold decodeMASK
    rw [hs, f0, f2, f4, f6, f1, f3, f5, f7]
    rfl))

theorem kandn (sc : BitVec 3) (d : BitVec 3) (a : BitVec 3) (b : BitVec 3) : Statement (.kandn sc d a b) :=
  fun hw => .inr (.inr (by
    refine decode_of_fields ?_ hw
    change decodeFields (pack sc 91#7 (0#2 ++ d ++ 0#2 ++ a ++ 0#2 ++ b ++ 3#7)) 0 = _
    have hs := fld_sc sc 91#7 (0#2 ++ d ++ 0#2 ++ a ++ 0#2 ++ b ++ 3#7)
    obtain ⟨f0, f1, f2, f3, f4, f5, f6, f7⟩ := shape27 sc 91#7 0#2 d 0#2 a 0#2 b 3#7
    rw [decodeFields_5b _ _ (fld_op _ _ _)]
    unfold decodeMASK
    rw [hs, f0, f2, f4, f6, f1, f3, f5, f7]
    rfl))

theorem knot (sc : BitVec 3) (d : BitVec 3) (a : BitVec 3) : Statement (.knot sc d a) :=
  fun hw => .inr (.inr (by
    refine decode_of_fields ?_ hw
    change decodeFields (pack sc 91#7 (0#2 ++ d ++ 0#2 ++ a ++ 4#12)) 0 = _
    have hs := fld_sc sc 91#7 (0#2 ++ d ++ 0#2 ++ a ++ 4#12)
    obtain ⟨f0, f1, f2, f3, f4, f5⟩ := shape28 sc 91#7 0#2 d 0#2 a 4#12
    rw [decodeFields_5b _ _ (fld_op _ _ _)]
    unfold decodeMASK
    rw [hs, f0, f2, f4, f1, f3, f5]
    rfl))

theorem kpop (sc : BitVec 3) (d : BitVec 5) (a : BitVec 3) : Statement (.kpop sc d a) :=
  fun hw => .inr (.inr (by
    refine decode_of_fields ?_ hw
    change decodeFields (pack sc 91#7 (d ++ 0#2 ++ a ++ 5#12)) 0 = _
    have hs := fld_sc sc 91#7 (d ++ 0#2 ++ a ++ 5#12)
    obtain ⟨f0, f1, f2, -, f4, -, f6⟩ := shape29 sc 91#7 d 0#2 a 5#12
    rw [decodeFields_5b _ _ (fld_op _ _ _)]
    unfold decodeMASK
    rw [hs, f1, f4, f0, f2, f6]
    rfl))

theorem kffs (sc : BitVec 3) (d : BitVec 5) (a : BitVec 3) : Statement (.kffs sc d a) :=
  fun hw => .inr (.inr (by
    refine decode_of_fields ?_ hw
    change decodeFields (pack sc 91#7 (d ++ 0#2 ++ a ++ 6#12)) 0 = _
    have hs := fld_sc sc 91#7 (d ++ 0#2 ++ a ++ 6#12)
    obtain ⟨f0, f1, f2, -, f4, -, f6⟩ := shape29 sc 91#7 d 0#2 a 6#12
    rw [decodeFields_5b _ _ (fld_op _ _ _)]
    unfold decodeMASK
    rw [hs, f1, f4, f0, f2, f6]
    rfl))

theorem ksetn (sc : BitVec 3) (d : BitVec 3) (a : BitVec 5) : Statement (.ksetn sc d a) :=
  fun hw => .inr (.inr (by
    refine decode_of_fields ?_ hw
    change decodeFields (pack sc 91#7 (0#2 ++ d ++ a ++ 7#12)) 0 = _
    have hs := fld_sc sc 91#7 (0#2 ++ d ++ a ++ 7#12)
    obtain ⟨f0, f1, f2, -, f4, -, f6⟩ := shape30 sc 91#7 0#2 d a 7#12
    rw [decodeFields_5b _ _ (fld_op _ _ _)]
    unfold decodeMASK
    rw [hs, f0, f4, f1, f2, f6]
    rfl))

theorem kmovg (sc : BitVec 3) (d : BitVec 5) (a : BitVec 3) : Statement (.kmovg sc d a) :=
  fun hw => .inr (.inr (by
    refine decode_of_fields ?_ hw
    change decodeFields (pack sc 91#7 (d ++ 0#2 ++ a ++ 8#12)) 0 = _
    have hs := fld_sc sc 91#7 (d ++ 0#2 ++ a ++ 8#12)
    obtain ⟨f0, f1, f2, -, f4, -, f6⟩ := shape29 sc 91#7 d 0#2 a 8#12
    rw [decodeFields_5b _ _ (fld_op _ _ _)]
    unfold decodeMASK
    rw [hs, f1, f4, f0, f2, f6]
    rfl))

theorem kmovk (sc : BitVec 3) (d : BitVec 3) (a : BitVec 5) : Statement (.kmovk sc d a) :=
  fun hw => .inr (.inr (by
    refine decode_of_fields ?_ hw
    change decodeFields (pack sc 91#7 (0#2 ++ d ++ a ++ 9#12)) 0 = _
    have hs := fld_sc sc 91#7 (0#2 ++ d ++ a ++ 9#12)
    obtain ⟨f0, f1, f2, -, f4, -, f6⟩ := shape30 sc 91#7 0#2 d a 9#12
    rw [decodeFields_5b _ _ (fld_op _ _ _)]
    unfold decodeMASK
    rw [hs, f0, f4, f1, f2, f6]
    rfl))

theorem vsett (sc : BitVec 3) (d : BitVec 5) (a : BitVec 5) (t : BitVec 4) : Statement (.vsett sc d a t) :=
  fun hw => .inr (.inr (by
    refine decode_of_fields ?_ hw
    change decodeFields (pack sc 92#7 (d ++ a ++ 0#8 ++ t)) 0 = _
    have hs := fld_sc sc 92#7 (d ++ a ++ 0#8 ++ t)
    obtain ⟨f0, f1, f2, f3⟩ := shape31 sc 92#7 d a 0#8 t
    rw [decodeFields_5c _ _ (fld_op _ _ _)]
    rw [hs, f2, f0, f1, f3]
    rfl))

theorem mmaBf (sc : BitVec 3) (n : BitVec 2) (r : BitVec 3) (q : BitVec 3) (z : BitVec 1) : Statement (.mmaBf sc n r q z) :=
  fun hw => .inr (.inr (by
    refine decode_of_fields ?_ hw
    change decodeFields (pack sc 96#7 (n ++ r ++ q ++ 0#5 ++ z ++ 0#8)) 0 = _
    have hs := fld_sc sc 96#7 (n ++ r ++ q ++ 0#5 ++ z ++ 0#8)
    obtain ⟨f0, f1, f2, f3, f4, f5⟩ := shape32 sc 96#7 n r q 0#5 z 0#8
    rw [decodeFields_60 _ _ (fld_op _ _ _)]
    rw [hs, f3, f5, f0, f1, f2, f4]
    rfl))

theorem mmaHf (sc : BitVec 3) (n : BitVec 2) (r : BitVec 3) (q : BitVec 3) (z : BitVec 1) : Statement (.mmaHf sc n r q z) :=
  fun hw => .inr (.inr (by
    refine decode_of_fields ?_ hw
    change decodeFields (pack sc 97#7 (n ++ r ++ q ++ 0#5 ++ z ++ 0#8)) 0 = _
    have hs := fld_sc sc 97#7 (n ++ r ++ q ++ 0#5 ++ z ++ 0#8)
    obtain ⟨f0, f1, f2, f3, f4, f5⟩ := shape32 sc 97#7 n r q 0#5 z 0#8
    rw [decodeFields_61 _ _ (fld_op _ _ _)]
    rw [hs, f3, f5, f0, f1, f2, f4]
    rfl))

theorem mmaE44 (sc : BitVec 3) (n : BitVec 2) (r : BitVec 3) (q : BitVec 3) (f : BitVec 5) (z : BitVec 1) : Statement (.mmaE44 sc n r q f z) :=
  fun hw => .inr (.inr (by
    refine decode_of_fields ?_ hw
    change decodeFields (pack sc 98#7 (n ++ r ++ q ++ f ++ z ++ 0#8)) 0 = _
    have hs := fld_sc sc 98#7 (n ++ r ++ q ++ f ++ z ++ 0#8)
    obtain ⟨f0, f1, f2, f3, f4, f5⟩ := shape33 sc 98#7 n r q f z 0#8
    rw [decodeFields_62 _ _ (fld_op _ _ _)]
    rw [hs, f5, f0, f1, f2, f3, f4]
    rfl))

theorem mmaE45 (sc : BitVec 3) (n : BitVec 2) (r : BitVec 3) (q : BitVec 3) (f : BitVec 5) (z : BitVec 1) : Statement (.mmaE45 sc n r q f z) :=
  fun hw => .inr (.inr (by
    refine decode_of_fields ?_ hw
    change decodeFields (pack sc 99#7 (n ++ r ++ q ++ f ++ z ++ 0#8)) 0 = _
    have hs := fld_sc sc 99#7 (n ++ r ++ q ++ f ++ z ++ 0#8)
    obtain ⟨f0, f1, f2, f3, f4, f5⟩ := shape33 sc 99#7 n r q f z 0#8
    rw [decodeFields_63 _ _ (fld_op _ _ _)]
    rw [hs, f5, f0, f1, f2, f3, f4]
    rfl))

theorem mmaE55 (sc : BitVec 3) (n : BitVec 2) (r : BitVec 3) (q : BitVec 3) (f : BitVec 5) (z : BitVec 1) : Statement (.mmaE55 sc n r q f z) :=
  fun hw => .inr (.inr (by
    refine decode_of_fields ?_ hw
    change decodeFields (pack sc 100#7 (n ++ r ++ q ++ f ++ z ++ 0#8)) 0 = _
    have hs := fld_sc sc 100#7 (n ++ r ++ q ++ f ++ z ++ 0#8)
    obtain ⟨f0, f1, f2, f3, f4, f5⟩ := shape33 sc 100#7 n r q f z 0#8
    rw [decodeFields_64 _ _ (fld_op _ _ _)]
    rw [hs, f5, f0, f1, f2, f3, f4]
    rfl))

theorem mmaI8 (sc : BitVec 3) (n : BitVec 2) (r : BitVec 3) (q : BitVec 3) (z : BitVec 1) : Statement (.mmaI8 sc n r q z) :=
  fun hw => .inr (.inr (by
    refine decode_of_fields ?_ hw
    change decodeFields (pack sc 101#7 (n ++ r ++ q ++ 0#5 ++ z ++ 0#8)) 0 = _
    have hs := fld_sc sc 101#7 (n ++ r ++ q ++ 0#5 ++ z ++ 0#8)
    obtain ⟨f0, f1, f2, f3, f4, f5⟩ := shape32 sc 101#7 n r q 0#5 z 0#8
    rw [decodeFields_65 _ _ (fld_op _ _ _)]
    rw [hs, f3, f5, f0, f1, f2, f4]
    rfl))

theorem mmaNb (sc : BitVec 3) (n : BitVec 2) (r : BitVec 3) (q : BitVec 3) (f : BitVec 5) (z : BitVec 1) : Statement (.mmaNb sc n r q f z) :=
  fun hw => .inr (.inr (by
    refine decode_of_fields ?_ hw
    change decodeFields (pack sc 102#7 (n ++ r ++ q ++ f ++ z ++ 0#8)) 0 = _
    have hs := fld_sc sc 102#7 (n ++ r ++ q ++ f ++ z ++ 0#8)
    obtain ⟨f0, f1, f2, f3, f4, f5⟩ := shape33 sc 102#7 n r q f z 0#8
    rw [decodeFields_66 _ _ (fld_op _ _ _)]
    rw [hs, f5, f0, f1, f2, f3, f4]
    rfl))

theorem mmaNe (sc : BitVec 3) (n : BitVec 2) (r : BitVec 3) (q : BitVec 3) (f : BitVec 5) (z : BitVec 1) : Statement (.mmaNe sc n r q f z) :=
  fun hw => .inr (.inr (by
    refine decode_of_fields ?_ hw
    change decodeFields (pack sc 103#7 (n ++ r ++ q ++ f ++ z ++ 0#8)) 0 = _
    have hs := fld_sc sc 103#7 (n ++ r ++ q ++ f ++ z ++ 0#8)
    obtain ⟨f0, f1, f2, f3, f4, f5⟩ := shape33 sc 103#7 n r q f z 0#8
    rw [decodeFields_67 _ _ (fld_op _ _ _)]
    rw [hs, f5, f0, f1, f2, f3, f4]
    rfl))

theorem mlease (sc : BitVec 3) : Statement (.mlease sc) :=
  fun hw => .inr (.inr (by
    refine decode_of_fields ?_ hw
    change decodeFields (pack sc 104#7 (0#22)) 0 = _
    have hs := fld_sc sc 104#7 (0#22)
    obtain ⟨f0, f1⟩ := shape13 sc 104#7 0#22
    rw [decodeFields_68 _ _ (fld_op _ _ _)]
    unfold decodeMCTL
    rw [hs, f0, f1]
    rfl))

theorem mleaseB (sc : BitVec 3) (d : BitVec 5) : Statement (.mleaseB sc d) :=
  fun hw => .inr (.inr (by
    refine decode_of_fields ?_ hw
    change decodeFields (pack sc 104#7 (d ++ 1#17)) 0 = _
    have hs := fld_sc sc 104#7 (d ++ 1#17)
    obtain ⟨f0, f1, -, f3⟩ := shape7 sc 104#7 d 1#17
    rw [decodeFields_68 _ _ (fld_op _ _ _)]
    unfold decodeMCTL
    rw [hs, f1, f0, f3]
    rfl))

theorem mrel (sc : BitVec 3) : Statement (.mrel sc) :=
  fun hw => .inr (.inr (by
    refine decode_of_fields ?_ hw
    change decodeFields (pack sc 104#7 (2#22)) 0 = _
    have hs := fld_sc sc 104#7 (2#22)
    obtain ⟨f0, f1⟩ := shape13 sc 104#7 2#22
    rw [decodeFields_68 _ _ (fld_op _ _ _)]
    unfold decodeMCTL
    rw [hs, f0, f1]
    rfl))

theorem mzero (sc : BitVec 3) (n : BitVec 2) : Statement (.mzero sc n) :=
  fun hw => .inr (.inr (by
    refine decode_of_fields ?_ hw
    change decodeFields (pack sc 104#7 (0#3 ++ n ++ 3#17)) 0 = _
    have hs := fld_sc sc 104#7 (0#3 ++ n ++ 3#17)
    obtain ⟨f0, f1, f2, f3⟩ := shape34 sc 104#7 0#3 n 3#17
    rw [decodeFields_68 _ _ (fld_op _ _ _)]
    unfold decodeMCTL
    rw [hs, f0, f2, f1, f3]
    rfl))

theorem mdrain (sc : BitVec 3) (n : BitVec 2) (a : BitVec 5) (b : BitVec 5) : Statement (.mdrain sc n a b) :=
  fun hw => .inr (.inr (by
    refine decode_of_fields ?_ hw
    change decodeFields (pack sc 104#7 (0#3 ++ n ++ a ++ b ++ 4#7)) 0 = _
    have hs := fld_sc sc 104#7 (0#3 ++ n ++ a ++ b ++ 4#7)
    obtain ⟨f0, f1, f2, f3, f4⟩ := shape35 sc 104#7 0#3 n a b 4#7
    rw [decodeFields_68 _ _ (fld_op _ _ _)]
    unfold decodeMCTL
    rw [hs, f0, f1, f2, f3, f4]
    rfl))

theorem maccget (sc : BitVec 3) (m : BitVec 3) (n : BitVec 2) (c : BitVec 4) : Statement (.maccget sc m n c) :=
  fun hw => .inr (.inr (by
    refine decode_of_fields ?_ hw
    change decodeFields (pack sc 104#7 (0#2 ++ m ++ 0#3 ++ n ++ 0#1 ++ c ++ 5#7)) 0 = _
    have hs := fld_sc sc 104#7 (0#2 ++ m ++ 0#3 ++ n ++ 0#1 ++ c ++ 5#7)
    obtain ⟨f0, f1, f2, f3, f4, f5, f6⟩ := shape36 sc 104#7 0#2 m 0#3 n 0#1 c 5#7
    rw [decodeFields_68 _ _ (fld_op _ _ _)]
    unfold decodeMCTL
    rw [hs, f0, f2, f4, f1, f3, f5, f6]
    rfl))

theorem maccput (sc : BitVec 3) (n : BitVec 2) (m : BitVec 3) (c : BitVec 4) : Statement (.maccput sc n m c) :=
  fun hw => .inr (.inr (by
    refine decode_of_fields ?_ hw
    change decodeFields (pack sc 104#7 (0#3 ++ n ++ 0#2 ++ m ++ 0#1 ++ c ++ 6#7)) 0 = _
    have hs := fld_sc sc 104#7 (0#3 ++ n ++ 0#2 ++ m ++ 0#1 ++ c ++ 6#7)
    obtain ⟨f0, f1, f2, f3, f4, f5, f6⟩ := shape37 sc 104#7 0#3 n 0#2 m 0#1 c 6#7
    rw [decodeFields_68 _ _ (fld_op _ _ _)]
    unfold decodeMCTL
    rw [hs, f0, f2, f4, f1, f3, f5, f6]
    rfl))

theorem rpop (sc : BitVec 3) (r : BitVec 3) : Statement (.rpop sc r) :=
  fun hw => .inr (.inr (by
    refine decode_of_fields ?_ hw
    change decodeFields (pack sc 104#7 (0#7 ++ r ++ 8#12)) 0 = _
    have hs := fld_sc sc 104#7 (0#7 ++ r ++ 8#12)
    obtain ⟨f0, f1, f2, f3⟩ := shape38 sc 104#7 0#7 r 8#12
    rw [decodeFields_68 _ _ (fld_op _ _ _)]
    unfold decodeMCTL
    rw [hs, f0, f2, f1, f3]
    rfl))

theorem rstat (sc : BitVec 3) (d : BitVec 5) (r : BitVec 3) : Statement (.rstat sc d r) :=
  fun hw => .inr (.inr (by
    refine decode_of_fields ?_ hw
    change decodeFields (pack sc 104#7 (d ++ 0#2 ++ r ++ 9#12)) 0 = _
    have hs := fld_sc sc 104#7 (d ++ 0#2 ++ r ++ 9#12)
    obtain ⟨f0, f1, f2, f3, -, f5, -⟩ := shape29 sc 104#7 d 0#2 r 9#12
    rw [decodeFields_68 _ _ (fld_op _ _ _)]
    unfold decodeMCTL
    rw [hs, f1, f3, f0, f2, f5]
    rfl))

theorem mrowset (sc : BitVec 3) (m : BitVec 3) (a : BitVec 5) (b : BitVec 5) : Statement (.mrowset sc m a b) :=
  fun hw => .inr (.inr (by
    refine decode_of_fields ?_ hw
    change decodeFields (pack sc 105#7 (0#2 ++ m ++ a ++ b ++ 0#7)) 0 = _
    have hs := fld_sc sc 105#7 (0#2 ++ m ++ a ++ b ++ 0#7)
    obtain ⟨f0, f1, f2, f3, f4⟩ := shape39 sc 105#7 0#2 m a b 0#7
    rw [decodeFields_69 _ _ (fld_op _ _ _)]
    unfold decodeMREG
    rw [hs, f0, f1, f2, f3, f4]
    rfl))

theorem mrowget (sc : BitVec 3) (d : BitVec 5) (m : BitVec 3) (b : BitVec 5) : Statement (.mrowget sc d m b) :=
  fun hw => .inr (.inr (by
    refine decode_of_fields ?_ hw
    change decodeFields (pack sc 105#7 (d ++ 0#2 ++ m ++ b ++ 1#7)) 0 = _
    have hs := fld_sc sc 105#7 (d ++ 0#2 ++ m ++ b ++ 1#7)
    obtain ⟨f0, f1, f2, f3, f4⟩ := shape40 sc 105#7 d 0#2 m b 1#7
    rw [decodeFields_69 _ _ (fld_op _ _ _)]
    unfold decodeMREG
    rw [hs, f1, f0, f2, f3, f4]
    rfl))

theorem mcolset (sc : BitVec 3) (m : BitVec 3) (a : BitVec 5) (b : BitVec 5) : Statement (.mcolset sc m a b) :=
  fun hw => .inr (.inr (by
    refine decode_of_fields ?_ hw
    change decodeFields (pack sc 105#7 (0#2 ++ m ++ a ++ b ++ 2#7)) 0 = _
    have hs := fld_sc sc 105#7 (0#2 ++ m ++ a ++ b ++ 2#7)
    obtain ⟨f0, f1, f2, f3, f4⟩ := shape39 sc 105#7 0#2 m a b 2#7
    rw [decodeFields_69 _ _ (fld_op _ _ _)]
    unfold decodeMREG
    rw [hs, f0, f1, f2, f3, f4]
    rfl))

theorem mcolget (sc : BitVec 3) (d : BitVec 5) (m : BitVec 3) (b : BitVec 5) : Statement (.mcolget sc d m b) :=
  fun hw => .inr (.inr (by
    refine decode_of_fields ?_ hw
    change decodeFields (pack sc 105#7 (d ++ 0#2 ++ m ++ b ++ 3#7)) 0 = _
    have hs := fld_sc sc 105#7 (d ++ 0#2 ++ m ++ b ++ 3#7)
    obtain ⟨f0, f1, f2, f3, f4⟩ := shape40 sc 105#7 d 0#2 m b 3#7
    rw [decodeFields_69 _ _ (fld_op _ _ _)]
    unfold decodeMREG
    rw [hs, f1, f0, f2, f3, f4]
    rfl))

theorem mldm (sc : BitVec 3) (m : BitVec 3) (a : BitVec 5) : Statement (.mldm sc m a) :=
  fun hw => .inr (.inr (by
    refine decode_of_fields ?_ hw
    change decodeFields (pack sc 105#7 (0#2 ++ m ++ a ++ 4#12)) 0 = _
    have hs := fld_sc sc 105#7 (0#2 ++ m ++ a ++ 4#12)
    obtain ⟨f0, f1, f2, f3, -, f5, -⟩ := shape30 sc 105#7 0#2 m a 4#12
    rw [decodeFields_69 _ _ (fld_op _ _ _)]
    unfold decodeMREG
    rw [hs, f0, f3, f1, f2, f5]
    rfl))

theorem mstm (sc : BitVec 3) (m : BitVec 3) (a : BitVec 5) : Statement (.mstm sc m a) :=
  fun hw => .inr (.inr (by
    refine decode_of_fields ?_ hw
    change decodeFields (pack sc 105#7 (0#2 ++ m ++ a ++ 5#12)) 0 = _
    have hs := fld_sc sc 105#7 (0#2 ++ m ++ a ++ 5#12)
    obtain ⟨f0, f1, f2, f3, -, f5, -⟩ := shape30 sc 105#7 0#2 m a 5#12
    rw [decodeFields_69 _ _ (fld_op _ _ _)]
    unfold decodeMREG
    rw [hs, f0, f3, f1, f2, f5]
    rfl))

theorem reservedEncoding (w : BitVec 32) : Statement (.reservedEncoding w) := fun _ => .inr (.inl ⟨_, rfl⟩)

theorem panelReset (verified : Bool) (failing : List Nat) : Statement (.panelReset verified failing) := fun _ => .inl rfl

theorem mwbell (slot : Nat) : Statement (.mwbell slot) := fun _ => .inl rfl

theorem nonceWrite (nonce : List Byte) : Statement (.nonceWrite nonce) := fun _ => .inl rfl

theorem launch : Statement (.launch) := fun _ => .inl rfl

theorem launchInject (launch : Nat) (die : Nat) : Statement (.launchInject launch die) := fun _ => .inl rfl

theorem cancelMessage : Statement (.cancelMessage) := fun _ => .inl rfl

theorem mgmtAssignCounter : Statement (.mgmtAssignCounter) := fun _ => .inl rfl

theorem mgmtFreeCounter : Statement (.mgmtFreeCounter) := fun _ => .inl rfl

theorem mgmtExtentUnmapped : Statement (.mgmtExtentUnmapped) := fun _ => .inl rfl

theorem mgmtUnmarkExecutable : Statement (.mgmtUnmarkExecutable) := fun _ => .inl rfl

theorem mgmtDefineTenant : Statement (.mgmtDefineTenant) := fun _ => .inl rfl

theorem mgmtRemoveTenant : Statement (.mgmtRemoveTenant) := fun _ => .inl rfl

theorem routeset (die : Nat) : Statement (.routeset die) := fun _ => .inl rfl

theorem timerset (die : Nat) : Statement (.timerset die) := fun _ => .inl rfl

theorem timerDeadline (hart : Nat) : Statement (.timerDeadline hart) := fun _ => .inl rfl

theorem parkctlRegister (die : Nat) : Statement (.parkctlRegister die) := fun _ => .inl rfl

theorem parkctlResume (die : Nat) : Statement (.parkctlResume die) := fun _ => .inl rfl

theorem parkctlDiscard (die : Nat) : Statement (.parkctlDiscard die) := fun _ => .inl rfl

theorem faultRecord (die : Nat) : Statement (.faultRecord die) := fun _ => .inl rfl

theorem cxlExtentOffer (port : Nat) (index : Nat) (base : Nat) (length : Nat) : Statement (.cxlExtentOffer port index base length) := fun _ => .inl rfl

theorem cxlExtentReleaseRequest (port : Nat) (index : Nat) : Statement (.cxlExtentReleaseRequest port index) := fun _ => .inl rfl

theorem imageLoad (image : BolliaImage) : Statement (.imageLoad image) := fun _ => .inl rfl

theorem panelHalt : Statement (.panelHalt) := fun _ => .inl rfl

theorem panelResume : Statement (.panelResume) := fun _ => .inl rfl

theorem dispatch (hart : Nat) : Statement (.dispatch hart) := fun _ => .inl rfl

theorem messageArrival (packet : Nat) : Statement (.messageArrival packet) := fun _ => .inl rfl

theorem bounceReturn (packet : Nat) : Statement (.bounceReturn packet) := fun _ => .inl rfl

theorem sendRetry (hart : Nat) (entry : Nat) : Statement (.sendRetry hart entry) := fun _ => .inl rfl

theorem sendAcceptance (packet : Nat) : Statement (.sendAcceptance packet) := fun _ => .inl rfl

theorem spawnAnswer (packet : Nat) : Statement (.spawnAnswer packet) := fun _ => .inl rfl

theorem counterUpdate (packet : Nat) : Statement (.counterUpdate packet) := fun _ => .inl rfl

theorem counterUpdateAck (packet : Nat) : Statement (.counterUpdateAck packet) := fun _ => .inl rfl

theorem loadLevel (vt : Nat) : Statement (.loadLevel vt) := fun _ => .inl rfl

theorem accDeliveryArrival (packet : Nat) : Statement (.accDeliveryArrival packet) := fun _ => .inl rfl

theorem accApply (unit : Nat) : Statement (.accApply unit) := fun _ => .inl rfl

theorem accBounce (packet : Nat) : Statement (.accBounce packet) := fun _ => .inl rfl

theorem accOutcome (packet : Nat) : Statement (.accOutcome packet) := fun _ => .inl rfl

theorem quotaWindow (vt : Nat) : Statement (.quotaWindow vt) := fun _ => .inl rfl

theorem switchAddend (packet : Nat) : Statement (.switchAddend packet) := fun _ => .inl rfl

theorem switchDeliver (buffer : Nat) : Statement (.switchDeliver buffer) := fun _ => .inl rfl

theorem switchResend (buffer : Nat) : Statement (.switchResend buffer) := fun _ => .inl rfl

theorem cardAdmit (vt : Nat) : Statement (.cardAdmit vt) := fun _ => .inl rfl

theorem cardStart (vt : Nat) (card : Nat) : Statement (.cardStart vt card) := fun _ => .inl rfl

theorem cardLineAccess (vt : Nat) (card : Nat) (line : Nat) : Statement (.cardLineAccess vt card line) := fun _ => .inl rfl

theorem cardComplete (vt : Nat) (card : Nat) : Statement (.cardComplete vt card) := fun _ => .inl rfl

theorem ringfeedEntry (vt : Nat) (card : Nat) : Statement (.ringfeedEntry vt card) := fun _ => .inl rfl

theorem mreqLineLand (vt : Nat) (mreq : Nat) (line : Nat) : Statement (.mreqLineLand vt mreq line) := fun _ => .inl rfl

theorem mmaStart (vt : Nat) : Statement (.mmaStart vt) := fun _ => .inl rfl

theorem mmaRetire (vt : Nat) : Statement (.mmaRetire vt) := fun _ => .inl rfl

theorem screenVerdict (vt : Nat) : Statement (.screenVerdict vt) := fun _ => .inl rfl

theorem arrayCommandStart (vt : Nat) : Statement (.arrayCommandStart vt) := fun _ => .inl rfl

theorem arrayCommandRetire (vt : Nat) : Statement (.arrayCommandRetire vt) := fun _ => .inl rfl

theorem ringCommandTurn (vt : Nat) (hart : Nat) : Statement (.ringCommandTurn vt hart) := fun _ => .inl rfl

theorem mdrainCopy (vt : Nat) : Statement (.mdrainCopy vt) := fun _ => .inl rfl

theorem mdrainRowWrite (vt : Nat) (drain : Nat) (row : Nat) : Statement (.mdrainRowWrite vt drain row) := fun _ => .inl rfl

theorem mdrainWake (vt : Nat) (drain : Nat) : Statement (.mdrainWake vt drain) := fun _ => .inl rfl

theorem slotBoundary (vt : Nat) : Statement (.slotBoundary vt) := fun _ => .inl rfl

theorem leaseGrant (vt : Nat) : Statement (.leaseGrant vt) := fun _ => .inl rfl

theorem feLoadRetry (hart : Nat) (access : Nat) (part : Nat) : Statement (.feLoadRetry hart access part) := fun _ => .inl rfl

theorem feTimeout (hart : Nat) (access : Nat) : Statement (.feTimeout hart access) := fun _ => .inl rfl

theorem sramScrub (vt : Nat) (offset : Nat) : Statement (.sramScrub vt offset) := fun _ => .inl rfl

theorem homeLineRequest (hart : Nat) (access : Nat) (part : Nat) : Statement (.homeLineRequest hart access part) := fun _ => .inl rfl

theorem accessAnswer (hart : Nat) (access : Nat) : Statement (.accessAnswer hart access) := fun _ => .inl rfl

theorem hbmBatchForm (die : Nat) (channel : Nat) : Statement (.hbmBatchForm die channel) := fun _ => .inl rfl

theorem refreshManagement (die : Nat) (channel : Nat) (bank : Nat) (row : Nat) : Statement (.refreshManagement die channel bank row) := fun _ => .inl rfl

theorem patrolRead (die : Nat) (channel : Nat) (finding : PatrolFinding) : Statement (.patrolRead die channel finding) := fun _ => .inl rfl

theorem pageWalk (hart : Nat) (va : BitVec 64) (kind : AccessKind) : Statement (.pageWalk hart va kind) := fun _ => .inl rfl

theorem barrierOpApply (packet : Nat) : Statement (.barrierOpApply packet) := fun _ => .inl rfl

theorem watchRegister (hart : Nat) (watch : Nat) : Statement (.watchRegister hart watch) := fun _ => .inl rfl

theorem watchEvict (hart : Nat) (watch : Nat) : Statement (.watchEvict hart watch) := fun _ => .inl rfl

theorem lwaitTimeout (hart : Nat) : Statement (.lwaitTimeout hart) := fun _ => .inl rfl

theorem trapEntry (hart : Nat) : Statement (.trapEntry hart) := fun _ => .inl rfl

theorem interruptEntry (hart : Nat) : Statement (.interruptEntry hart) := fun _ => .inl rfl

theorem parkDump (die : Nat) : Statement (.parkDump die) := fun _ => .inl rfl

theorem ecallKService (hart : Nat) : Statement (.ecallKService hart) := fun _ => .inl rfl

theorem frameReload (hart : Nat) : Statement (.frameReload hart) := fun _ => .inl rfl

theorem laneGroupGrant (vt : Nat) : Statement (.laneGroupGrant vt) := fun _ => .inl rfl

theorem sfuEntryStart (vt : Nat) : Statement (.sfuEntryStart vt) := fun _ => .inl rfl

theorem sfuResult (vt : Nat) : Statement (.sfuResult vt) := fun _ => .inl rfl

theorem sfuReentry (hart : Nat) : Statement (.sfuReentry hart) := fun _ => .inl rfl

theorem rotationStart (die : Nat) : Statement (.rotationStart die) := fun _ => .inl rfl

theorem rotationDrain (die : Nat) : Statement (.rotationDrain die) := fun _ => .inl rfl

theorem rotationPause (die : Nat) : Statement (.rotationPause die) := fun _ => .inl rfl

theorem rotationAbandon (die : Nat) : Statement (.rotationAbandon die) := fun _ => .inl rfl

theorem selfTestEnd (die : Nat) (pt : Nat) (pass : Bool) : Statement (.selfTestEnd die pt pass) := fun _ => .inl rfl

theorem tileWakeDone (die : Nat) (pt : Nat) : Statement (.tileWakeDone die pt) := fun _ => .inl rfl

theorem ckptInterval (hart : Nat) : Statement (.ckptInterval hart) := fun _ => .inl rfl

theorem logForcedCkpt (vt : Nat) : Statement (.logForcedCkpt vt) := fun _ => .inl rfl

theorem moonForcedCkpt (vt : Nat) : Statement (.moonForcedCkpt vt) := fun _ => .inl rfl

theorem ckptCommit (vt : Nat) : Statement (.ckptCommit vt) := fun _ => .inl rfl

theorem outOfTurnResend (packet : Nat) : Statement (.outOfTurnResend packet) := fun _ => .inl rfl

theorem voidMarker (packet : Nat) : Statement (.voidMarker packet) := fun _ => .inl rfl

theorem egressRelease (vt : Nat) : Statement (.egressRelease vt) := fun _ => .inl rfl

theorem blockCheck (hart : Nat) : Statement (.blockCheck hart) := fun _ => .inl rfl

theorem rollback (vt : Nat) : Statement (.rollback vt) := fun _ => .inl rfl

theorem replayResume (vt : Nat) : Statement (.replayResume vt) := fun _ => .inl rfl

theorem replayLogEvent (vt : Nat) : Statement (.replayLogEvent vt) := fun _ => .inl rfl

theorem ageStressTick (die : Nat) (pt : Nat) (voltageBin : Nat) (temperatureBin : Nat) : Statement (.ageStressTick die pt voltageBin temperatureBin) := fun _ => .inl rfl

theorem regulatorPhaseFail (die : Nat) (group : Nat) : Statement (.regulatorPhaseFail die group) := fun _ => .inl rfl

theorem flashRewrite : Statement (.flashRewrite) := fun _ => .inl rfl

theorem budgetTick (otherWatts : Nat) (p16 : List Nat) : Statement (.budgetTick otherWatts p16) := fun _ => .inl rfl

theorem equotaRenew (hart : Nat) : Statement (.equotaRenew hart) := fun _ => .inl rfl

theorem droopTrip (vt : Nat) : Statement (.droopTrip vt) := fun _ => .inl rfl

theorem droopStretchEnd (vt : Nat) : Statement (.droopStretchEnd vt) := fun _ => .inl rfl

theorem droopHalveEnd (vt : Nat) : Statement (.droopHalveEnd vt) := fun _ => .inl rfl

theorem shelfFrame (bytes : List Byte) : Statement (.shelfFrame bytes) := fun _ => .inl rfl

theorem shedLimitUpdate (die : Nat) : Statement (.shedLimitUpdate die) := fun _ => .inl rfl

theorem shedHoldTimeout (hart : Nat) : Statement (.shedHoldTimeout hart) := fun _ => .inl rfl

theorem shedRestore (die : Nat) : Statement (.shedRestore die) := fun _ => .inl rfl

theorem shelfFallback : Statement (.shelfFallback) := fun _ => .inl rfl

theorem clockLoss (die : Nat) (pt : Nat) : Statement (.clockLoss die pt) := fun _ => .inl rfl

theorem hubFailover (die : Nat) : Statement (.hubFailover die) := fun _ => .inl rfl

theorem reroot (die : Nat) : Statement (.reroot die) := fun _ => .inl rfl

theorem rootFailover : Statement (.rootFailover) := fun _ => .inl rfl

theorem clockLock (die : Nat) (pt : Nat) : Statement (.clockLock die pt) := fun _ => .inl rfl

theorem linkCrcRetry (link : Nat) (good : Bool) : Statement (.linkCrcRetry link good) := fun _ => .inl rfl

theorem samplePulse (die : Nat) : Statement (.samplePulse die) := fun _ => .inl rfl

theorem dbgctlResume (hart : Nat) : Statement (.dbgctlResume hart) := fun _ => .inl rfl

theorem dbgctlHaltreq (hart : Nat) : Statement (.dbgctlHaltreq hart) := fun _ => .inl rfl

theorem csrWrite (hart : Nat) (csr : BitVec 12) (value : BitVec 64) : Statement (.csrWrite hart csr value) := fun _ => .inl rfl

theorem mshapeWrite (hart : Nat) (value : BitVec 64) : Statement (.mshapeWrite hart value) := fun _ => .inl rfl

theorem slottabWrite (hart : Nat) (value : BitVec 64) : Statement (.slottabWrite hart value) := fun _ => .inl rfl

theorem leasenWrite (hart : Nat) (value : BitVec 64) : Statement (.leasenWrite hart value) := fun _ => .inl rfl

theorem msaveClaim (hart : Nat) (value : BitVec 64) : Statement (.msaveClaim hart value) := fun _ => .inl rfl

theorem msaveInval (hart : Nat) (value : BitVec 64) : Statement (.msaveInval hart value) := fun _ => .inl rfl

theorem ringcfgWrite (hart : Nat) (ring : Nat) (value : BitVec 64) : Statement (.ringcfgWrite hart ring value) := fun _ => .inl rfl

theorem hrdataWrite (hart : Nat) (value : BitVec 64) : Statement (.hrdataWrite hart value) := fun _ => .inl rfl

theorem fetchdutyWrite (hart : Nat) (value : BitVec 64) : Statement (.fetchdutyWrite hart value) := fun _ => .inl rfl

theorem tracectlWrite (hart : Nat) (value : BitVec 64) : Statement (.tracectlWrite hart value) := fun _ => .inl rfl

theorem vmapRotate (die : Nat) : Statement (.vmapRotate die) := fun _ => .inl rfl

theorem vmapMarkRetire (die : Nat) : Statement (.vmapMarkRetire die) := fun _ => .inl rfl

theorem diaginjAccBit (die : Nat) (pt : Nat) (hart : Nat) (row : Nat) (column : Nat) (bit : Nat) : Statement (.diaginjAccBit die pt hart row column bit) := fun _ => .inl rfl

theorem diaginjSramBit (die : Nat) (pt : Nat) (offset : Nat) (bit : Nat) : Statement (.diaginjSramBit die pt offset bit) := fun _ => .inl rfl

theorem diaginjSignature (die : Nat) (pt : Nat) (hart : Nat) : Statement (.diaginjSignature die pt hart) := fun _ => .inl rfl

theorem resultWritten (hart : Nat) : Statement (.resultWritten hart) := fun _ => .inl rfl

end Sys2Proof.Laws.RoundTrip
end

