-- ==== Sys2Proof/Laws/Places.lean ====
section
/-! SUPPORT. What a read finds at a place: the bytes of memory where the rules state them, and in every case a change of the
free-value counter only. -/

namespace Sys2Proof.Machine

theorem placeBytes_stated {s : State} {p : Place} (h : p.unstated = false) (n : Nat) :
    s.placeBytes p n = (s, memBytes s.mem p.key n) := by simp [State.placeBytes, h]

/-- A read changes nothing but the counter of free values. -/
theorem placeBytes_frame (s : State) (p : Place) (n : Nat) :
    (s.placeBytes p n).1 = { s with free := (s.placeBytes p n).1.free } := by
  unfold State.placeBytes
  split <;> rfl

@[simp] theorem placeBytes_mem (s : State) (p : Place) (n : Nat) : (s.placeBytes p n).1.mem = s.mem := by
  rw [placeBytes_frame]

@[simp] theorem placeBytes_length (s : State) (p : Place) (n : Nat) : (s.placeBytes p n).2.length = n := by
  unfold State.placeBytes
  split <;> simp

/-- The addresses of programs lie where the rules state every byte. -/
theorem slicePlace_stated {v off : Nat} (h : off < 0x300000) : (slicePlace v off).unstated = false := by
  have : ¬ (0x300000 ≤ off ∧ off < 0x3E0000) := by omega
  simp [slicePlace, Place.unstated, this]

end Sys2Proof.Machine
end

