-- ==== Sys2Proof/Laws/Results.lean ====
section
/-! SUPPORT. Results in flight (R25-R28): aging and draining end in the same registers, a new result lands last, and writes to
different registers commute. -/

namespace Sys2Proof.Machine

theorem Regs.write_comm (r : Regs) {d e : Reg} (x y : VReg) (h : d ≠ e) :
    (r.write d x).write e y = (r.write e y).write d x := by
  cases d <;> cases e <;> simp only [Regs.write]
  case g.g a b =>
    have : a.toNat ≠ b.toNat := fun e => h (congrArg Reg.g (BitVec.eq_of_toNat_eq e))
    by_cases ha : a = 0 <;> by_cases hb : b = 0 <;> simp only [ha, hb, if_true, if_false, Vector.set_comm _ _ this]
  case f.f a b =>
    have : a.toNat ≠ b.toNat := fun e => h (congrArg Reg.f (BitVec.eq_of_toNat_eq e))
    simp [Vector.set_comm _ _ this]
  case v.v a b =>
    have : a.toNat ≠ b.toNat := fun e => h (congrArg Reg.v (BitVec.eq_of_toNat_eq e))
    simp [Vector.set_comm _ _ this]
  case k.k a b =>
    have : a.toNat ≠ b.toNat := fun e => h (congrArg Reg.k (BitVec.eq_of_toNat_eq e))
    simp [Vector.set_comm _ _ this]
  all_goals (repeat' split) <;> rfl

theorem Regs.read_write_ne (r : Regs) {d e : Reg} (x : VReg) (h : d ≠ e) : (r.write d x).read e = r.read e := by
  cases d <;> cases e <;> simp only [Regs.write, Regs.read]
  case g.g a b =>
    have : a.toNat ≠ b.toNat := fun e => h (congrArg Reg.g (BitVec.eq_of_toNat_eq e))
    by_cases ha : a = 0 <;> by_cases hb : b = 0 <;>
      simp only [ha, hb, if_true, if_false, Vector.getElem_set_ne _ _ this]
  case f.f a b =>
    have : a.toNat ≠ b.toNat := fun e => h (congrArg Reg.f (BitVec.eq_of_toNat_eq e))
    simp [Vector.getElem_set_ne _ _ this]
  case v.v a b =>
    have : a.toNat ≠ b.toNat := fun e => h (congrArg Reg.v (BitVec.eq_of_toNat_eq e))
    simp [Vector.getElem_set_ne _ _ this]
  case k.k a b =>
    have : a.toNat ≠ b.toNat := fun e => h (congrArg Reg.k (BitVec.eq_of_toNat_eq e))
    simp [Vector.getElem_set_ne _ _ this]
  all_goals (repeat' split) <;> rfl

theorem Regs.read_write_g (r : Regs) {d : BitVec 5} (x : Word) (h : d ≠ 0) :
    (r.write (.g d) (x.zeroExtend 512)).read (.g d) = x.zeroExtend 512 := by
  simp only [Regs.write, Regs.read, h, if_false]
  apply BitVec.eq_of_toNat_eq
  simp

theorem Regs.read_write_f (r : Regs) (d : BitVec 5) (x : Word) :
    (r.write (.f d) (x.zeroExtend 512)).read (.f d) = x.zeroExtend 512 := by
  simp only [Regs.write, Regs.read]
  apply BitVec.eq_of_toNat_eq
  simp

theorem Regs.read_write_k (r : Regs) (d : BitVec 3) (x : Word) :
    (r.write (.k d) (x.zeroExtend 512)).read (.k d) = x.zeroExtend 512 := by
  simp only [Regs.write, Regs.read]
  apply BitVec.eq_of_toNat_eq
  simp

theorem Regs.read_write_v (r : Regs) (d : BitVec 5) (x : VReg) : (r.write (.v d) x).read (.v d) = x := by
  simp [Regs.write, Regs.read]

/-! ### Delivery -/

theorem deliver_write_comm (l : List FixedResult) (r : Regs) (d : Reg) (x : VReg) (h : ∀ p ∈ l, p.dst ≠ d) :
    deliver (r.write d x) l = (deliver r l).write d x := by
  induction l generalizing r with
  | nil => rfl
  | cons p ps ih =>
    simp only [deliver]
    have hp : p.dst ≠ d := h p (by simp)
    have hps : ∀ q ∈ ps, q.dst ≠ d := fun q hq => h q (by simp [hq])
    rw [Regs.write_comm r _ _ hp.symm, ih _ hps]

theorem deliver_read (l : List FixedResult) (r : Regs) (d : Reg) (h : ∀ p ∈ l, p.dst ≠ d) :
    (deliver r l).read d = r.read d := by
  induction l generalizing r with
  | nil => rfl
  | cons p ps ih =>
    simp only [deliver]
    have hps : ∀ q ∈ ps, q.dst ≠ d := fun q hq => h q (by simp [hq])
    rw [ih _ hps]
    exact Regs.read_write_ne r _ (h p (by simp))

theorem deliver_append (l m : List FixedResult) (r : Regs) : deliver r (l ++ m) = deliver (deliver r l) m := by
  induction l generalizing r with
  | nil => rfl
  | cons p ps ih => simp only [List.cons_append, deliver, ih]

/-! ### Aging -/

theorem Hart.age_of_empty (x : Hart) (h : x.fixed = []) (n : Nat) : x.age n = x := by
  cases n <;> simp [Hart.age, h]

theorem Hart.age_succ (x : Hart) (n : Nat) : x.age (n + 1) = x.ageOnce.age n := by
  by_cases h : x.fixed = []
  · rw [Hart.age_of_empty x h]
    have : x.ageOnce = x := by cases x; simp_all [Hart.ageOnce, deliver]
    rw [this, Hart.age_of_empty x h]
  · simp [Hart.age, h]

theorem Hart.age_add (x : Hart) (m n : Nat) : x.age (m + n) = (x.age m).age n := by
  induction m generalizing x with
  | zero => simp [Hart.age]
  | succ m ih => rw [Nat.add_right_comm, Hart.age_succ, Hart.age_succ, ih]

theorem Hart.ageOnce_left (x : Hart) (n : Nat) (h : ∀ p ∈ x.fixed, p.left ≤ n + 1) :
    ∀ p ∈ x.ageOnce.fixed, p.left ≤ n := by
  intro p hp
  simp only [Hart.ageOnce, List.mem_filter, List.mem_map] at hp
  obtain ⟨⟨q, hq, rfl⟩, -⟩ := hp
  have := h q hq
  simp only
  omega

theorem Hart.age_empty (n : Nat) (x : Hart) (h : ∀ p ∈ x.fixed, p.left ≤ n + 1) : (x.age (n + 1)).fixed = [] := by
  induction n generalizing x with
  | zero =>
    rw [Hart.age_succ, Hart.age]
    simp only [Hart.ageOnce, List.filter_eq_nil_iff, List.mem_map]
    rintro p ⟨q, hq, rfl⟩
    have := h q hq
    simp
    omega
  | succ n ih =>
    rw [Hart.age_succ]
    exact ih _ (Hart.ageOnce_left x _ h)

theorem foldl_max_ge (l : List FixedResult) (n : Nat) :
    n ≤ l.foldl (fun n p => max n p.left) n ∧ ∀ p ∈ l, p.left ≤ l.foldl (fun n p => max n p.left) n := by
  induction l generalizing n with
  | nil => simp
  | cons p ps ih =>
    have := ih (max n p.left)
    simp only [List.foldl_cons, List.mem_cons]
    refine ⟨by omega, ?_⟩
    rintro q (rfl | hq)
    · omega
    · exact this.2 q hq

/-- Two numbers of units that both empty the hart's results leave the same hart. -/
theorem Hart.age_eq (x : Hart) {m n : Nat} (hm : (x.age m).fixed = []) (hn : (x.age n).fixed = []) : x.age m = x.age n := by
  rcases Nat.le_total m n with h | h
  · obtain ⟨k, rfl⟩ := Nat.exists_eq_add_of_le h
    rw [Hart.age_add, Hart.age_of_empty _ hm]
  · obtain ⟨k, rfl⟩ := Nat.exists_eq_add_of_le h
    rw [Hart.age_add, Hart.age_of_empty _ hn]

theorem Hart.drain_eq (x : Hart) {n : Nat} (h : (x.age n).fixed = []) : x.drain = x.age n := by
  have hm := foldl_max_ge x.fixed 1
  obtain ⟨k, hk⟩ : ∃ k, x.fixed.foldl (fun n p => max n p.left) 1 = k + 1 := ⟨_, (Nat.succ_pred_eq_of_pos hm.1).symm⟩
  have he : (x.age (x.fixed.foldl (fun n p => max n p.left) 1)).fixed = [] := by
    rw [hk]; exact Hart.age_empty k x fun p hp => hk ▸ hm.2 p hp
  unfold Hart.drain
  rw [Hart.age_eq x he h, ← h]

theorem Hart.exists_age_empty (x : Hart) : ∃ n, (x.age n).fixed = [] := by
  have hm := foldl_max_ge x.fixed 1
  exact ⟨_, Hart.age_empty _ x fun p hp => Nat.le_succ_of_le (hm.2 p hp)⟩

/-- Units of encoded distance do not change what the registers end up holding (R26). -/
theorem Hart.drain_age (x : Hart) (n : Nat) : (x.age n).drain = x.drain := by
  obtain ⟨m, hm⟩ := (x.age n).exists_age_empty
  rw [Hart.drain_eq _ hm, ← Hart.age_add]
  rw [← Hart.age_add] at hm
  exact (Hart.drain_eq x hm).symm

/-! ### A new result -/

theorem Hart.ageOnce_start (x : Hart) (p : FixedResult) (h : 1 < p.left) :
    ({ x with fixed := x.fixed ++ [p] } : Hart).ageOnce
      = { x.ageOnce with fixed := x.ageOnce.fixed ++ [{ p with left := p.left - 1 }] } := by
  have h0 : p.left - 1 ≠ 0 := by omega
  simp [Hart.ageOnce, List.filter_append, h0]

theorem Hart.ageOnce_last (x : Hart) (p : FixedResult) (h : p.left = 1)
    (ho : ∀ q ∈ x.fixed, q.dst ≠ p.dst) :
    ({ x with fixed := x.fixed ++ [p] } : Hart).ageOnce
      = { x.ageOnce with regs := x.ageOnce.regs.write p.dst (p.val.zeroExtend 512) } := by
  simp only [Hart.ageOnce, List.map_append, List.filter_append, List.map_cons, List.map_nil, h]
  simp only [List.filter_cons, List.filter_nil, Nat.sub_self, beq_self_eq_true, if_true, List.reverse_append,
    List.reverse_cons, List.reverse_nil, List.nil_append, List.cons_append, deliver, bne_self_eq_false,
    Bool.false_eq_true, if_false, List.append_nil]
  congr 1
  apply deliver_write_comm
  intro q hq
  simp only [List.mem_reverse, List.mem_filter, List.mem_map] at hq
  obtain ⟨⟨o, ho', rfl⟩, -⟩ := hq
  exact ho o ho'

theorem Hart.ageOnce_fixed_dst (x : Hart) (d : Reg) (n : Nat) (h : ∀ p ∈ x.fixed, p.dst = d → 0 < p.left ∧ p.left < n + 1) :
    ∀ p ∈ x.ageOnce.fixed, p.dst = d → 0 < p.left ∧ p.left < n := by
  intro p hp hd
  simp only [Hart.ageOnce, List.mem_filter, List.mem_map] at hp
  obtain ⟨⟨q, hq, rfl⟩, hne⟩ := hp
  have := h q hq hd
  simp at hne
  simp only
  omega

theorem Hart.drain_write_none (x : Hart) (d : Reg) (v : VReg) (h : ∀ p ∈ x.fixed, p.dst ≠ d) :
    ({ x with regs := x.regs.write d v } : Hart).drain = { x.drain with regs := x.drain.regs.write d v } := by
  have key : ∀ n (y : Hart), (∀ p ∈ y.fixed, p.dst ≠ d) →
      ({ y with regs := y.regs.write d v } : Hart).age n = { y.age n with regs := (y.age n).regs.write d v } := by
    intro n
    induction n with
    | zero => intro y _; rfl
    | succ n ih =>
      intro y hy
      rw [Hart.age_succ, Hart.age_succ]
      have h1 : ({ y with regs := y.regs.write d v } : Hart).ageOnce
          = { y.ageOnce with regs := y.ageOnce.regs.write d v } := by
        simp only [Hart.ageOnce]
        congr 1
        apply deliver_write_comm
        intro q hq
        simp only [List.mem_reverse, List.mem_filter, List.mem_map] at hq
        obtain ⟨⟨o, ho', rfl⟩, -⟩ := hq
        exact hy o ho'
      rw [h1]
      apply ih
      intro q hq
      simp only [Hart.ageOnce, List.mem_filter, List.mem_map] at hq
      obtain ⟨⟨o, ho', rfl⟩, -⟩ := hq
      exact hy o ho'
  simp only [Hart.drain, key _ x h]

/-- A result that starts behind every older one for its register is what that register ends up with (R25). -/
theorem Hart.drain_start (n : Nat) : ∀ (x : Hart) (p : FixedResult), p.left = n + 1 →
    (∀ q ∈ x.fixed, q.dst = p.dst → 0 < q.left ∧ q.left < p.left) →
    ({ x with fixed := x.fixed ++ [p] } : Hart).drain
      = { x.drain with regs := x.drain.regs.write p.dst (p.val.zeroExtend 512) } := by
  induction n with
  | zero =>
    intro x p hl h
    have ho : ∀ q ∈ x.fixed, q.dst ≠ p.dst := fun q hq e => by have := h q hq e; omega
    have hx : ∀ q ∈ x.ageOnce.fixed, q.dst ≠ p.dst := by
      intro q hq
      simp only [Hart.ageOnce, List.mem_filter, List.mem_map] at hq
      obtain ⟨⟨o, ho', rfl⟩, -⟩ := hq
      exact ho o ho'
    rw [← Hart.drain_age _ 1, Hart.age_succ, Hart.age, Hart.ageOnce_last x p hl ho, Hart.drain_write_none _ _ _ hx]
    rw [← Hart.drain_age x 1, Hart.age_succ, Hart.age]
  | succ n ih =>
    intro x p hl h
    rw [← Hart.drain_age _ 1, Hart.age_succ, Hart.age, Hart.ageOnce_start x p (by omega)]
    rw [ih x.ageOnce { p with left := p.left - 1 } (by simp [hl])]
    · rw [← Hart.drain_age x 1, Hart.age_succ, Hart.age]
    · intro q hq hd
      have := Hart.ageOnce_fixed_dst x p.dst (p.left - 1) (fun o ho e => by have := h o ho e; omega) q hq hd
      simpa using this

end Sys2Proof.Machine
end

