-- ==== Sys2Proof/Laws/State.lean ====
section
/-! SUPPORT. Maps and agents: what a changed agent reads as, and that changing one agent leaves every other field of State
as it was. -/

namespace Sys2Proof.Machine

/-! ### Maps and agents -/

theorem Map.find_put_self {α : Type} (m : Map α) (i : Nat) (y : α) : (m.put i y).find i = some y := by
  induction m with
  | nil => simp [Map.put, Map.find]
  | cons e m ih =>
    obtain ⟨k, x⟩ := e
    simp only [Map.put]
    split
    · simp [Map.find]
    · split
      · simp [Map.find]
      · simp [Map.find, *]

theorem Map.find_put_ne {α : Type} (m : Map α) {i j : Nat} (y : α) (h : j ≠ i) : (m.put i y).find j = m.find j := by
  induction m with
  | nil => simp [Map.put, Map.find, h]
  | cons e m ih =>
    obtain ⟨k, x⟩ := e
    simp only [Map.put]
    split
    · simp [Map.find, h]
    · split
      · next hk => subst hk; simp [Map.find, h]
      · simp [Map.find, ih]

@[simp] theorem Map.get_put_self {α : Type} (m : Map α) (i : Nat) (y d : α) : (m.put i y).get i d = y := by
  simp [Map.get, Map.find_put_self]

theorem Map.get_put_ne {α : Type} (m : Map α) {i j : Nat} (y d : α) (h : j ≠ i) : (m.put i y).get j d = m.get j d := by
  simp [Map.get, Map.find_put_ne m y h]

@[simp] theorem State.hart_setHart (s : State) (h : Nat) (x : Hart) : (s.setHart h x).hart h = x := by
  simp [State.hart, State.setHart]
theorem State.hart_setHart_ne (s : State) {h i : Nat} (x : Hart) (n : i ≠ h) : (s.setHart h x).hart i = s.hart i := by
  simp [State.hart, State.setHart, Map.get_put_ne _ _ _ n]
@[simp] theorem State.hart_onHart (s : State) (h : Nat) (f : Hart → Hart) : (s.onHart h f).hart h = f (s.hart h) := by
  simp [State.onHart]
theorem State.hart_onHart_ne (s : State) {h i : Nat} (f : Hart → Hart) (n : i ≠ h) : (s.onHart h f).hart i = s.hart i := by
  simp [State.onHart, State.hart_setHart_ne _ _ n]
@[simp] theorem State.tile_setTile (s : State) (v : Nat) (x : Tile) : (s.setTile v x).tile v = x := by
  simp [State.tile, State.setTile]
theorem State.tile_setTile_ne (s : State) {v i : Nat} (x : Tile) (n : i ≠ v) : (s.setTile v x).tile i = s.tile i := by
  simp [State.tile, State.setTile, Map.get_put_ne _ _ _ n]
@[simp] theorem State.tile_onTile (s : State) (v : Nat) (f : Tile → Tile) : (s.onTile v f).tile v = f (s.tile v) := by
  simp [State.onTile]
theorem State.tile_onTile_ne (s : State) {v i : Nat} (f : Tile → Tile) (n : i ≠ v) : (s.onTile v f).tile i = s.tile i := by
  simp [State.onTile, State.tile_setTile_ne _ _ n]
@[simp] theorem State.tile_setHart (s : State) (h v : Nat) (x : Hart) : (s.setHart h x).tile v = s.tile v := rfl
@[simp] theorem State.tile_onHart (s : State) (h v : Nat) (f : Hart → Hart) : (s.onHart h f).tile v = s.tile v := rfl
@[simp] theorem State.hart_setTile (s : State) (h v : Nat) (x : Tile) : (s.setTile v x).hart h = s.hart h := rfl
@[simp] theorem State.hart_onTile (s : State) (h v : Nat) (f : Tile → Tile) : (s.onTile v f).hart h = s.hart h := rfl

@[simp] theorem State.die_setDie (s : State) (d : Nat) (x : Die) : (s.setDie d x).die d = x := by
  simp [State.die, State.setDie]
theorem State.die_setDie_ne (s : State) {d i : Nat} (x : Die) (n : i ≠ d) : (s.setDie d x).die i = s.die i := by
  simp [State.die, State.setDie, Map.get_put_ne _ _ _ n]
@[simp] theorem State.die_onDie (s : State) (d : Nat) (f : Die → Die) : (s.onDie d f).die d = f (s.die d) := by
  simp [State.onDie]
theorem State.die_onDie_ne (s : State) {d i : Nat} (f : Die → Die) (n : i ≠ d) : (s.onDie d f).die i = s.die i := by
  simp [State.onDie, State.die_setDie_ne _ _ n]
@[simp] theorem State.pt_setPt (s : State) (d p : Nat) (x : Pt) : (s.setPt d p x).pt d p = x := by
  simp [State.pt, State.setPt]
@[simp] theorem State.pt_onPt (s : State) (d p : Nat) (f : Pt → Pt) : (s.onPt d p f).pt d p = f (s.pt d p) := by
  simp [State.onPt]

/-! ### setHart -/

@[simp] theorem State.mem_setHart (s : State) (h : Nat) (x : Hart) : (s.setHart h x).mem = s.mem := rfl
@[simp] theorem State.badLines_setHart (s : State) (h : Nat) (x : Hart) : (s.setHart h x).badLines = s.badLines := rfl
@[simp] theorem State.tiles_setHart (s : State) (h : Nat) (x : Hart) : (s.setHart h x).tiles = s.tiles := rfl
@[simp] theorem State.pts_setHart (s : State) (h : Nat) (x : Hart) : (s.setHart h x).pts = s.pts := rfl
@[simp] theorem State.dies_setHart (s : State) (h : Nat) (x : Hart) : (s.setHart h x).dies = s.dies := rfl
@[simp] theorem State.tick_setHart (s : State) (h : Nat) (x : Hart) : (s.setHart h x).tick = s.tick := rfl
@[simp] theorem State.panel_setHart (s : State) (h : Nat) (x : Hart) : (s.setHart h x).panel = s.panel := rfl
@[simp] theorem State.tenants_setHart (s : State) (h : Nat) (x : Hart) : (s.setHart h x).tenants = s.tenants := rfl
@[simp] theorem State.launches_setHart (s : State) (h : Nat) (x : Hart) : (s.setHart h x).launches = s.launches := rfl
@[simp] theorem State.supMailbox_setHart (s : State) (h : Nat) (x : Hart) : (s.setHart h x).supMailbox = s.supMailbox := rfl
@[simp] theorem State.execPages_setHart (s : State) (h : Nat) (x : Hart) : (s.setHart h x).execPages = s.execPages := rfl
@[simp] theorem State.host_setHart (s : State) (h : Nat) (x : Hart) : (s.setHart h x).host = s.host := rfl
@[simp] theorem State.grid_setHart (s : State) (h : Nat) (x : Hart) : (s.setHart h x).grid = s.grid := rfl
@[simp] theorem State.extents_setHart (s : State) (h : Nat) (x : Hart) : (s.setHart h x).extents = s.extents := rfl
@[simp] theorem State.routeTable_setHart (s : State) (h : Nat) (x : Hart) : (s.setHart h x).routeTable = s.routeTable := rfl
@[simp] theorem State.windows_setHart (s : State) (h : Nat) (x : Hart) : (s.setHart h x).windows = s.windows := rfl
@[simp] theorem State.portsDown_setHart (s : State) (h : Nat) (x : Hart) : (s.setHart h x).portsDown = s.portsDown := rfl
@[simp] theorem State.linkFails_setHart (s : State) (h : Nat) (x : Hart) : (s.setHart h x).linkFails = s.linkFails := rfl
@[simp] theorem State.switch_setHart (s : State) (h : Nat) (x : Hart) : (s.setHart h x).switch = s.switch := rfl
@[simp] theorem State.ioUnits_setHart (s : State) (h : Nat) (x : Hart) : (s.setHart h x).ioUnits = s.ioUnits := rfl
@[simp] theorem State.net_setHart (s : State) (h : Nat) (x : Hart) : (s.setHart h x).net = s.net := rfl
@[simp] theorem State.ckpt_setHart (s : State) (h : Nat) (x : Hart) : (s.setHart h x).ckpt = s.ckpt := rfl
@[simp] theorem State.panelHalt_setHart (s : State) (h : Nat) (x : Hart) : (s.setHart h x).panelHalt = s.panelHalt := rfl
@[simp] theorem State.blob_setHart (s : State) (h : Nat) (x : Hart) : (s.setHart h x).blob = s.blob := rfl
@[simp] theorem State.inReset_setHart (s : State) (h : Nat) (x : Hart) : (s.setHart h x).inReset = s.inReset := rfl
@[simp] theorem State.readyAt_setHart (s : State) (h : Nat) (x : Hart) : (s.setHart h x).readyAt = s.readyAt := rfl
@[simp] theorem State.altRoot_setHart (s : State) (h : Nat) (x : Hart) : (s.setHart h x).altRoot = s.altRoot := rfl
@[simp] theorem State.flash_setHart (s : State) (h : Nat) (x : Hart) : (s.setHart h x).flash = s.flash := rfl
@[simp] theorem State.agenda_setHart (s : State) (h : Nat) (x : Hart) : (s.setHart h x).agenda = s.agenda := rfl
@[simp] theorem State.moves_setHart (s : State) (h : Nat) (x : Hart) : (s.setHart h x).moves = s.moves := rfl
@[simp] theorem State.cur_setHart (s : State) (h : Nat) (x : Hart) : (s.setHart h x).cur = s.cur := rfl
@[simp] theorem State.word_setHart (s : State) (h : Nat) (x : Hart) : (s.setHart h x).word = s.word := rfl
@[simp] theorem State.prompt_setHart (s : State) (h : Nat) (x : Hart) : (s.setHart h x).prompt = s.prompt := rfl
@[simp] theorem State.nextId_setHart (s : State) (h : Nat) (x : Hart) : (s.setHart h x).nextId = s.nextId := rfl
@[simp] theorem State.free_setHart (s : State) (h : Nat) (x : Hart) : (s.setHart h x).free = s.free := rfl
@[simp] theorem State.die_setHart (s : State) (h : Nat) (x : Hart) (i : Nat) : (s.setHart h x).die i = s.die i := rfl
@[simp] theorem State.pt_setHart (s : State) (h : Nat) (x : Hart) (i j : Nat) : (s.setHart h x).pt i j = s.pt i j := rfl

/-! ### onHart -/

@[simp] theorem State.mem_onHart (s : State) (h : Nat) (f : Hart → Hart) : (s.onHart h f).mem = s.mem := rfl
@[simp] theorem State.badLines_onHart (s : State) (h : Nat) (f : Hart → Hart) : (s.onHart h f).badLines = s.badLines := rfl
@[simp] theorem State.tiles_onHart (s : State) (h : Nat) (f : Hart → Hart) : (s.onHart h f).tiles = s.tiles := rfl
@[simp] theorem State.pts_onHart (s : State) (h : Nat) (f : Hart → Hart) : (s.onHart h f).pts = s.pts := rfl
@[simp] theorem State.dies_onHart (s : State) (h : Nat) (f : Hart → Hart) : (s.onHart h f).dies = s.dies := rfl
@[simp] theorem State.tick_onHart (s : State) (h : Nat) (f : Hart → Hart) : (s.onHart h f).tick = s.tick := rfl
@[simp] theorem State.panel_onHart (s : State) (h : Nat) (f : Hart → Hart) : (s.onHart h f).panel = s.panel := rfl
@[simp] theorem State.tenants_onHart (s : State) (h : Nat) (f : Hart → Hart) : (s.onHart h f).tenants = s.tenants := rfl
@[simp] theorem State.launches_onHart (s : State) (h : Nat) (f : Hart → Hart) : (s.onHart h f).launches = s.launches := rfl
@[simp] theorem State.supMailbox_onHart (s : State) (h : Nat) (f : Hart → Hart) : (s.onHart h f).supMailbox = s.supMailbox := rfl
@[simp] theorem State.execPages_onHart (s : State) (h : Nat) (f : Hart → Hart) : (s.onHart h f).execPages = s.execPages := rfl
@[simp] theorem State.host_onHart (s : State) (h : Nat) (f : Hart → Hart) : (s.onHart h f).host = s.host := rfl
@[simp] theorem State.grid_onHart (s : State) (h : Nat) (f : Hart → Hart) : (s.onHart h f).grid = s.grid := rfl
@[simp] theorem State.extents_onHart (s : State) (h : Nat) (f : Hart → Hart) : (s.onHart h f).extents = s.extents := rfl
@[simp] theorem State.routeTable_onHart (s : State) (h : Nat) (f : Hart → Hart) : (s.onHart h f).routeTable = s.routeTable := rfl
@[simp] theorem State.windows_onHart (s : State) (h : Nat) (f : Hart → Hart) : (s.onHart h f).windows = s.windows := rfl
@[simp] theorem State.portsDown_onHart (s : State) (h : Nat) (f : Hart → Hart) : (s.onHart h f).portsDown = s.portsDown := rfl
@[simp] theorem State.linkFails_onHart (s : State) (h : Nat) (f : Hart → Hart) : (s.onHart h f).linkFails = s.linkFails := rfl
@[simp] theorem State.switch_onHart (s : State) (h : Nat) (f : Hart → Hart) : (s.onHart h f).switch = s.switch := rfl
@[simp] theorem State.ioUnits_onHart (s : State) (h : Nat) (f : Hart → Hart) : (s.onHart h f).ioUnits = s.ioUnits := rfl
@[simp] theorem State.net_onHart (s : State) (h : Nat) (f : Hart → Hart) : (s.onHart h f).net = s.net := rfl
@[simp] theorem State.ckpt_onHart (s : State) (h : Nat) (f : Hart → Hart) : (s.onHart h f).ckpt = s.ckpt := rfl
@[simp] theorem State.panelHalt_onHart (s : State) (h : Nat) (f : Hart → Hart) : (s.onHart h f).panelHalt = s.panelHalt := rfl
@[simp] theorem State.blob_onHart (s : State) (h : Nat) (f : Hart → Hart) : (s.onHart h f).blob = s.blob := rfl
@[simp] theorem State.inReset_onHart (s : State) (h : Nat) (f : Hart → Hart) : (s.onHart h f).inReset = s.inReset := rfl
@[simp] theorem State.readyAt_onHart (s : State) (h : Nat) (f : Hart → Hart) : (s.onHart h f).readyAt = s.readyAt := rfl
@[simp] theorem State.altRoot_onHart (s : State) (h : Nat) (f : Hart → Hart) : (s.onHart h f).altRoot = s.altRoot := rfl
@[simp] theorem State.flash_onHart (s : State) (h : Nat) (f : Hart → Hart) : (s.onHart h f).flash = s.flash := rfl
@[simp] theorem State.agenda_onHart (s : State) (h : Nat) (f : Hart → Hart) : (s.onHart h f).agenda = s.agenda := rfl
@[simp] theorem State.moves_onHart (s : State) (h : Nat) (f : Hart → Hart) : (s.onHart h f).moves = s.moves := rfl
@[simp] theorem State.cur_onHart (s : State) (h : Nat) (f : Hart → Hart) : (s.onHart h f).cur = s.cur := rfl
@[simp] theorem State.word_onHart (s : State) (h : Nat) (f : Hart → Hart) : (s.onHart h f).word = s.word := rfl
@[simp] theorem State.prompt_onHart (s : State) (h : Nat) (f : Hart → Hart) : (s.onHart h f).prompt = s.prompt := rfl
@[simp] theorem State.nextId_onHart (s : State) (h : Nat) (f : Hart → Hart) : (s.onHart h f).nextId = s.nextId := rfl
@[simp] theorem State.free_onHart (s : State) (h : Nat) (f : Hart → Hart) : (s.onHart h f).free = s.free := rfl
@[simp] theorem State.die_onHart (s : State) (h : Nat) (f : Hart → Hart) (i : Nat) : (s.onHart h f).die i = s.die i := rfl
@[simp] theorem State.pt_onHart (s : State) (h : Nat) (f : Hart → Hart) (i j : Nat) : (s.onHart h f).pt i j = s.pt i j := rfl

/-! ### setTile -/

@[simp] theorem State.mem_setTile (s : State) (v : Nat) (x : Tile) : (s.setTile v x).mem = s.mem := rfl
@[simp] theorem State.badLines_setTile (s : State) (v : Nat) (x : Tile) : (s.setTile v x).badLines = s.badLines := rfl
@[simp] theorem State.harts_setTile (s : State) (v : Nat) (x : Tile) : (s.setTile v x).harts = s.harts := rfl
@[simp] theorem State.pts_setTile (s : State) (v : Nat) (x : Tile) : (s.setTile v x).pts = s.pts := rfl
@[simp] theorem State.dies_setTile (s : State) (v : Nat) (x : Tile) : (s.setTile v x).dies = s.dies := rfl
@[simp] theorem State.tick_setTile (s : State) (v : Nat) (x : Tile) : (s.setTile v x).tick = s.tick := rfl
@[simp] theorem State.panel_setTile (s : State) (v : Nat) (x : Tile) : (s.setTile v x).panel = s.panel := rfl
@[simp] theorem State.tenants_setTile (s : State) (v : Nat) (x : Tile) : (s.setTile v x).tenants = s.tenants := rfl
@[simp] theorem State.launches_setTile (s : State) (v : Nat) (x : Tile) : (s.setTile v x).launches = s.launches := rfl
@[simp] theorem State.supMailbox_setTile (s : State) (v : Nat) (x : Tile) : (s.setTile v x).supMailbox = s.supMailbox := rfl
@[simp] theorem State.execPages_setTile (s : State) (v : Nat) (x : Tile) : (s.setTile v x).execPages = s.execPages := rfl
@[simp] theorem State.host_setTile (s : State) (v : Nat) (x : Tile) : (s.setTile v x).host = s.host := rfl
@[simp] theorem State.grid_setTile (s : State) (v : Nat) (x : Tile) : (s.setTile v x).grid = s.grid := rfl
@[simp] theorem State.extents_setTile (s : State) (v : Nat) (x : Tile) : (s.setTile v x).extents = s.extents := rfl
@[simp] theorem State.routeTable_setTile (s : State) (v : Nat) (x : Tile) : (s.setTile v x).routeTable = s.routeTable := rfl
@[simp] theorem State.windows_setTile (s : State) (v : Nat) (x : Tile) : (s.setTile v x).windows = s.windows := rfl
@[simp] theorem State.portsDown_setTile (s : State) (v : Nat) (x : Tile) : (s.setTile v x).portsDown = s.portsDown := rfl
@[simp] theorem State.linkFails_setTile (s : State) (v : Nat) (x : Tile) : (s.setTile v x).linkFails = s.linkFails := rfl
@[simp] theorem State.switch_setTile (s : State) (v : Nat) (x : Tile) : (s.setTile v x).switch = s.switch := rfl
@[simp] theorem State.ioUnits_setTile (s : State) (v : Nat) (x : Tile) : (s.setTile v x).ioUnits = s.ioUnits := rfl
@[simp] theorem State.net_setTile (s : State) (v : Nat) (x : Tile) : (s.setTile v x).net = s.net := rfl
@[simp] theorem State.ckpt_setTile (s : State) (v : Nat) (x : Tile) : (s.setTile v x).ckpt = s.ckpt := rfl
@[simp] theorem State.panelHalt_setTile (s : State) (v : Nat) (x : Tile) : (s.setTile v x).panelHalt = s.panelHalt := rfl
@[simp] theorem State.blob_setTile (s : State) (v : Nat) (x : Tile) : (s.setTile v x).blob = s.blob := rfl
@[simp] theorem State.inReset_setTile (s : State) (v : Nat) (x : Tile) : (s.setTile v x).inReset = s.inReset := rfl
@[simp] theorem State.readyAt_setTile (s : State) (v : Nat) (x : Tile) : (s.setTile v x).readyAt = s.readyAt := rfl
@[simp] theorem State.altRoot_setTile (s : State) (v : Nat) (x : Tile) : (s.setTile v x).altRoot = s.altRoot := rfl
@[simp] theorem State.flash_setTile (s : State) (v : Nat) (x : Tile) : (s.setTile v x).flash = s.flash := rfl
@[simp] theorem State.agenda_setTile (s : State) (v : Nat) (x : Tile) : (s.setTile v x).agenda = s.agenda := rfl
@[simp] theorem State.moves_setTile (s : State) (v : Nat) (x : Tile) : (s.setTile v x).moves = s.moves := rfl
@[simp] theorem State.cur_setTile (s : State) (v : Nat) (x : Tile) : (s.setTile v x).cur = s.cur := rfl
@[simp] theorem State.word_setTile (s : State) (v : Nat) (x : Tile) : (s.setTile v x).word = s.word := rfl
@[simp] theorem State.prompt_setTile (s : State) (v : Nat) (x : Tile) : (s.setTile v x).prompt = s.prompt := rfl
@[simp] theorem State.nextId_setTile (s : State) (v : Nat) (x : Tile) : (s.setTile v x).nextId = s.nextId := rfl
@[simp] theorem State.free_setTile (s : State) (v : Nat) (x : Tile) : (s.setTile v x).free = s.free := rfl
@[simp] theorem State.die_setTile (s : State) (v : Nat) (x : Tile) (i : Nat) : (s.setTile v x).die i = s.die i := rfl
@[simp] theorem State.pt_setTile (s : State) (v : Nat) (x : Tile) (i j : Nat) : (s.setTile v x).pt i j = s.pt i j := rfl

/-! ### onTile -/

@[simp] theorem State.mem_onTile (s : State) (v : Nat) (f : Tile → Tile) : (s.onTile v f).mem = s.mem := rfl
@[simp] theorem State.badLines_onTile (s : State) (v : Nat) (f : Tile → Tile) : (s.onTile v f).badLines = s.badLines := rfl
@[simp] theorem State.harts_onTile (s : State) (v : Nat) (f : Tile → Tile) : (s.onTile v f).harts = s.harts := rfl
@[simp] theorem State.pts_onTile (s : State) (v : Nat) (f : Tile → Tile) : (s.onTile v f).pts = s.pts := rfl
@[simp] theorem State.dies_onTile (s : State) (v : Nat) (f : Tile → Tile) : (s.onTile v f).dies = s.dies := rfl
@[simp] theorem State.tick_onTile (s : State) (v : Nat) (f : Tile → Tile) : (s.onTile v f).tick = s.tick := rfl
@[simp] theorem State.panel_onTile (s : State) (v : Nat) (f : Tile → Tile) : (s.onTile v f).panel = s.panel := rfl
@[simp] theorem State.tenants_onTile (s : State) (v : Nat) (f : Tile → Tile) : (s.onTile v f).tenants = s.tenants := rfl
@[simp] theorem State.launches_onTile (s : State) (v : Nat) (f : Tile → Tile) : (s.onTile v f).launches = s.launches := rfl
@[simp] theorem State.supMailbox_onTile (s : State) (v : Nat) (f : Tile → Tile) : (s.onTile v f).supMailbox = s.supMailbox := rfl
@[simp] theorem State.execPages_onTile (s : State) (v : Nat) (f : Tile → Tile) : (s.onTile v f).execPages = s.execPages := rfl
@[simp] theorem State.host_onTile (s : State) (v : Nat) (f : Tile → Tile) : (s.onTile v f).host = s.host := rfl
@[simp] theorem State.grid_onTile (s : State) (v : Nat) (f : Tile → Tile) : (s.onTile v f).grid = s.grid := rfl
@[simp] theorem State.extents_onTile (s : State) (v : Nat) (f : Tile → Tile) : (s.onTile v f).extents = s.extents := rfl
@[simp] theorem State.routeTable_onTile (s : State) (v : Nat) (f : Tile → Tile) : (s.onTile v f).routeTable = s.routeTable := rfl
@[simp] theorem State.windows_onTile (s : State) (v : Nat) (f : Tile → Tile) : (s.onTile v f).windows = s.windows := rfl
@[simp] theorem State.portsDown_onTile (s : State) (v : Nat) (f : Tile → Tile) : (s.onTile v f).portsDown = s.portsDown := rfl
@[simp] theorem State.linkFails_onTile (s : State) (v : Nat) (f : Tile → Tile) : (s.onTile v f).linkFails = s.linkFails := rfl
@[simp] theorem State.switch_onTile (s : State) (v : Nat) (f : Tile → Tile) : (s.onTile v f).switch = s.switch := rfl
@[simp] theorem State.ioUnits_onTile (s : State) (v : Nat) (f : Tile → Tile) : (s.onTile v f).ioUnits = s.ioUnits := rfl
@[simp] theorem State.net_onTile (s : State) (v : Nat) (f : Tile → Tile) : (s.onTile v f).net = s.net := rfl
@[simp] theorem State.ckpt_onTile (s : State) (v : Nat) (f : Tile → Tile) : (s.onTile v f).ckpt = s.ckpt := rfl
@[simp] theorem State.panelHalt_onTile (s : State) (v : Nat) (f : Tile → Tile) : (s.onTile v f).panelHalt = s.panelHalt := rfl
@[simp] theorem State.blob_onTile (s : State) (v : Nat) (f : Tile → Tile) : (s.onTile v f).blob = s.blob := rfl
@[simp] theorem State.inReset_onTile (s : State) (v : Nat) (f : Tile → Tile) : (s.onTile v f).inReset = s.inReset := rfl
@[simp] theorem State.readyAt_onTile (s : State) (v : Nat) (f : Tile → Tile) : (s.onTile v f).readyAt = s.readyAt := rfl
@[simp] theorem State.altRoot_onTile (s : State) (v : Nat) (f : Tile → Tile) : (s.onTile v f).altRoot = s.altRoot := rfl
@[simp] theorem State.flash_onTile (s : State) (v : Nat) (f : Tile → Tile) : (s.onTile v f).flash = s.flash := rfl
@[simp] theorem State.agenda_onTile (s : State) (v : Nat) (f : Tile → Tile) : (s.onTile v f).agenda = s.agenda := rfl
@[simp] theorem State.moves_onTile (s : State) (v : Nat) (f : Tile → Tile) : (s.onTile v f).moves = s.moves := rfl
@[simp] theorem State.cur_onTile (s : State) (v : Nat) (f : Tile → Tile) : (s.onTile v f).cur = s.cur := rfl
@[simp] theorem State.word_onTile (s : State) (v : Nat) (f : Tile → Tile) : (s.onTile v f).word = s.word := rfl
@[simp] theorem State.prompt_onTile (s : State) (v : Nat) (f : Tile → Tile) : (s.onTile v f).prompt = s.prompt := rfl
@[simp] theorem State.nextId_onTile (s : State) (v : Nat) (f : Tile → Tile) : (s.onTile v f).nextId = s.nextId := rfl
@[simp] theorem State.free_onTile (s : State) (v : Nat) (f : Tile → Tile) : (s.onTile v f).free = s.free := rfl
@[simp] theorem State.die_onTile (s : State) (v : Nat) (f : Tile → Tile) (i : Nat) : (s.onTile v f).die i = s.die i := rfl
@[simp] theorem State.pt_onTile (s : State) (v : Nat) (f : Tile → Tile) (i j : Nat) : (s.onTile v f).pt i j = s.pt i j := rfl

/-! ### setDie -/

@[simp] theorem State.mem_setDie (s : State) (d : Nat) (x : Die) : (s.setDie d x).mem = s.mem := rfl
@[simp] theorem State.badLines_setDie (s : State) (d : Nat) (x : Die) : (s.setDie d x).badLines = s.badLines := rfl
@[simp] theorem State.harts_setDie (s : State) (d : Nat) (x : Die) : (s.setDie d x).harts = s.harts := rfl
@[simp] theorem State.tiles_setDie (s : State) (d : Nat) (x : Die) : (s.setDie d x).tiles = s.tiles := rfl
@[simp] theorem State.pts_setDie (s : State) (d : Nat) (x : Die) : (s.setDie d x).pts = s.pts := rfl
@[simp] theorem State.tick_setDie (s : State) (d : Nat) (x : Die) : (s.setDie d x).tick = s.tick := rfl
@[simp] theorem State.panel_setDie (s : State) (d : Nat) (x : Die) : (s.setDie d x).panel = s.panel := rfl
@[simp] theorem State.tenants_setDie (s : State) (d : Nat) (x : Die) : (s.setDie d x).tenants = s.tenants := rfl
@[simp] theorem State.launches_setDie (s : State) (d : Nat) (x : Die) : (s.setDie d x).launches = s.launches := rfl
@[simp] theorem State.supMailbox_setDie (s : State) (d : Nat) (x : Die) : (s.setDie d x).supMailbox = s.supMailbox := rfl
@[simp] theorem State.execPages_setDie (s : State) (d : Nat) (x : Die) : (s.setDie d x).execPages = s.execPages := rfl
@[simp] theorem State.host_setDie (s : State) (d : Nat) (x : Die) : (s.setDie d x).host = s.host := rfl
@[simp] theorem State.grid_setDie (s : State) (d : Nat) (x : Die) : (s.setDie d x).grid = s.grid := rfl
@[simp] theorem State.extents_setDie (s : State) (d : Nat) (x : Die) : (s.setDie d x).extents = s.extents := rfl
@[simp] theorem State.routeTable_setDie (s : State) (d : Nat) (x : Die) : (s.setDie d x).routeTable = s.routeTable := rfl
@[simp] theorem State.windows_setDie (s : State) (d : Nat) (x : Die) : (s.setDie d x).windows = s.windows := rfl
@[simp] theorem State.portsDown_setDie (s : State) (d : Nat) (x : Die) : (s.setDie d x).portsDown = s.portsDown := rfl
@[simp] theorem State.linkFails_setDie (s : State) (d : Nat) (x : Die) : (s.setDie d x).linkFails = s.linkFails := rfl
@[simp] theorem State.switch_setDie (s : State) (d : Nat) (x : Die) : (s.setDie d x).switch = s.switch := rfl
@[simp] theorem State.ioUnits_setDie (s : State) (d : Nat) (x : Die) : (s.setDie d x).ioUnits = s.ioUnits := rfl
@[simp] theorem State.net_setDie (s : State) (d : Nat) (x : Die) : (s.setDie d x).net = s.net := rfl
@[simp] theorem State.ckpt_setDie (s : State) (d : Nat) (x : Die) : (s.setDie d x).ckpt = s.ckpt := rfl
@[simp] theorem State.panelHalt_setDie (s : State) (d : Nat) (x : Die) : (s.setDie d x).panelHalt = s.panelHalt := rfl
@[simp] theorem State.blob_setDie (s : State) (d : Nat) (x : Die) : (s.setDie d x).blob = s.blob := rfl
@[simp] theorem State.inReset_setDie (s : State) (d : Nat) (x : Die) : (s.setDie d x).inReset = s.inReset := rfl
@[simp] theorem State.readyAt_setDie (s : State) (d : Nat) (x : Die) : (s.setDie d x).readyAt = s.readyAt := rfl
@[simp] theorem State.altRoot_setDie (s : State) (d : Nat) (x : Die) : (s.setDie d x).altRoot = s.altRoot := rfl
@[simp] theorem State.flash_setDie (s : State) (d : Nat) (x : Die) : (s.setDie d x).flash = s.flash := rfl
@[simp] theorem State.agenda_setDie (s : State) (d : Nat) (x : Die) : (s.setDie d x).agenda = s.agenda := rfl
@[simp] theorem State.moves_setDie (s : State) (d : Nat) (x : Die) : (s.setDie d x).moves = s.moves := rfl
@[simp] theorem State.cur_setDie (s : State) (d : Nat) (x : Die) : (s.setDie d x).cur = s.cur := rfl
@[simp] theorem State.word_setDie (s : State) (d : Nat) (x : Die) : (s.setDie d x).word = s.word := rfl
@[simp] theorem State.prompt_setDie (s : State) (d : Nat) (x : Die) : (s.setDie d x).prompt = s.prompt := rfl
@[simp] theorem State.nextId_setDie (s : State) (d : Nat) (x : Die) : (s.setDie d x).nextId = s.nextId := rfl
@[simp] theorem State.free_setDie (s : State) (d : Nat) (x : Die) : (s.setDie d x).free = s.free := rfl
@[simp] theorem State.hart_setDie (s : State) (d : Nat) (x : Die) (i : Nat) : (s.setDie d x).hart i = s.hart i := rfl
@[simp] theorem State.tile_setDie (s : State) (d : Nat) (x : Die) (i : Nat) : (s.setDie d x).tile i = s.tile i := rfl
@[simp] theorem State.pt_setDie (s : State) (d : Nat) (x : Die) (i j : Nat) : (s.setDie d x).pt i j = s.pt i j := rfl

/-! ### onDie -/

@[simp] theorem State.mem_onDie (s : State) (d : Nat) (f : Die → Die) : (s.onDie d f).mem = s.mem := rfl
@[simp] theorem State.badLines_onDie (s : State) (d : Nat) (f : Die → Die) : (s.onDie d f).badLines = s.badLines := rfl
@[simp] theorem State.harts_onDie (s : State) (d : Nat) (f : Die → Die) : (s.onDie d f).harts = s.harts := rfl
@[simp] theorem State.tiles_onDie (s : State) (d : Nat) (f : Die → Die) : (s.onDie d f).tiles = s.tiles := rfl
@[simp] theorem State.pts_onDie (s : State) (d : Nat) (f : Die → Die) : (s.onDie d f).pts = s.pts := rfl
@[simp] theorem State.tick_onDie (s : State) (d : Nat) (f : Die → Die) : (s.onDie d f).tick = s.tick := rfl
@[simp] theorem State.panel_onDie (s : State) (d : Nat) (f : Die → Die) : (s.onDie d f).panel = s.panel := rfl
@[simp] theorem State.tenants_onDie (s : State) (d : Nat) (f : Die → Die) : (s.onDie d f).tenants = s.tenants := rfl
@[simp] theorem State.launches_onDie (s : State) (d : Nat) (f : Die → Die) : (s.onDie d f).launches = s.launches := rfl
@[simp] theorem State.supMailbox_onDie (s : State) (d : Nat) (f : Die → Die) : (s.onDie d f).supMailbox = s.supMailbox := rfl
@[simp] theorem State.execPages_onDie (s : State) (d : Nat) (f : Die → Die) : (s.onDie d f).execPages = s.execPages := rfl
@[simp] theorem State.host_onDie (s : State) (d : Nat) (f : Die → Die) : (s.onDie d f).host = s.host := rfl
@[simp] theorem State.grid_onDie (s : State) (d : Nat) (f : Die → Die) : (s.onDie d f).grid = s.grid := rfl
@[simp] theorem State.extents_onDie (s : State) (d : Nat) (f : Die → Die) : (s.onDie d f).extents = s.extents := rfl
@[simp] theorem State.routeTable_onDie (s : State) (d : Nat) (f : Die → Die) : (s.onDie d f).routeTable = s.routeTable := rfl
@[simp] theorem State.windows_onDie (s : State) (d : Nat) (f : Die → Die) : (s.onDie d f).windows = s.windows := rfl
@[simp] theorem State.portsDown_onDie (s : State) (d : Nat) (f : Die → Die) : (s.onDie d f).portsDown = s.portsDown := rfl
@[simp] theorem State.linkFails_onDie (s : State) (d : Nat) (f : Die → Die) : (s.onDie d f).linkFails = s.linkFails := rfl
@[simp] theorem State.switch_onDie (s : State) (d : Nat) (f : Die → Die) : (s.onDie d f).switch = s.switch := rfl
@[simp] theorem State.ioUnits_onDie (s : State) (d : Nat) (f : Die → Die) : (s.onDie d f).ioUnits = s.ioUnits := rfl
@[simp] theorem State.net_onDie (s : State) (d : Nat) (f : Die → Die) : (s.onDie d f).net = s.net := rfl
@[simp] theorem State.ckpt_onDie (s : State) (d : Nat) (f : Die → Die) : (s.onDie d f).ckpt = s.ckpt := rfl
@[simp] theorem State.panelHalt_onDie (s : State) (d : Nat) (f : Die → Die) : (s.onDie d f).panelHalt = s.panelHalt := rfl
@[simp] theorem State.blob_onDie (s : State) (d : Nat) (f : Die → Die) : (s.onDie d f).blob = s.blob := rfl
@[simp] theorem State.inReset_onDie (s : State) (d : Nat) (f : Die → Die) : (s.onDie d f).inReset = s.inReset := rfl
@[simp] theorem State.readyAt_onDie (s : State) (d : Nat) (f : Die → Die) : (s.onDie d f).readyAt = s.readyAt := rfl
@[simp] theorem State.altRoot_onDie (s : State) (d : Nat) (f : Die → Die) : (s.onDie d f).altRoot = s.altRoot := rfl
@[simp] theorem State.flash_onDie (s : State) (d : Nat) (f : Die → Die) : (s.onDie d f).flash = s.flash := rfl
@[simp] theorem State.agenda_onDie (s : State) (d : Nat) (f : Die → Die) : (s.onDie d f).agenda = s.agenda := rfl
@[simp] theorem State.moves_onDie (s : State) (d : Nat) (f : Die → Die) : (s.onDie d f).moves = s.moves := rfl
@[simp] theorem State.cur_onDie (s : State) (d : Nat) (f : Die → Die) : (s.onDie d f).cur = s.cur := rfl
@[simp] theorem State.word_onDie (s : State) (d : Nat) (f : Die → Die) : (s.onDie d f).word = s.word := rfl
@[simp] theorem State.prompt_onDie (s : State) (d : Nat) (f : Die → Die) : (s.onDie d f).prompt = s.prompt := rfl
@[simp] theorem State.nextId_onDie (s : State) (d : Nat) (f : Die → Die) : (s.onDie d f).nextId = s.nextId := rfl
@[simp] theorem State.free_onDie (s : State) (d : Nat) (f : Die → Die) : (s.onDie d f).free = s.free := rfl
@[simp] theorem State.hart_onDie (s : State) (d : Nat) (f : Die → Die) (i : Nat) : (s.onDie d f).hart i = s.hart i := rfl
@[simp] theorem State.tile_onDie (s : State) (d : Nat) (f : Die → Die) (i : Nat) : (s.onDie d f).tile i = s.tile i := rfl
@[simp] theorem State.pt_onDie (s : State) (d : Nat) (f : Die → Die) (i j : Nat) : (s.onDie d f).pt i j = s.pt i j := rfl

/-! ### setPt -/

@[simp] theorem State.mem_setPt (s : State) (d p : Nat) (x : Pt) : (s.setPt d p x).mem = s.mem := rfl
@[simp] theorem State.badLines_setPt (s : State) (d p : Nat) (x : Pt) : (s.setPt d p x).badLines = s.badLines := rfl
@[simp] theorem State.harts_setPt (s : State) (d p : Nat) (x : Pt) : (s.setPt d p x).harts = s.harts := rfl
@[simp] theorem State.tiles_setPt (s : State) (d p : Nat) (x : Pt) : (s.setPt d p x).tiles = s.tiles := rfl
@[simp] theorem State.dies_setPt (s : State) (d p : Nat) (x : Pt) : (s.setPt d p x).dies = s.dies := rfl
@[simp] theorem State.tick_setPt (s : State) (d p : Nat) (x : Pt) : (s.setPt d p x).tick = s.tick := rfl
@[simp] theorem State.panel_setPt (s : State) (d p : Nat) (x : Pt) : (s.setPt d p x).panel = s.panel := rfl
@[simp] theorem State.tenants_setPt (s : State) (d p : Nat) (x : Pt) : (s.setPt d p x).tenants = s.tenants := rfl
@[simp] theorem State.launches_setPt (s : State) (d p : Nat) (x : Pt) : (s.setPt d p x).launches = s.launches := rfl
@[simp] theorem State.supMailbox_setPt (s : State) (d p : Nat) (x : Pt) : (s.setPt d p x).supMailbox = s.supMailbox := rfl
@[simp] theorem State.execPages_setPt (s : State) (d p : Nat) (x : Pt) : (s.setPt d p x).execPages = s.execPages := rfl
@[simp] theorem State.host_setPt (s : State) (d p : Nat) (x : Pt) : (s.setPt d p x).host = s.host := rfl
@[simp] theorem State.grid_setPt (s : State) (d p : Nat) (x : Pt) : (s.setPt d p x).grid = s.grid := rfl
@[simp] theorem State.extents_setPt (s : State) (d p : Nat) (x : Pt) : (s.setPt d p x).extents = s.extents := rfl
@[simp] theorem State.routeTable_setPt (s : State) (d p : Nat) (x : Pt) : (s.setPt d p x).routeTable = s.routeTable := rfl
@[simp] theorem State.windows_setPt (s : State) (d p : Nat) (x : Pt) : (s.setPt d p x).windows = s.windows := rfl
@[simp] theorem State.portsDown_setPt (s : State) (d p : Nat) (x : Pt) : (s.setPt d p x).portsDown = s.portsDown := rfl
@[simp] theorem State.linkFails_setPt (s : State) (d p : Nat) (x : Pt) : (s.setPt d p x).linkFails = s.linkFails := rfl
@[simp] theorem State.switch_setPt (s : State) (d p : Nat) (x : Pt) : (s.setPt d p x).switch = s.switch := rfl
@[simp] theorem State.ioUnits_setPt (s : State) (d p : Nat) (x : Pt) : (s.setPt d p x).ioUnits = s.ioUnits := rfl
@[simp] theorem State.net_setPt (s : State) (d p : Nat) (x : Pt) : (s.setPt d p x).net = s.net := rfl
@[simp] theorem State.ckpt_setPt (s : State) (d p : Nat) (x : Pt) : (s.setPt d p x).ckpt = s.ckpt := rfl
@[simp] theorem State.panelHalt_setPt (s : State) (d p : Nat) (x : Pt) : (s.setPt d p x).panelHalt = s.panelHalt := rfl
@[simp] theorem State.blob_setPt (s : State) (d p : Nat) (x : Pt) : (s.setPt d p x).blob = s.blob := rfl
@[simp] theorem State.inReset_setPt (s : State) (d p : Nat) (x : Pt) : (s.setPt d p x).inReset = s.inReset := rfl
@[simp] theorem State.readyAt_setPt (s : State) (d p : Nat) (x : Pt) : (s.setPt d p x).readyAt = s.readyAt := rfl
@[simp] theorem State.altRoot_setPt (s : State) (d p : Nat) (x : Pt) : (s.setPt d p x).altRoot = s.altRoot := rfl
@[simp] theorem State.flash_setPt (s : State) (d p : Nat) (x : Pt) : (s.setPt d p x).flash = s.flash := rfl
@[simp] theorem State.agenda_setPt (s : State) (d p : Nat) (x : Pt) : (s.setPt d p x).agenda = s.agenda := rfl
@[simp] theorem State.moves_setPt (s : State) (d p : Nat) (x : Pt) : (s.setPt d p x).moves = s.moves := rfl
@[simp] theorem State.cur_setPt (s : State) (d p : Nat) (x : Pt) : (s.setPt d p x).cur = s.cur := rfl
@[simp] theorem State.word_setPt (s : State) (d p : Nat) (x : Pt) : (s.setPt d p x).word = s.word := rfl
@[simp] theorem State.prompt_setPt (s : State) (d p : Nat) (x : Pt) : (s.setPt d p x).prompt = s.prompt := rfl
@[simp] theorem State.nextId_setPt (s : State) (d p : Nat) (x : Pt) : (s.setPt d p x).nextId = s.nextId := rfl
@[simp] theorem State.free_setPt (s : State) (d p : Nat) (x : Pt) : (s.setPt d p x).free = s.free := rfl
@[simp] theorem State.hart_setPt (s : State) (d p : Nat) (x : Pt) (i : Nat) : (s.setPt d p x).hart i = s.hart i := rfl
@[simp] theorem State.tile_setPt (s : State) (d p : Nat) (x : Pt) (i : Nat) : (s.setPt d p x).tile i = s.tile i := rfl
@[simp] theorem State.die_setPt (s : State) (d p : Nat) (x : Pt) (i : Nat) : (s.setPt d p x).die i = s.die i := rfl

/-! ### onPt -/

@[simp] theorem State.mem_onPt (s : State) (d p : Nat) (f : Pt → Pt) : (s.onPt d p f).mem = s.mem := rfl
@[simp] theorem State.badLines_onPt (s : State) (d p : Nat) (f : Pt → Pt) : (s.onPt d p f).badLines = s.badLines := rfl
@[simp] theorem State.harts_onPt (s : State) (d p : Nat) (f : Pt → Pt) : (s.onPt d p f).harts = s.harts := rfl
@[simp] theorem State.tiles_onPt (s : State) (d p : Nat) (f : Pt → Pt) : (s.onPt d p f).tiles = s.tiles := rfl
@[simp] theorem State.dies_onPt (s : State) (d p : Nat) (f : Pt → Pt) : (s.onPt d p f).dies = s.dies := rfl
@[simp] theorem State.tick_onPt (s : State) (d p : Nat) (f : Pt → Pt) : (s.onPt d p f).tick = s.tick := rfl
@[simp] theorem State.panel_onPt (s : State) (d p : Nat) (f : Pt → Pt) : (s.onPt d p f).panel = s.panel := rfl
@[simp] theorem State.tenants_onPt (s : State) (d p : Nat) (f : Pt → Pt) : (s.onPt d p f).tenants = s.tenants := rfl
@[simp] theorem State.launches_onPt (s : State) (d p : Nat) (f : Pt → Pt) : (s.onPt d p f).launches = s.launches := rfl
@[simp] theorem State.supMailbox_onPt (s : State) (d p : Nat) (f : Pt → Pt) : (s.onPt d p f).supMailbox = s.supMailbox := rfl
@[simp] theorem State.execPages_onPt (s : State) (d p : Nat) (f : Pt → Pt) : (s.onPt d p f).execPages = s.execPages := rfl
@[simp] theorem State.host_onPt (s : State) (d p : Nat) (f : Pt → Pt) : (s.onPt d p f).host = s.host := rfl
@[simp] theorem State.grid_onPt (s : State) (d p : Nat) (f : Pt → Pt) : (s.onPt d p f).grid = s.grid := rfl
@[simp] theorem State.extents_onPt (s : State) (d p : Nat) (f : Pt → Pt) : (s.onPt d p f).extents = s.extents := rfl
@[simp] theorem State.routeTable_onPt (s : State) (d p : Nat) (f : Pt → Pt) : (s.onPt d p f).routeTable = s.routeTable := rfl
@[simp] theorem State.windows_onPt (s : State) (d p : Nat) (f : Pt → Pt) : (s.onPt d p f).windows = s.windows := rfl
@[simp] theorem State.portsDown_onPt (s : State) (d p : Nat) (f : Pt → Pt) : (s.onPt d p f).portsDown = s.portsDown := rfl
@[simp] theorem State.linkFails_onPt (s : State) (d p : Nat) (f : Pt → Pt) : (s.onPt d p f).linkFails = s.linkFails := rfl
@[simp] theorem State.switch_onPt (s : State) (d p : Nat) (f : Pt → Pt) : (s.onPt d p f).switch = s.switch := rfl
@[simp] theorem State.ioUnits_onPt (s : State) (d p : Nat) (f : Pt → Pt) : (s.onPt d p f).ioUnits = s.ioUnits := rfl
@[simp] theorem State.net_onPt (s : State) (d p : Nat) (f : Pt → Pt) : (s.onPt d p f).net = s.net := rfl
@[simp] theorem State.ckpt_onPt (s : State) (d p : Nat) (f : Pt → Pt) : (s.onPt d p f).ckpt = s.ckpt := rfl
@[simp] theorem State.panelHalt_onPt (s : State) (d p : Nat) (f : Pt → Pt) : (s.onPt d p f).panelHalt = s.panelHalt := rfl
@[simp] theorem State.blob_onPt (s : State) (d p : Nat) (f : Pt → Pt) : (s.onPt d p f).blob = s.blob := rfl
@[simp] theorem State.inReset_onPt (s : State) (d p : Nat) (f : Pt → Pt) : (s.onPt d p f).inReset = s.inReset := rfl
@[simp] theorem State.readyAt_onPt (s : State) (d p : Nat) (f : Pt → Pt) : (s.onPt d p f).readyAt = s.readyAt := rfl
@[simp] theorem State.altRoot_onPt (s : State) (d p : Nat) (f : Pt → Pt) : (s.onPt d p f).altRoot = s.altRoot := rfl
@[simp] theorem State.flash_onPt (s : State) (d p : Nat) (f : Pt → Pt) : (s.onPt d p f).flash = s.flash := rfl
@[simp] theorem State.agenda_onPt (s : State) (d p : Nat) (f : Pt → Pt) : (s.onPt d p f).agenda = s.agenda := rfl
@[simp] theorem State.moves_onPt (s : State) (d p : Nat) (f : Pt → Pt) : (s.onPt d p f).moves = s.moves := rfl
@[simp] theorem State.cur_onPt (s : State) (d p : Nat) (f : Pt → Pt) : (s.onPt d p f).cur = s.cur := rfl
@[simp] theorem State.word_onPt (s : State) (d p : Nat) (f : Pt → Pt) : (s.onPt d p f).word = s.word := rfl
@[simp] theorem State.prompt_onPt (s : State) (d p : Nat) (f : Pt → Pt) : (s.onPt d p f).prompt = s.prompt := rfl
@[simp] theorem State.nextId_onPt (s : State) (d p : Nat) (f : Pt → Pt) : (s.onPt d p f).nextId = s.nextId := rfl
@[simp] theorem State.free_onPt (s : State) (d p : Nat) (f : Pt → Pt) : (s.onPt d p f).free = s.free := rfl
@[simp] theorem State.hart_onPt (s : State) (d p : Nat) (f : Pt → Pt) (i : Nat) : (s.onPt d p f).hart i = s.hart i := rfl
@[simp] theorem State.tile_onPt (s : State) (d p : Nat) (f : Pt → Pt) (i : Nat) : (s.onPt d p f).tile i = s.tile i := rfl
@[simp] theorem State.die_onPt (s : State) (d p : Nat) (f : Pt → Pt) (i : Nat) : (s.onPt d p f).die i = s.die i := rfl

/-! ### Fresh identifiers and free values -/

@[simp] theorem State.mem_fresh (s : State) : s.fresh.2.mem = s.mem := rfl
@[simp] theorem State.badLines_fresh (s : State) : s.fresh.2.badLines = s.badLines := rfl
@[simp] theorem State.harts_fresh (s : State) : s.fresh.2.harts = s.harts := rfl
@[simp] theorem State.tiles_fresh (s : State) : s.fresh.2.tiles = s.tiles := rfl
@[simp] theorem State.pts_fresh (s : State) : s.fresh.2.pts = s.pts := rfl
@[simp] theorem State.dies_fresh (s : State) : s.fresh.2.dies = s.dies := rfl
@[simp] theorem State.tick_fresh (s : State) : s.fresh.2.tick = s.tick := rfl
@[simp] theorem State.panel_fresh (s : State) : s.fresh.2.panel = s.panel := rfl
@[simp] theorem State.tenants_fresh (s : State) : s.fresh.2.tenants = s.tenants := rfl
@[simp] theorem State.launches_fresh (s : State) : s.fresh.2.launches = s.launches := rfl
@[simp] theorem State.supMailbox_fresh (s : State) : s.fresh.2.supMailbox = s.supMailbox := rfl
@[simp] theorem State.execPages_fresh (s : State) : s.fresh.2.execPages = s.execPages := rfl
@[simp] theorem State.host_fresh (s : State) : s.fresh.2.host = s.host := rfl
@[simp] theorem State.grid_fresh (s : State) : s.fresh.2.grid = s.grid := rfl
@[simp] theorem State.extents_fresh (s : State) : s.fresh.2.extents = s.extents := rfl
@[simp] theorem State.routeTable_fresh (s : State) : s.fresh.2.routeTable = s.routeTable := rfl
@[simp] theorem State.windows_fresh (s : State) : s.fresh.2.windows = s.windows := rfl
@[simp] theorem State.portsDown_fresh (s : State) : s.fresh.2.portsDown = s.portsDown := rfl
@[simp] theorem State.linkFails_fresh (s : State) : s.fresh.2.linkFails = s.linkFails := rfl
@[simp] theorem State.switch_fresh (s : State) : s.fresh.2.switch = s.switch := rfl
@[simp] theorem State.ioUnits_fresh (s : State) : s.fresh.2.ioUnits = s.ioUnits := rfl
@[simp] theorem State.net_fresh (s : State) : s.fresh.2.net = s.net := rfl
@[simp] theorem State.ckpt_fresh (s : State) : s.fresh.2.ckpt = s.ckpt := rfl
@[simp] theorem State.panelHalt_fresh (s : State) : s.fresh.2.panelHalt = s.panelHalt := rfl
@[simp] theorem State.blob_fresh (s : State) : s.fresh.2.blob = s.blob := rfl
@[simp] theorem State.inReset_fresh (s : State) : s.fresh.2.inReset = s.inReset := rfl
@[simp] theorem State.readyAt_fresh (s : State) : s.fresh.2.readyAt = s.readyAt := rfl
@[simp] theorem State.altRoot_fresh (s : State) : s.fresh.2.altRoot = s.altRoot := rfl
@[simp] theorem State.flash_fresh (s : State) : s.fresh.2.flash = s.flash := rfl
@[simp] theorem State.agenda_fresh (s : State) : s.fresh.2.agenda = s.agenda := rfl
@[simp] theorem State.moves_fresh (s : State) : s.fresh.2.moves = s.moves := rfl
@[simp] theorem State.cur_fresh (s : State) : s.fresh.2.cur = s.cur := rfl
@[simp] theorem State.word_fresh (s : State) : s.fresh.2.word = s.word := rfl
@[simp] theorem State.prompt_fresh (s : State) : s.fresh.2.prompt = s.prompt := rfl
@[simp] theorem State.free_fresh (s : State) : s.fresh.2.free = s.free := rfl
@[simp] theorem State.mem_freeWord (s : State) : s.freeWord.2.mem = s.mem := rfl
@[simp] theorem State.mem_freeBelow (s : State) (n : Nat) : (s.freeBelow n).2.mem = s.mem := rfl
@[simp] theorem State.badLines_freeWord (s : State) : s.freeWord.2.badLines = s.badLines := rfl
@[simp] theorem State.badLines_freeBelow (s : State) (n : Nat) : (s.freeBelow n).2.badLines = s.badLines := rfl
@[simp] theorem State.harts_freeWord (s : State) : s.freeWord.2.harts = s.harts := rfl
@[simp] theorem State.harts_freeBelow (s : State) (n : Nat) : (s.freeBelow n).2.harts = s.harts := rfl
@[simp] theorem State.tiles_freeWord (s : State) : s.freeWord.2.tiles = s.tiles := rfl
@[simp] theorem State.tiles_freeBelow (s : State) (n : Nat) : (s.freeBelow n).2.tiles = s.tiles := rfl
@[simp] theorem State.pts_freeWord (s : State) : s.freeWord.2.pts = s.pts := rfl
@[simp] theorem State.pts_freeBelow (s : State) (n : Nat) : (s.freeBelow n).2.pts = s.pts := rfl
@[simp] theorem State.dies_freeWord (s : State) : s.freeWord.2.dies = s.dies := rfl
@[simp] theorem State.dies_freeBelow (s : State) (n : Nat) : (s.freeBelow n).2.dies = s.dies := rfl
@[simp] theorem State.tick_freeWord (s : State) : s.freeWord.2.tick = s.tick := rfl
@[simp] theorem State.tick_freeBelow (s : State) (n : Nat) : (s.freeBelow n).2.tick = s.tick := rfl
@[simp] theorem State.panel_freeWord (s : State) : s.freeWord.2.panel = s.panel := rfl
@[simp] theorem State.panel_freeBelow (s : State) (n : Nat) : (s.freeBelow n).2.panel = s.panel := rfl
@[simp] theorem State.tenants_freeWord (s : State) : s.freeWord.2.tenants = s.tenants := rfl
@[simp] theorem State.tenants_freeBelow (s : State) (n : Nat) : (s.freeBelow n).2.tenants = s.tenants := rfl
@[simp] theorem State.launches_freeWord (s : State) : s.freeWord.2.launches = s.launches := rfl
@[simp] theorem State.launches_freeBelow (s : State) (n : Nat) : (s.freeBelow n).2.launches = s.launches := rfl
@[simp] theorem State.supMailbox_freeWord (s : State) : s.freeWord.2.supMailbox = s.supMailbox := rfl
@[simp] theorem State.supMailbox_freeBelow (s : State) (n : Nat) : (s.freeBelow n).2.supMailbox = s.supMailbox := rfl
@[simp] theorem State.execPages_freeWord (s : State) : s.freeWord.2.execPages = s.execPages := rfl
@[simp] theorem State.execPages_freeBelow (s : State) (n : Nat) : (s.freeBelow n).2.execPages = s.execPages := rfl
@[simp] theorem State.host_freeWord (s : State) : s.freeWord.2.host = s.host := rfl
@[simp] theorem State.host_freeBelow (s : State) (n : Nat) : (s.freeBelow n).2.host = s.host := rfl
@[simp] theorem State.grid_freeWord (s : State) : s.freeWord.2.grid = s.grid := rfl
@[simp] theorem State.grid_freeBelow (s : State) (n : Nat) : (s.freeBelow n).2.grid = s.grid := rfl
@[simp] theorem State.extents_freeWord (s : State) : s.freeWord.2.extents = s.extents := rfl
@[simp] theorem State.extents_freeBelow (s : State) (n : Nat) : (s.freeBelow n).2.extents = s.extents := rfl
@[simp] theorem State.routeTable_freeWord (s : State) : s.freeWord.2.routeTable = s.routeTable := rfl
@[simp] theorem State.routeTable_freeBelow (s : State) (n : Nat) : (s.freeBelow n).2.routeTable = s.routeTable := rfl
@[simp] theorem State.windows_freeWord (s : State) : s.freeWord.2.windows = s.windows := rfl
@[simp] theorem State.windows_freeBelow (s : State) (n : Nat) : (s.freeBelow n).2.windows = s.windows := rfl
@[simp] theorem State.portsDown_freeWord (s : State) : s.freeWord.2.portsDown = s.portsDown := rfl
@[simp] theorem State.portsDown_freeBelow (s : State) (n : Nat) : (s.freeBelow n).2.portsDown = s.portsDown := rfl
@[simp] theorem State.linkFails_freeWord (s : State) : s.freeWord.2.linkFails = s.linkFails := rfl
@[simp] theorem State.linkFails_freeBelow (s : State) (n : Nat) : (s.freeBelow n).2.linkFails = s.linkFails := rfl
@[simp] theorem State.switch_freeWord (s : State) : s.freeWord.2.switch = s.switch := rfl
@[simp] theorem State.switch_freeBelow (s : State) (n : Nat) : (s.freeBelow n).2.switch = s.switch := rfl
@[simp] theorem State.ioUnits_freeWord (s : State) : s.freeWord.2.ioUnits = s.ioUnits := rfl
@[simp] theorem State.ioUnits_freeBelow (s : State) (n : Nat) : (s.freeBelow n).2.ioUnits = s.ioUnits := rfl
@[simp] theorem State.net_freeWord (s : State) : s.freeWord.2.net = s.net := rfl
@[simp] theorem State.net_freeBelow (s : State) (n : Nat) : (s.freeBelow n).2.net = s.net := rfl
@[simp] theorem State.ckpt_freeWord (s : State) : s.freeWord.2.ckpt = s.ckpt := rfl
@[simp] theorem State.ckpt_freeBelow (s : State) (n : Nat) : (s.freeBelow n).2.ckpt = s.ckpt := rfl
@[simp] theorem State.panelHalt_freeWord (s : State) : s.freeWord.2.panelHalt = s.panelHalt := rfl
@[simp] theorem State.blob_freeWord (s : State) : s.freeWord.2.blob = s.blob := rfl
@[simp] theorem State.inReset_freeWord (s : State) : s.freeWord.2.inReset = s.inReset := rfl
@[simp] theorem State.readyAt_freeWord (s : State) : s.freeWord.2.readyAt = s.readyAt := rfl
@[simp] theorem State.panelHalt_freeBelow (s : State) (n : Nat) : (s.freeBelow n).2.panelHalt = s.panelHalt := rfl
@[simp] theorem State.blob_freeBelow (s : State) (n : Nat) : (s.freeBelow n).2.blob = s.blob := rfl
@[simp] theorem State.inReset_freeBelow (s : State) (n : Nat) : (s.freeBelow n).2.inReset = s.inReset := rfl
@[simp] theorem State.readyAt_freeBelow (s : State) (n : Nat) : (s.freeBelow n).2.readyAt = s.readyAt := rfl
@[simp] theorem State.altRoot_freeWord (s : State) : s.freeWord.2.altRoot = s.altRoot := rfl
@[simp] theorem State.altRoot_freeBelow (s : State) (n : Nat) : (s.freeBelow n).2.altRoot = s.altRoot := rfl
@[simp] theorem State.flash_freeWord (s : State) : s.freeWord.2.flash = s.flash := rfl
@[simp] theorem State.flash_freeBelow (s : State) (n : Nat) : (s.freeBelow n).2.flash = s.flash := rfl
@[simp] theorem State.agenda_freeWord (s : State) : s.freeWord.2.agenda = s.agenda := rfl
@[simp] theorem State.agenda_freeBelow (s : State) (n : Nat) : (s.freeBelow n).2.agenda = s.agenda := rfl
@[simp] theorem State.moves_freeWord (s : State) : s.freeWord.2.moves = s.moves := rfl
@[simp] theorem State.moves_freeBelow (s : State) (n : Nat) : (s.freeBelow n).2.moves = s.moves := rfl
@[simp] theorem State.cur_freeWord (s : State) : s.freeWord.2.cur = s.cur := rfl
@[simp] theorem State.cur_freeBelow (s : State) (n : Nat) : (s.freeBelow n).2.cur = s.cur := rfl
@[simp] theorem State.word_freeWord (s : State) : s.freeWord.2.word = s.word := rfl
@[simp] theorem State.word_freeBelow (s : State) (n : Nat) : (s.freeBelow n).2.word = s.word := rfl
@[simp] theorem State.prompt_freeWord (s : State) : s.freeWord.2.prompt = s.prompt := rfl
@[simp] theorem State.prompt_freeBelow (s : State) (n : Nat) : (s.freeBelow n).2.prompt = s.prompt := rfl
@[simp] theorem State.nextId_freeWord (s : State) : s.freeWord.2.nextId = s.nextId := rfl
@[simp] theorem State.nextId_freeBelow (s : State) (n : Nat) : (s.freeBelow n).2.nextId = s.nextId := rfl

end Sys2Proof.Machine
end

