-- ==== Sys2Proof/Laws/Run.lean ====
section
/-! SUPPORT. What issue and retirement do (R25, R28, R52, R321): one lemma per shared operation of Machine/Ops.lean. -/

namespace Sys2Proof.Machine

/-! ### Frames -/

theorem State.hartAndTile_refl (s : State) (h : Nat) : s.hartAndTile s h (s.tile (hartVt h)) :=
  ⟨rfl, fun _ => rfl, fun _ _ => rfl, fun _ _ => rfl, rfl⟩

theorem State.onlyHart_refl (s : State) (h : Nat) : s.onlyHart s h := s.hartAndTile_refl h

/-- A change of one hart and its tile, then one of that hart alone. -/
theorem State.hartAndTile_trans {s t u : State} {h : Nat} {k : Tile} (a : s.hartAndTile t h k) (b : t.onlyHart u h) :
    s.hartAndTile u h k := by
  obtain ⟨a1, a0, a2, a3, a4⟩ := a
  obtain ⟨b1, b0, b2, b3, b4⟩ := b
  refine ⟨?_, fun a => (b0 a).trans (a0 a), fun i hi => (b2 i hi).trans (a2 i hi), fun v hv => (b3 v hv).trans (a3 v hv), ?_⟩
  · rw [b1, a1]
  · rw [b4, a4]

theorem State.onlyHart_trans {s t u : State} {h : Nat} (a : s.onlyHart t h) (b : t.onlyHart u h) : s.onlyHart u h :=
  State.hartAndTile_trans a b

theorem State.onlyHart_setHart (s : State) (h : Nat) (x : Hart) : s.onlyHart (s.setHart h x) h :=
  ⟨rfl, fun _ => rfl, fun _ n => State.hart_setHart_ne _ _ n, fun _ _ => rfl, rfl⟩

theorem State.onlyHart_onHart (s : State) (h : Nat) (f : Hart → Hart) : s.onlyHart (s.onHart h f) h :=
  State.onlyHart_setHart _ _ _

theorem State.onlyHart_unverified (s : State) (h : Nat) (l : List Nat → List Nat) :
    s.onlyHart (s.onTile (hartVt h) fun t => { t with unverified := l t.unverified }) h :=
  ⟨rfl, fun _ => rfl, fun _ _ => rfl, fun _ n => State.tile_onTile_ne _ _ n, by simp⟩

theorem State.onlyHart_fresh (s : State) (h : Nat) : s.onlyHart s.fresh.2 h :=
  ⟨rfl, fun _ => rfl, fun _ _ => rfl, fun _ _ => rfl, rfl⟩

/-! ### Reads of the SRAM and of the signature table -/

theorem State.afterReads_refl (s : State) : s.afterReads s := ⟨rfl, fun _ => rfl⟩

theorem State.afterReads_trans {s t u : State} (a : s.afterReads t) (b : t.afterReads u) : s.afterReads u := by
  obtain ⟨a1, a2⟩ := a
  obtain ⟨b1, b2⟩ := b
  refine ⟨?_, fun v => ?_⟩
  · rw [b1, a1]
  · rw [b2, a2]

theorem State.afterReads_foldl {α : Type} (f : State → α → State) (h : ∀ (s : State) (a : α), s.afterReads (f s a)) (l : List α) (s : State) :
    s.afterReads (l.foldl f s) := by
  induction l generalizing s with
  | nil => exact State.afterReads_refl s
  | cons a l ih => exact State.afterReads_trans (h s a) (ih _)

theorem State.afterReads_onDie (s : State) (d : Nat) (f : Die → Die) : s.afterReads (s.onDie d f) := ⟨rfl, fun _ => rfl⟩
theorem State.afterReads_onPt (s : State) (d p : Nat) (f : Pt → Pt) : s.afterReads (s.onPt d p f) := ⟨rfl, fun _ => rfl⟩
theorem State.afterReads_fresh (s : State) : s.afterReads s.fresh.2 := ⟨rfl, fun _ => rfl⟩

theorem State.afterReads_onTile (s : State) (v : Nat) (f : Tile → Tile)
    (hf : ∀ t, f t = { t with unverified := (f t).unverified, flips := (f t).flips, failed := (f t).failed }) :
    s.afterReads (s.onTile v f) := by
  refine ⟨rfl, fun u => ?_⟩
  by_cases h : u = v
  · subst h
    rw [State.tile_onTile]
    exact hf _
  · rw [State.tile_onTile_ne _ _ h]

theorem State.afterReads_openRow (s : State) (p : Place) : s.afterReads (s.openRow p) := by
  unfold State.openRow
  split
  · exact State.afterReads_onDie _ _ _
  · exact State.afterReads_refl s

theorem State.afterReads_countCorrected (s : State) (p : Place) : s.afterReads (s.countCorrected p) := by
  unfold State.countCorrected
  split
  · split
    · exact State.afterReads_onDie _ _ _
    · exact State.afterReads_refl s
  · exact State.afterReads_refl s

theorem State.afterReads_joinBatch (s : State) (src : HbmSource) (p : Place) : s.afterReads (s.joinBatch src p) := by
  unfold State.joinBatch
  split
  · exact State.afterReads_onDie _ _ _
  · exact State.afterReads_refl s

theorem State.afterReads_serveHbm (s : State) (p : Place) : s.afterReads (s.serveHbm p) := by
  unfold State.serveHbm
  split
  · exact State.afterReads_trans (State.afterReads_trans (State.afterReads_openRow s p) (State.afterReads_onDie _ _ _))
      (State.afterReads_countCorrected _ p)
  · exact State.afterReads_refl s

theorem State.afterReads_countIssue (s : State) (d : Nat) (p : Place) : s.afterReads (s.countIssue d p) := by
  unfold State.countIssue
  split
  · exact State.afterReads_onDie _ _ _
  · exact State.afterReads_onDie _ _ _
  · exact State.afterReads_refl s

theorem State.afterReads_serveWalk (s : State) (p : Place) : s.afterReads (s.serveWalk p) :=
  State.afterReads_trans (State.afterReads_trans (State.afterReads_joinBatch s _ p) (State.afterReads_openRow _ p))
    (State.afterReads_countCorrected _ p)

theorem State.afterReads_walked (s : State) (c : Ctx) (va : Nat) (w t : Bool) : s.afterReads (s.walked c va w t) :=
  State.afterReads_foldl _ State.afterReads_serveWalk _ s

/-- An untouching search for a leaf only makes its walk's reads (R98, R226). -/
theorem State.afterReads_leafFor (s : State) (c : Ctx) (va : Nat) (w : Bool) : s.afterReads (s.leafFor c va w false).1 := by
  unfold State.leafFor
  simp only [Bool.false_and, Bool.false_eq_true, if_false, Bool.not_false, if_true]
  split
  · exact State.afterReads_refl s
  · split <;> exact State.afterReads_walked s c va w false

theorem State.afterReads_locatePaged (s : State) (c : Ctx) (va : Word) (k : AccessKind) :
    s.afterReads (s.locatePaged c va k false).1 := by
  have hl := fun w => State.afterReads_leafFor s c va.toNat w
  have hw := fun w => State.afterReads_walked s c va.toNat w false
  unfold State.locatePaged
  dsimp only
  split
  · exact State.afterReads_refl s
  · specialize hl (decide (k = .store) || decide (k = .amo))
    specialize hw (decide (k = .store) || decide (k = .amo))
    generalize s.leafFor c va.toNat (decide (k = .store) || decide (k = .amo)) false = r at *
    obtain ⟨t, e⟩ := r
    cases e
    · dsimp only
      split
      · exact hw
      · split
        · split
          · exact hl
          · exact hw
        · exact hl
    · exact hl
    · exact hl
    · exact State.afterReads_refl s

theorem State.afterReads_locate (s : State) (c : Ctx) (va : Word) (k : AccessKind) : s.afterReads (s.locate c va k false).1 := by
  have hp := State.afterReads_locatePaged s c va k
  have hs := State.afterReads_refl s
  unfold State.locate
  dsimp only
  repeat' split
  all_goals first | exact hs | exact hp

theorem State.afterReads_flipBit (s : State) (v : Nat) (f : Nat × Nat) : s.afterReads (s.flipBit v f) := ⟨rfl, fun _ => rfl⟩

theorem State.afterReads_rebuildWord (s : State) (v o : Nat) : s.afterReads (s.rebuildWord v o) := by
  unfold State.rebuildWord
  dsimp only
  apply fun h => State.afterReads_trans h (State.afterReads_onTile _ v
    (fun t => { t with flips := t.flips.filter (fun f => f.1 != o) ++ (s.tile v).rebuilt o }) fun _ => rfl)
  exact State.afterReads_foldl _ (fun s f => State.afterReads_flipBit s v f) _ s

theorem State.afterReads_retirePt (s : State) (d p : Nat) : s.afterReads (s.retirePt d p) := by
  unfold State.retirePt State.logNote State.unclock
  refine State.afterReads_trans ?_ (State.afterReads_onDie _ _ _)
  split
  · exact State.afterReads_onPt _ _ _ _
  · refine State.afterReads_trans ?_ (State.afterReads_onDie _ _ _)
    exact State.afterReads_trans (State.afterReads_onPt _ _ _ _)
      (State.afterReads_foldl _ (fun s _ => State.afterReads_onPt s _ _ _) _ _)

theorem State.afterReads_markRetire (s : State) (d p : Nat) : s.afterReads (s.markRetire d p) := by
  have h := State.afterReads_onPt s d p fun p => { p with marked := true }
  unfold State.markRetire
  dsimp only
  split
  · exact State.afterReads_trans h (State.afterReads_retirePt _ _ _)
  · exact h

theorem State.afterReads_checkAge (s : State) (d p : Nat) : s.afterReads (s.checkAge d p) := by
  unfold State.checkAge
  dsimp only
  split
  · exact State.afterReads_markRetire s d p
  · exact State.afterReads_refl s

theorem State.afterReads_countError (s : State) (v : Nat) : s.afterReads (s.countError v) :=
  State.afterReads_trans (State.afterReads_onPt s (vtDie v) (s.ptOf v) fun p => { p with errors := p.errors + 1 })
    (State.afterReads_checkAge _ _ _)

/-- A unit that touches a slice's SRAM leaves what R143 says: words rebuilt, the error counted, the VT failed. -/
theorem State.afterReads_sramTouch (s : State) (v off len : Nat) : s.afterReads (s.sramTouch v off len) := by
  unfold State.sramTouch State.sramFail State.sramFix
  split
  · split
    · exact State.afterReads_refl s
    · exact State.afterReads_trans (State.afterReads_onTile _ v (fun t => { t with failed := true }) fun _ => rfl)
        (State.afterReads_countError _ _)
  · split
    · exact State.afterReads_refl s
    · refine State.afterReads_trans ?_ (State.afterReads_countError _ _)
      exact State.afterReads_foldl _ (fun s o => State.afterReads_rebuildWord s v o) _ s

theorem State.afterReads_readBytes (s : State) (p : Place) (n : Nat) : s.afterReads (s.readBytes p n).1 := by
  unfold State.readBytes
  split
  · exact State.afterReads_sramTouch s _ _ _
  · exact State.afterReads_refl s

/-- A dword of the signature table read (R320). -/
theorem State.afterReads_sigWord (s : State) (h : Nat) (va : Word) : s.afterReads (s.sigWord h va).1 := by
  have hl := State.afterReads_locate s { s.ctx h with mode := .kernel } va .load
  unfold State.sigWord
  generalize s.locate { s.ctx h with mode := .kernel } va .load false = r at *
  obtain ⟨t, e⟩ := r
  cases e with
  | error e => exact hl
  | ok l =>
    have h2 := State.afterReads_trans hl
      (State.afterReads_trans (State.afterReads_countIssue t (hartDie h) l.place) (State.afterReads_serveHbm _ l.place))
    dsimp only
    split
    · exact h2
    · exact State.afterReads_trans h2 (State.afterReads_readBytes _ _ _)

/-- A lookup in the signature table (R320). -/
theorem State.afterReads_sigEntry (s : State) (h : Nat) (base pc : Word) (n : Nat) :
    s.afterReads (s.sigEntry h base pc n).1 := by
  induction n with
  | zero => exact State.afterReads_refl s
  | succ n ih =>
    rw [State.sigEntry]
    generalize s.sigEntry h base pc n = r at *
    obtain ⟨t, e⟩ := r
    cases e with
    | some e => exact ih
    | none =>
      dsimp only
      have hw := State.afterReads_trans ih (State.afterReads_sigWord t h (base + BitVec.ofNat 64 (8 + 16 * n)))
      generalize t.sigWord h (base + BitVec.ofNat 64 (8 + 16 * n)) = q at *
      obtain ⟨u, w⟩ := q
      cases w with
      | none => exact hw
      | some w =>
        dsimp only
        split
        · exact State.afterReads_trans hw (State.afterReads_sigWord u h _)
        · exact hw

theorem State.afterReads_hart {s t : State} (a : s.afterReads t) (h : Nat) : t.hart h = s.hart h := by
  have e := congrArg State.harts a.1
  dsimp only at e
  rw [State.hart, e]
  rfl

/-- `t` is `s` after reads (R98, R143), but for the checker of one hart (R321). -/
def State.afterLookup (s t : State) (h : Nat) : Prop :=
  ∃ u, s.afterReads u ∧ (t = u ∨ ∃ c, t = u.setHart h { u.hart h with checker := c })

theorem State.afterLookup_hart {s t : State} {h : Nat} (a : s.afterLookup t h) :
    ∃ c, t.hart h = { s.hart h with checker := c } := by
  obtain ⟨u, hu, rfl | ⟨c, rfl⟩⟩ := a
  · exact ⟨_, State.afterReads_hart hu h⟩
  · exact ⟨c, by rw [State.hart_setHart, State.afterReads_hart hu]⟩

theorem State.afterLookup_rest {s t : State} {h : Nat} (a : s.afterLookup t h) :
    t.cur = s.cur ∧ t.word = s.word ∧ t.prompt = s.prompt ∧ t.tick = s.tick
      ∧ (∀ i, i ≠ h → t.hart i = s.hart i) ∧ ∀ v, t.tile v = { s.tile v with
          unverified := (t.tile v).unverified, flips := (t.tile v).flips, failed := (t.tile v).failed } := by
  obtain ⟨u, hu, e⟩ := a
  obtain ⟨h1, h2⟩ := hu
  have key : u.cur = s.cur ∧ u.word = s.word ∧ u.prompt = s.prompt ∧ u.tick = s.tick := by
    refine ⟨?_, ?_, ?_, ?_⟩
    · have h := congrArg State.cur h1; exact h
    · have h := congrArg State.word h1; exact h
    · have h := congrArg State.prompt h1; exact h
    · have h := congrArg State.tick h1; exact h
  obtain ⟨k1, k2, k3, k4⟩ := key
  rcases e with rfl | ⟨c, rfl⟩
  · exact ⟨k1, k2, k3, k4, fun i _ => State.afterReads_hart ⟨h1, h2⟩ i, h2⟩
  · exact ⟨k1, k2, k3, k4, fun i hi => (State.hart_setHart_ne _ _ hi).trans (State.afterReads_hart ⟨h1, h2⟩ i), h2⟩

/-- Reporting a mismatch touches the checker only (R321). -/
theorem State.failBlock_lookup {s u : State} (h : Nat) (a : s.afterReads u) : s.afterLookup (u.failBlock h) h :=
  ⟨_, State.afterReads_trans a (State.afterReads_trans (State.afterReads_fresh u)
    (State.afterReads_onTile _ (hartVt h) (fun t => { t with unverified := t.unverified ++ [u.nextId] }) fun _ => rfl)),
    .inr ⟨_, rfl⟩⟩

/-- Opening a block touches the checker, and what its reads leave (R321). -/
theorem State.openBlock_lookup (s : State) (h : Nat) : s.afterLookup (s.openBlock h) h := by
  unfold State.openBlock
  dsimp only
  split
  · exact ⟨s, State.afterReads_refl s, .inl rfl⟩
  · have h1 := State.afterReads_sigWord s h ((s.hart h).csr.sigbase &&& ~~~(7#64))
    generalize s.sigWord h ((s.hart h).csr.sigbase &&& ~~~(7#64)) = r at *
    have h2 := State.afterReads_trans h1 (State.afterReads_sigEntry r.1 h ((s.hart h).csr.sigbase &&& ~~~(7#64))
      (s.hart h).pc (r.2.getD 0).toNat)
    generalize r.1.sigEntry h ((s.hart h).csr.sigbase &&& ~~~(7#64)) (s.hart h).pc (r.2.getD 0).toNat = q at *
    obtain ⟨u, e⟩ := q
    cases e with
    | none =>
      dsimp only
      split
      · exact ⟨u, h2, .inl rfl⟩
      · exact State.failBlock_lookup h h2
    | some e =>
      exact ⟨_, State.afterReads_trans h2 (State.afterReads_trans (State.afterReads_fresh u)
        (State.afterReads_onTile _ (hartVt h) (fun t => { t with unverified := t.unverified ++ [u.nextId] }) fun _ => rfl)),
        .inr ⟨_, rfl⟩⟩

theorem State.acting_lookup (s : State) : s.afterLookup s.acting s.cur := State.openBlock_lookup s s.cur

theorem State.cur_acting (s : State) : s.acting.cur = s.cur := (State.afterLookup_rest s.acting_lookup).1

theorem State.lag_acting (s : State) (v : Nat) : (s.acting.tile v).lag = (s.tile v).lag := by
  have h := congrArg Tile.lag ((State.afterLookup_rest s.acting_lookup).2.2.2.2.2 v)
  exact h

theorem State.cycle_acting (s : State) (v : Nat) : s.acting.cycle v = s.cycle v := by
  simp only [State.cycle, State.lag_acting, (State.afterLookup_rest s.acting_lookup).2.2.2.1]

/-- Where the checker has nothing to look up an instruction acts in the state itself (R321). -/
theorem State.acting_same {s : State} (h : isSup s.cur = true ∨ s.self.checked = false ∨ s.self.checker.block.isSome = true) :
    s.acting = s := by
  have : (isSup s.cur || !s.self.checked || s.self.checker.block.isSome) = true := by
    rcases h with h | h | h <;> simp [h]
  unfold State.acting State.openBlock
  exact if_pos this

/-- Folding a retirement touches the checker only (R321). -/
theorem State.foldBlock_frame (s : State) (h : Nat) (w : Word32) (fields writes : List Reg) (taken : Bool) :
    s.onlyHart (s.foldBlock h w fields writes taken) h
      ∧ ∃ c, (s.foldBlock h w fields writes taken).hart h = { s.hart h with checker := c } := by
  unfold State.foldBlock
  dsimp only
  split
  · exact ⟨State.onlyHart_refl s h, _, rfl⟩
  · split <;> exact ⟨State.onlyHart_setHart _ _ _, _, by rw [State.hart_setHart]⟩

theorem Hart.age_frame (x : Hart) (n : Nat) : x.age n = { x with regs := (x.age n).regs, fixed := (x.age n).fixed } := by
  induction n generalizing x with
  | zero => rfl
  | succ n ih =>
    rw [Hart.age_succ, ih]
    simp [Hart.ageOnce]

theorem Hart.drain_frame (x : Hart) : x.drain = { x with regs := x.drain.regs, fixed := x.drain.fixed } := by
  unfold Hart.drain
  rw [Hart.age_frame]

/-- Draining commutes with a change of what is neither register nor result in flight. -/
theorem Hart.age_congr (n : Nat) (x y : Hart) (hr : x.regs = y.regs) (hf : x.fixed = y.fixed) :
    (x.age n).regs = (y.age n).regs ∧ (x.age n).fixed = (y.age n).fixed := by
  induction n generalizing x y with
  | zero => exact ⟨hr, hf⟩
  | succ n ih =>
    rw [Hart.age_succ, Hart.age_succ]
    apply ih <;> simp [Hart.ageOnce, hr, hf]

theorem Hart.drain_congr (x y : Hart) (hr : x.regs = y.regs) (hf : x.fixed = y.fixed) : x.drain.regs = y.drain.regs := by
  unfold Hart.drain
  rw [hf]
  exact (Hart.age_congr _ x y hr hf).1

theorem Hart.settledRegs_congr (x y : Hart) (hr : x.regs = y.regs) (hf : x.fixed = y.fixed) (hb : x.board = y.board) :
    x.settledRegs = y.settledRegs := by
  unfold Hart.settledRegs
  rw [Hart.drain_congr x y hr hf, hb]

theorem Hart.settledRegs_age (x : Hart) (n : Nat) : (x.age n).settledRegs = x.settledRegs := by
  unfold Hart.settledRegs
  rw [Hart.drain_age, Hart.age_frame]

theorem State.onlyHart_word {s t : State} {h : Nat} {k : Tile} (o : s.hartAndTile t h k) : t.word = s.word := by
  have h := congrArg State.word o.1
  exact h
theorem State.onlyHart_cycle {s t : State} {h : Nat} {k : Tile} (o : s.hartAndTile t h k)
    (hk : k.lag = (s.tile (hartVt h)).lag) : t.cycle (hartVt h) = s.cycle (hartVt h) := by
  have h1 : t.tick = s.tick := by have h := congrArg State.tick o.1; exact h
  have h2 : (t.tile (hartVt h)).lag = (s.tile (hartVt h)).lag := by have h := congrArg Tile.lag o.2.2.2.2; exact h.trans hk
  simp only [State.cycle, h1, h2]

/-- The hart's side of retirement (R25, R37, R335). -/
def Hart.retired (x : Hart) (user : Bool) (energy next n : Nat) : Hart :=
  ({ x.charge user energy with
    csr := { (x.charge user energy).csr with instret := (x.charge user energy).csr.instret + 1 }
    nextIssue := next, seq := (x.charge user energy).seq + 1 } : Hart).age n

theorem Hart.charge_eq (x : Hart) (user : Bool) (energy : Nat) : x.charge user energy = { x with
    barred := (x.charge user energy).barred
    csr := { x.csr with equotaUsed := if user then x.csr.equotaUsed + BitVec.ofNat 32 energy else x.csr.equotaUsed } } := by
  cases user <;> rfl

theorem Hart.retired_frame (x : Hart) (user : Bool) (energy next n : Nat) :
    let y := x.retired user energy next n
    y.settledRegs = x.settledRegs ∧ y = { x with
      regs := y.regs, fixed := y.fixed, nextIssue := next, seq := x.seq + 1, barred := y.barred
      csr := { x.csr with
        instret := x.csr.instret + 1
        equotaUsed := if user then x.csr.equotaUsed + BitVec.ofNat 32 energy else x.csr.equotaUsed } } := by
  dsimp only [Hart.retired]
  rw [Hart.charge_eq]
  refine ⟨?_, ?_⟩
  · exact (Hart.settledRegs_age _ _).trans (Hart.settledRegs_congr _ x rfl rfl rfl)
  · rw [Hart.age_frame]

/-- Retirement (R25, R37, R335). -/
theorem State.retire_frame (s : State) (o : Op) (taken : Bool) (h : Nat) (mode : Mode) :
    ∃ c, s.onlyHart (s.retire h o mode taken) h
      ∧ (s.retire h o mode taken).hart h = ({ s.hart h with checker := c } : Hart).retired (mode == .user)
        (Config.energyOfWord s.word) (s.cycle (hartVt h) + o.sc.toNat + 1) (o.sc.toNat + 1) := by
  have key : ∀ u : State, (s.onlyHart u h ∧ ∃ c, u.hart h = { s.hart h with checker := c }) →
      ∃ c, s.onlyHart (u.onHart h fun x => x.retired (mode == .user) (Config.energyOfWord u.word)
          (u.cycle (hartVt h) + o.sc.toNat + 1) (o.sc.toNat + 1)) h
        ∧ (u.onHart h fun x => x.retired (mode == .user) (Config.energyOfWord u.word)
          (u.cycle (hartVt h) + o.sc.toNat + 1) (o.sc.toNat + 1)).hart h
          = ({ s.hart h with checker := c } : Hart).retired (mode == .user)
            (Config.energyOfWord s.word) (s.cycle (hartVt h) + o.sc.toNat + 1) (o.sc.toNat + 1) := by
    rintro u ⟨hu, c, hc⟩
    refine ⟨c, State.onlyHart_trans hu (State.onlyHart_onHart _ _ _), ?_⟩
    rw [State.hart_onHart, hc, State.onlyHart_word hu, State.onlyHart_cycle hu rfl]
  unfold State.retire
  dsimp only
  split
  · exact key _ (State.foldBlock_frame s h _ _ _ _)
  · exact key _ ⟨State.onlyHart_refl s h, _, rfl⟩

/-! ### One instruction that only writes registers -/

theorem Hart.distancesMet_tooSoon {x : Hart} {reads writes : List Reg} {lat : Nat} (h : x.distancesMet reads writes lat) :
    x.tooSoon reads writes lat = false := by
  simp only [Hart.tooSoon, List.any_eq_false]
  intro p hp
  obtain ⟨h1, h2⟩ := h p hp
  simp only [Bool.and_eq_true, Bool.or_eq_true, List.contains_eq_mem, decide_eq_true_eq, h1, false_or, not_and]
  intro _ hw
  have := h2 hw.1
  omega

/-- An instruction that can issue and whose body is done retires: checks, waits and traps fall away (R28, R52). -/
theorem State.run_done {s : State} {o : Op} {body : State → Act} {t : State} (hc : s.canIssue o)
    (hb : body (s.openBlock s.cur) = .done t) :
    s.run o body = .next ((t.onHart s.cur fun y => { y with pc := y.pc + BitVec.ofNat 64 o.bytes }).retire s.cur o
      s.self.mode false) := by
  obtain ⟨h1, h2, h3, h4⟩ := hc
  have h2 := Hart.distancesMet_tooSoon h2
  have e : s.self = s.hart s.cur := rfl
  rw [e] at h1 h2
  unfold State.run
  simp only [h2, h3, Bool.and_false, Bool.false_or, hb, Nat.not_lt.mpr h1, if_false, Bool.false_eq_true]
  have : (o.reach && !s.settled s.cur) = false := by
    cases hr : o.reach
    · rfl
    · simp [h4 hr]
  simp only [this, Bool.false_eq_true, if_false]
  rfl

/-- The same for a body that jumps (R26). -/
theorem State.run_jumped {s : State} {o : Op} {body : State → Act} {t : State} {target : Word} (hc : s.canIssue o)
    (hb : body (s.openBlock s.cur) = .jump t target) :
    s.run o body = .next (((t.onHart s.cur fun y => { y.drain with pc := target }).retire s.cur o
      s.self.mode true).trace s.cur 1 target) := by
  obtain ⟨h1, h2, h3, h4⟩ := hc
  have h2 := Hart.distancesMet_tooSoon h2
  have e : s.self = s.hart s.cur := rfl
  rw [e] at h1 h2
  unfold State.run
  simp only [h2, h3, Bool.and_false, Bool.false_or, hb, Nat.not_lt.mpr h1, if_false, Bool.false_eq_true]
  have : (o.reach && !s.settled s.cur) = false := by
    cases hr : o.reach
    · rfl
    · simp [h4 hr]
  simp only [this, Bool.false_eq_true, if_false]
  rfl

theorem Hart.drain_drain (x : Hart) : x.drain.drain = x.drain := by
  obtain ⟨n, hn⟩ := x.exists_age_empty
  rw [Hart.drain_eq x hn, Hart.drain_age, Hart.drain_eq x hn]

theorem Hart.settledRegs_drain (x : Hart) : x.drain.settledRegs = x.settledRegs := by
  have h : x.drain.board = x.board := by rw [Hart.drain_frame]
  unfold Hart.settledRegs
  rw [Hart.drain_drain, h]

theorem State.self_openBlock (s : State) : ∃ c, (s.openBlock s.cur).self = { s.self with checker := c } := by
  obtain ⟨c, hc⟩ := State.afterLookup_hart s.acting_lookup
  have hcur : (s.openBlock s.cur).cur = s.cur := s.cur_acting
  exact ⟨c, by simp only [State.self, hcur]; exact hc⟩

/-- What retirement leaves, for a hart whose registers, results, PC and CSRs the body has set (R25, R335). -/
theorem State.retire_retires {s u : State} {o : Op} {taken : Bool} {y : Hart} {k : Tile}
    (hou : s.acting.hartAndTile u s.cur k) (hk : k.lag = (s.acting.tile (hartVt s.cur)).lag)
    (hut : u.hart s.cur = y) (csr : Csrs) (hcsr : y.csr = csr) (hi : csr.instret = s.self.csr.instret)
    (he : csr.equotaUsed = s.self.csr.equotaUsed)
    (hy : ∃ c, y = { s.self with regs := y.regs, fixed := y.fixed, board := y.board, pc := y.pc, csr := y.csr, checker := c }) :
    s.retiresOn (u.retire s.cur o s.self.mode taken) k o.sc y.pc y.settledRegs csr := by
  obtain ⟨c', hr1, hr2⟩ := State.retire_frame u o taken s.cur s.self.mode
  generalize u.retire s.cur o s.self.mode taken = t at hr1 hr2
  rw [hut, State.onlyHart_word hou, State.onlyHart_cycle hou hk, State.cycle_acting,
    (State.afterLookup_rest s.acting_lookup).2.1] at hr2
  have hfr := Hart.retired_frame ({ y with checker := c' }) (s.self.mode == .user) (Config.energyOfWord s.word)
    (s.cycle (hartVt s.cur) + o.sc.toNat + 1) (o.sc.toNat + 1)
  rw [← hr2] at hfr
  obtain ⟨hf1, hf2⟩ := hfr
  obtain ⟨c, hy⟩ := hy
  unfold State.retiresOn
  generalize t.hart s.cur = z at *
  have hreg : z.settledRegs = y.settledRegs := hf1.trans (Hart.settledRegs_congr _ y rfl rfl rfl)
  subst hcsr
  refine ⟨hreg, ?_, ?_, ?_, ?_, State.hartAndTile_trans hou hr1⟩
  · rw [hf2]
  · rw [hf2]; dsimp only; rw [hi, he]; cases s.self.mode <;> rfl
  · rw [hf2]
  · rw [hf2, hy]

/-- A body that changes only registers, results and CSRs of its hart. -/
theorem State.run_regs {s : State} {o : Op} {body : State → Act} (hc : s.canIssue o) (f : Hart → Hart)
    (hb : body (s.openBlock s.cur) = .done ((s.openBlock s.cur).onHart s.cur f))
    (hf : ∀ x, f x = { x with regs := (f x).regs, fixed := (f x).fixed, board := (f x).board, csr := (f x).csr })
    (regs : Regs) (hr : ∀ c, (f { s.self with checker := c }).settledRegs = regs)
    (csr : Csrs) (hcsr : ∀ c, (f { s.self with checker := c }).csr = csr) (hi : csr.instret = s.self.csr.instret)
    (he : csr.equotaUsed = s.self.csr.equotaUsed) :
    ∃ t, s.run o body = .next t ∧ s.retires t o.sc (s.self.pc + BitVec.ofNat 64 o.bytes) regs csr := by
  refine ⟨_, State.run_done hc hb, ?_⟩
  obtain ⟨c, hoc⟩ := State.afterLookup_hart s.acting_lookup
  rw [State.acting] at hoc
  generalize hu : ((s.openBlock s.cur).onHart s.cur f).onHart s.cur
    (fun y => { y with pc := y.pc + BitVec.ofNat 64 o.bytes }) = u
  have hou : s.acting.onlyHart u s.cur := by
    rw [← hu]
    exact State.onlyHart_trans (State.onlyHart_onHart _ _ _) (State.onlyHart_onHart _ _ _)
  have hut : u.hart s.cur = { f { s.self with checker := c } with
      pc := (f { s.self with checker := c }).pc + BitVec.ofNat 64 o.bytes } := by
    rw [← hu, State.hart_onHart, State.hart_onHart, hoc]; rfl
  have hx := hf { s.self with checker := c }
  have hpc : (f { s.self with checker := c }).pc = s.self.pc := by rw [hx]
  have := State.retire_retires (o := o) (taken := false) hou rfl hut csr (hcsr c) hi he ⟨c, by dsimp only; rw [hx]⟩
  have hs : ({ f { s.self with checker := c } with
      pc := (f { s.self with checker := c }).pc + BitVec.ofNat 64 o.bytes } : Hart).settledRegs = regs := by
    rw [← hr c]
    exact Hart.settledRegs_congr _ _ rfl rfl rfl
  rw [hs] at this
  rw [← hpc]
  exact this

/-- A body that is done, whatever it did to the hart and its tile, retires (R25, R335). -/
theorem State.run_to {s t : State} {o : Op} {body : State → Act} {k : Tile} (hc : s.canIssue o)
    (hb : body (s.openBlock s.cur) = .done t) (ht : s.acting.hartAndTile t s.cur k) (hk : k.lag = (s.acting.tile (hartVt s.cur)).lag)
    (csr : Csrs) (hcsr : (t.hart s.cur).csr = csr) (hi : csr.instret = s.self.csr.instret)
    (he : csr.equotaUsed = s.self.csr.equotaUsed)
    (hy : ∃ c, t.hart s.cur = { s.self with
      regs := (t.hart s.cur).regs, fixed := (t.hart s.cur).fixed, board := (t.hart s.cur).board, csr := (t.hart s.cur).csr
      checker := c }) :
    ∃ u, s.run o body = .next u
      ∧ s.retiresOn u k o.sc (s.self.pc + BitVec.ofNat 64 o.bytes) (t.hart s.cur).settledRegs csr := by
  refine ⟨_, State.run_done hc hb, ?_⟩
  obtain ⟨c, hy⟩ := hy
  have hpc : (t.hart s.cur).pc = s.self.pc := by rw [hy]
  have hou : s.acting.hartAndTile (t.onHart s.cur fun y => { y with pc := y.pc + BitVec.ofNat 64 o.bytes }) s.cur k :=
    State.hartAndTile_trans ht (State.onlyHart_onHart _ _ _)
  have := State.retire_retires (o := o) (taken := false) hou hk (State.hart_onHart _ _ _) csr hcsr hi he
    ⟨c, by dsimp only; rw [hy]⟩
  have hs : ({ t.hart s.cur with pc := (t.hart s.cur).pc + BitVec.ofNat 64 o.bytes } : Hart).settledRegs
      = (t.hart s.cur).settledRegs := Hart.settledRegs_congr _ _ rfl rfl rfl
  rw [hs] at this
  rw [← hpc]
  exact this

/-- A body that jumps, having changed only registers, results and CSRs of its hart: results in flight are written (R26) and a
taken transfer leaves its trace record (R354). -/
theorem State.run_jump {s : State} {o : Op} {body : State → Act} (hc : s.canIssue o) (f : Hart → Hart) (target : Word)
    (hb : body (s.openBlock s.cur) = .jump ((s.openBlock s.cur).onHart s.cur f) target)
    (hf : ∀ x, f x = { x with regs := (f x).regs, fixed := (f x).fixed, board := (f x).board, csr := (f x).csr })
    (regs : Regs) (hr : ∀ c, (f { s.self with checker := c }).settledRegs = regs)
    (csr : Csrs) (hcsr : ∀ c, (f { s.self with checker := c }).csr = csr) (hi : csr.instret = s.self.csr.instret)
    (he : csr.equotaUsed = s.self.csr.equotaUsed) :
    ∃ t, s.run o body = .next (t.trace s.cur 1 target) ∧ s.retires t o.sc target regs csr := by
  refine ⟨_, State.run_jumped hc hb, ?_⟩
  obtain ⟨c, hoc⟩ := State.afterLookup_hart s.acting_lookup
  rw [State.acting] at hoc
  generalize hu : ((s.openBlock s.cur).onHart s.cur f).onHart s.cur
    (fun y => { y.drain with pc := target }) = u
  have hou : s.acting.onlyHart u s.cur := by
    rw [← hu]
    exact State.onlyHart_trans (State.onlyHart_onHart _ _ _) (State.onlyHart_onHart _ _ _)
  have hut : u.hart s.cur = { (f { s.self with checker := c }).drain with pc := target } := by
    rw [← hu, State.hart_onHart, State.hart_onHart, hoc]; rfl
  have hx := hf { s.self with checker := c }
  have hd := Hart.drain_frame (f { s.self with checker := c })
  have hs : ({ (f { s.self with checker := c }).drain with pc := target } : Hart).settledRegs = regs := by
    rw [← hr c]
    exact (Hart.settledRegs_congr _ (f { s.self with checker := c }).drain rfl rfl rfl).trans (Hart.settledRegs_drain _)
  have := State.retire_retires (o := o) (taken := true) hou rfl hut csr (by rw [hd]; exact hcsr c) hi he
    ⟨c, by dsimp only; rw [hd, hx]⟩
  rw [hs] at this
  exact this

/-! ### Operands and results -/

theorem Hart.age_read (n : Nat) (x : Hart) (r : Reg) (h : ∀ p ∈ x.fixed, p.dst ≠ r) :
    (x.age n).regs.read r = x.regs.read r := by
  induction n generalizing x with
  | zero => rfl
  | succ n ih =>
    rw [Hart.age_succ, ih]
    · simp only [Hart.ageOnce]
      apply deliver_read
      intro q hq
      simp only [List.mem_reverse, List.mem_filter, List.mem_map] at hq
      obtain ⟨⟨o, ho, rfl⟩, -⟩ := hq
      exact h o ho
    · intro q hq
      simp only [Hart.ageOnce, List.mem_filter, List.mem_map] at hq
      obtain ⟨⟨o, ho, rfl⟩, -⟩ := hq
      exact h o ho

theorem foldl_board_read (l : List BoardResult) (r : Regs) (d : Reg) (h : ∀ b ∈ l, b.dst ≠ d) :
    (l.foldl (fun r b => r.write b.dst b.val) r).read d = r.read d := by
  induction l generalizing r with
  | nil => rfl
  | cons b l ih =>
    rw [List.foldl_cons, ih _ fun c hc => h c (by simp [hc]), Regs.read_write_ne _ _ (h b (by simp))]

theorem foldl_board_write (l : List BoardResult) (r : Regs) (d : Reg) (v : VReg) (h : ∀ b ∈ l, b.dst ≠ d) :
    l.foldl (fun r b => r.write b.dst b.val) (r.write d v) = (l.foldl (fun r b => r.write b.dst b.val) r).write d v := by
  induction l generalizing r with
  | nil => rfl
  | cons b l ih =>
    rw [List.foldl_cons, List.foldl_cons, ← ih _ fun c hc => h c (by simp [hc]), Regs.write_comm _ _ _ (h b (by simp)).symm]

theorem State.board_ne {s : State} {regs : List Reg} (h : s.mustWait s.cur regs = false) {r : Reg} (hr : r ∈ regs)
    (hreal : r.real = true) : ∀ b ∈ s.self.board, b.dst ≠ r := by
  intro b hb e
  simp only [State.mustWait, List.any_eq_false, Bool.and_eq_true, List.contains_eq_mem, decide_eq_true_eq, not_and] at h
  apply h r hr hreal
  unfold State.pendingRegs
  simp only [List.append_assoc, List.mem_append, List.mem_map]
  exact Or.inl ⟨b, hb, e⟩

theorem Reg.eq_g0 {r : Reg} (h : r.real = false) : r = .g 0 := by
  cases r <;> simp [Reg.real] at h
  exact congrArg Reg.g h

theorem Regs.write_g0 (r : Regs) (v : VReg) : r.write (.g 0) v = r := rfl
theorem Regs.read_g0 (r : Regs) : r.read (.g 0) = 0 := rfl

/-- What an instruction that can issue reads is what its operands end up holding (R25, R28). -/
theorem State.read_settled {s : State} {o : Op} (hc : s.canIssue o) {r : Reg} (hr : r ∈ o.reads) :
    s.self.read r = s.self.settledRegs.read r := by
  obtain ⟨-, h2, h3, -⟩ := hc
  have hfix : ∀ p ∈ s.self.fixed, p.dst ≠ r := fun p hp e => (h2 p hp).1 (e ▸ hr)
  have hread : s.self.read r = s.self.regs.read r := by
    unfold Hart.read Hart.inFlight
    have : s.self.fixed.reverse.find? (fun p => p.dst == r && decide (0 < p.left)) = none := by
      rw [List.find?_eq_none]
      intro p hp
      simp [hfix p (by simpa using hp)]
    rw [this]
  rw [hread]
  have hd : s.self.drain.regs.read r = s.self.regs.read r := Hart.age_read _ _ _ hfix
  cases hreal : r.real
  · rw [Reg.eq_g0 hreal]; rfl
  · rw [Hart.settledRegs, foldl_board_read _ _ _ (State.board_ne h3 (List.mem_append_left _ hr) hreal), hd]

theorem State.read_openBlock (s : State) (r : Reg) : (s.openBlock s.cur).self.read r = s.self.read r := by
  obtain ⟨c, hc⟩ := State.self_openBlock s
  rw [hc]; rfl

theorem State.cur_openBlock (s : State) (h : Nat) : (s.openBlock h).cur = s.cur := by
  exact (State.afterLookup_rest (State.openBlock_lookup s h)).1

/-- What a fixed-latency result leaves in the registers (R25). -/
theorem State.settled_start {s : State} {o : Op} (d : Reg) (v : Word) (n : Nat) (hl : o.latency = n + 1)
    (hw : o.writes = [d]) (hc : s.canIssue o) (c : Checker) :
    (({ s.self with checker := c } : Hart).start d v o.latency).settledRegs
      = s.self.settledRegs.write d (v.zeroExtend 512) := by
  obtain ⟨-, h2, h3, -⟩ := hc
  have hdr : ({ s.self with checker := c } : Hart).drain.regs = s.self.drain.regs := Hart.drain_congr _ _ rfl rfl
  cases hreal : d.real
  · have hx : ({ s.self with checker := c } : Hart).start d v o.latency = { s.self with checker := c } := by
      simp [Hart.start, hreal]
    rw [hx, Reg.eq_g0 hreal, Regs.write_g0]
    unfold Hart.settledRegs
    rw [hdr]
  unfold Hart.settledRegs Hart.start
  rw [if_pos hreal, Hart.drain_start n _ _ hl]
  · dsimp only
    rw [hdr, foldl_board_write]
    exact State.board_ne h3 (by simp [hw]) hreal
  · intro q hq e
    have := (h2 q hq).2 (by simp [hw, e])
    rw [hl] at this
    rcases this with h | h
    · exact absurd h (by omega)
    · rwa [hl]

/-- What a scoreboarded result leaves in the registers (R28). -/
theorem Hart.settled_post (x y : Hart) (d : Reg) (v : VReg) (hr : x.regs = y.regs) (hf : x.fixed = y.fixed)
    (hb : x.board = y.board) : (x.post d v).settledRegs = y.settledRegs.write d v := by
  have hdr := Hart.drain_congr _ _ hr hf
  unfold Hart.post Hart.settledRegs
  cases hreal : d.real
  · rw [Reg.eq_g0 hreal]; simp only [Bool.false_eq_true, if_false]; rw [hdr, hb]; rfl
  · simp only [if_true, List.foldl_append, List.foldl_cons, List.foldl_nil]
    congr 2
    exact Hart.drain_congr _ _ hr hf

/-- A fixed-latency instruction (R25): its result is what its register ends up holding. -/
theorem State.run_start {s : State} {o : Op} {body : State → Act} (d : Reg) (v : Word) (n : Nat) (hl : o.latency = n + 1)
    (hw : o.writes = [d]) (hc : s.canIssue o)
    (hb : body (s.openBlock s.cur) = .done ((s.openBlock s.cur).onHart s.cur fun x => x.start d v o.latency)) :
    ∃ t, s.run o body = .next t ∧ s.retires t o.sc (s.self.pc + BitVec.ofNat 64 o.bytes)
      (s.self.settledRegs.write d (v.zeroExtend 512)) s.self.csr :=
  State.run_regs hc (fun x => x.start d v o.latency) hb (fun x => by unfold Hart.start; split <;> rfl) _
    (State.settled_start d v n hl hw hc) _ (fun _ => by unfold Hart.start; split <;> rfl) rfl rfl

/-- A scoreboarded instruction (R28): its result is what its register ends up holding. -/
theorem State.run_post {s : State} {o : Op} {body : State → Act} (d : Reg) (v : VReg) (hc : s.canIssue o)
    (hb : body (s.openBlock s.cur) = .done ((s.openBlock s.cur).onHart s.cur fun x => x.post d v)) :
    ∃ t, s.run o body = .next t ∧ s.retires t o.sc (s.self.pc + BitVec.ofNat 64 o.bytes)
      (s.self.settledRegs.write d v) s.self.csr :=
  State.run_regs hc (fun x => x.post d v) hb (fun x => by unfold Hart.post; split <;> rfl) _
    (fun _ => Hart.settled_post _ _ _ _ rfl rfl rfl) _ (fun _ => by unfold Hart.post; split <;> rfl) rfl rfl

/-! ### Any effect -/

/-- Retirement of what an instruction has left. -/
theorem State.retire_from {s u : State} {o : Op} {taken : Bool} (pc : Word) (f : Hart → Hart)
    (hf : f (u.hart s.cur) = { u.hart s.cur with
      regs := (f (u.hart s.cur)).regs, fixed := (f (u.hart s.cur)).fixed, pc := pc })
    (hr : (f (u.hart s.cur)).settledRegs = (u.hart s.cur).settledRegs) :
    s.retiresFrom u ((u.onHart s.cur f).retire s.cur o s.self.mode taken) o.sc pc := by
  obtain ⟨c', hr1, hr2⟩ := State.retire_frame (u.onHart s.cur f) o taken s.cur s.self.mode
  have hu := State.onlyHart_onHart u s.cur f
  generalize (u.onHart s.cur f).retire s.cur o s.self.mode taken = t at hr1 hr2
  rw [State.hart_onHart] at hr2
  have hw : (u.onHart s.cur f).word = u.word := rfl
  have hc : (u.onHart s.cur f).cycle (hartVt s.cur) = u.cycle (hartVt s.cur) := rfl
  rw [hw, hc] at hr2
  have hfr := Hart.retired_frame ({ f (u.hart s.cur) with checker := c' }) (s.self.mode == .user)
    (Config.energyOfWord u.word) (u.cycle (hartVt s.cur) + o.sc.toNat + 1) (o.sc.toNat + 1)
  rw [← hr2] at hfr
  obtain ⟨hf1, hf2⟩ := hfr
  unfold State.retiresFrom
  generalize t.hart s.cur = z at *
  have hreg : z.settledRegs = (u.hart s.cur).settledRegs :=
    (hf1.trans (Hart.settledRegs_congr _ (f (u.hart s.cur)) rfl rfl rfl)).trans hr
  refine ⟨hreg, ?_, ?_, ?_, ?_, State.onlyHart_trans hu hr1⟩
  · rw [hf2, hf]
  · rw [hf2, hf]; cases s.self.mode <;> rfl
  · rw [hf2]
  · rw [hf2, hf]

/-- An instruction that can issue and whose body is done has that effect and retires (R25, R28, R52). -/
theorem State.run_does {s u : State} {o : Op} {body : State → Act} (hc : s.canIssue o) (hb : body s.acting = .done u)
    (h4 : o.bytes = 4) : s.does (s.run o body) o.sc u := by
  refine ⟨_, State.run_done hc hb, ?_⟩
  have := State.retire_from (s := s) (u := u) (o := o) (taken := false) ((u.hart s.cur).pc + 4)
    (fun y => { y with pc := y.pc + BitVec.ofNat 64 o.bytes }) (by rw [h4]; rfl)
    (Hart.settledRegs_congr _ _ rfl rfl rfl)
  exact this

/-! ### Vector instructions -/

/-- The conditions of issue for more registers are those for fewer. -/
theorem State.canIssue_mono {s : State} {o p : Op} (hc : s.canIssue o) (hl : p.low.rank ≤ o.low.rank)
    (hr : ∀ r ∈ p.reads, r ∈ o.reads) (hw : ∀ r ∈ p.writes, r ∈ o.writes) (ht : p.latency = o.latency)
    (hx : p.reach = true → o.reach = true) : s.canIssue p := by
  obtain ⟨h1, h2, h3, h4⟩ := hc
  refine ⟨Nat.le_trans hl h1, fun q hq => ⟨fun h => (h2 q hq).1 (hr _ h), fun h => ?_⟩, ?_, fun h => h4 (hx h)⟩
  · rw [ht]; exact (h2 q hq).2 (hw _ h)
  · simp only [State.mustWait, List.any_eq_false, List.mem_append] at h3 ⊢
    exact fun r h => h3 r (h.imp (hr r) (hw r))

/-- A hart that has its grant does not begin to wait for another; harts that are denied issue leave (R166). -/
theorem State.wantLane_granted {u : State} {h occ : Nat} (hg : (u.tile (hartVt h)).laneGrants.contains h = true) :
    u.hartAndTile (u.wantLane h occ) h ((u.leaveLanes (hartVt h)).tile (hartVt h)) ∧ (u.wantLane h occ).hart h = u.hart h
      ∧ (u.wantLane h occ).tile (hartVt h) = (u.leaveLanes (hartVt h)).tile (hartVt h) := by
  have hl : ((u.leaveLanes (hartVt h)).tile (hartVt h)).laneGrants.contains h = true := by
    unfold State.leaveLanes
    rw [State.tile_onTile]
    exact hg
  have ht : (u.wantLane h occ).tile (hartVt h) = (u.leaveLanes (hartVt h)).tile (hartVt h) := by
    unfold State.wantLane
    rw [State.tile_onTile]
    simp only [hl, Bool.true_or, if_true]
  refine ⟨⟨rfl, fun _ => rfl, fun _ _ => rfl, fun v n => ?_, ?_⟩, rfl, ht⟩
  · unfold State.wantLane State.leaveLanes
    rw [State.tile_onTile_ne _ _ n, State.tile_onTile_ne _ _ n]
  · rw [ht]

/-- A vector instruction that writes one register, once its lane group is bound (R165-R169). -/
theorem State.vec_post {s : State} {o : VecOp} {body : Nat → Word → State → State} (d : Reg) (v : VReg)
    (hc : s.canIssue { sc := o.sc, reads := o.reads ++ maskReg o.k, fields := some o.reads, writes := o.dst
                       reach := o.reach })
    (hl : s.hasLane) (ht : o.legal s.vtype = true)
    (hb : ∀ u, u.cur = s.cur → (∃ c, u.self = { s.self with checker := c }) →
      body u.vtype (u.self.mask o.k) u = u.onHart s.cur fun x => x.post d v) :
    ∃ t, s.vec o body = .next t
      ∧ s.retiresOn t s.laneTile o.sc (s.self.pc + 4) (s.self.settledRegs.write d v) s.self.csr := by
  obtain ⟨c, hoc⟩ := State.afterLookup_hart s.acting_lookup
  obtain ⟨hcur, -, hpr, -, -, hti⟩ := State.afterLookup_rest s.acting_lookup
  have hact : s.openBlock s.cur = s.acting := rfl
  have hself : s.acting.self = { s.self with checker := c } := by
    unfold State.self
    rw [hcur]
    exact hoc
  have hvt : s.acting.vtype = s.vtype := by
    unfold State.vtype
    rw [hself]
  -- the state once the lane group is used, and what it has in common with the one in which the instruction acts
  obtain ⟨w, hw, hwc, hwo, hwk⟩ : ∃ w : State,
      (∀ k, s.acting.withLane (o.occ s.vtype) k = k w) ∧ w.cur = s.cur
        ∧ w.hart s.cur = { s.self with checker := c } ∧ s.acting.hartAndTile w s.cur s.laneTile := by
    unfold State.withLane
    rw [hcur]
    rcases hl with hs | ⟨hp, hg⟩
    · refine ⟨s.acting, fun k => by simp [hs], hcur, hoc, ?_⟩
      have : s.laneTile = s.acting.tile (hartVt s.cur) := by simp [State.laneTile, hs]
      rw [this]
      exact State.hartAndTile_refl _ _
    · cases hs : isSup s.cur
      · have hp' : s.acting.prompt = false := hpr.trans hp
        have htile : (s.acting.tile (hartVt s.cur)).laneGrants = (s.tile (hartVt s.cur)).laneGrants := by
          have h := congrArg Tile.laneGrants (hti (hartVt s.cur))
          exact h
        obtain ⟨h1, h2, h3⟩ := State.wantLane_granted (u := s.acting) (h := s.cur) (occ := o.occ s.vtype)
          (by rw [htile]; exact hg)
        have hp2 : (s.acting.wantLane s.cur (o.occ s.vtype)).prompt = false := by
          have h := congrArg State.prompt h1.1
          exact h.trans hp'
        have hc2 : (s.acting.wantLane s.cur (o.occ s.vtype)).cur = s.cur := by
          have h := congrArg State.cur h1.1
          exact h.trans hcur
        have hgr : ((s.acting.leaveLanes (hartVt s.cur)).tile (hartVt s.cur)).laneGrants
            = (s.tile (hartVt s.cur)).laneGrants := by
          unfold State.leaveLanes
          rw [State.tile_onTile]
          exact htile
        refine ⟨(s.acting.wantLane s.cur (o.occ s.vtype)).onTile (hartVt s.cur) fun t =>
          { t with laneGrants := t.laneGrants.filter (· != s.cur) }, fun k => ?_, hc2, h2.trans hoc, ?_⟩
        · simp only [hp2, Bool.false_eq_true, if_false, hc2, h3, hgr, hg, if_true]
        · obtain ⟨b1, b0, b2, b3, b4⟩ := h1
          refine ⟨?_, b0, b2, fun v hv => ?_, ?_⟩
          · have := congrArg (fun t : State => { t with tiles := ((s.acting.wantLane s.cur
              (o.occ s.vtype)).onTile (hartVt s.cur) fun t =>
                { t with laneGrants := t.laneGrants.filter (· != s.cur) }).tiles }) b1
            exact this
          · rw [State.tile_onTile_ne _ _ hv]
            exact b3 v hv
          · rw [State.tile_onTile, h3]
            simp [State.laneTile, hs]
      · refine ⟨s.acting, fun k => by simp, hcur, hoc, ?_⟩
        have : s.laneTile = s.acting.tile (hartVt s.cur) := by simp [State.laneTile, hs]
        rw [this]
        exact State.hartAndTile_refl _ _
  have hws : w.self = { s.self with checker := c } := by
    unfold State.self
    rw [hwc]
    exact hwo
  have hk : s.laneTile.lag = (s.acting.tile (hartVt s.cur)).lag := by
    unfold State.laneTile
    split
    · rfl
    · dsimp only
      unfold State.leaveLanes
      rw [State.tile_onTile]
  unfold State.vec
  have := State.run_to (body := fun s =>
      if !o.legal s.vtype then s.illegal
      else s.withLane (o.occ s.vtype) fun s => .done (body s.vtype (s.self.mask o.k) s)) hc
    (t := w.onHart s.cur fun x => x.post d v) (k := s.laneTile)
    (by simp only [hact, hvt, ht, Bool.not_true, Bool.false_eq_true, if_false]
        rw [hw, hb w hwc ⟨c, hws⟩])
    (State.hartAndTile_trans hwk (State.onlyHart_onHart _ _ _)) hk s.self.csr
    (by rw [State.hart_onHart, hwo]; unfold Hart.post; split <;> rfl) rfl rfl
    ⟨c, by rw [State.hart_onHart, hwo]; unfold Hart.post; split <;> rfl⟩
  rw [State.hart_onHart, hwo] at this
  have he := Hart.settled_post { s.self with checker := c } s.self d v rfl rfl rfl
  dsimp only at this he
  rw [he] at this
  exact this

end Sys2Proof.Machine
end

