-- ==== Sys2Proof/Tests/Slice0.lean ====
section
/-! SUPPORT. Tests of single steps against words and values that the spec gives, and for each statement with hypotheses states
and operands that meet them. -/

open Sys2Proof Sys2Proof.Machine

namespace Sys2Proof.Tests

set_option maxRecDepth 100000
set_option Elab.async false

/-! ### Ill-formed terms -/

theorem test_ill_formed_scope : Instr.illFormed (.ldAcq 0 4 5 5 3) = some .scopeCode := by decide +kernel
theorem test_ill_formed_kind : Instr.illFormed (.fence 0 6 0) = some .kindCode := by decide +kernel
theorem test_ill_formed_unused_field : Instr.illFormed (.send 0 24 4 5 0 0 0) = some .unusedField := by decide +kernel
theorem test_ill_formed_card_register : Instr.illFormed (.submit 0 29) = some .cardRegister := by decide +kernel
theorem test_ill_formed_conversion : Instr.illFormed (.fcvt 0 1 2 0x16) = some .conversionCode := by decide +kernel
theorem test_ill_formed_selector_mask : Instr.illFormed (.vsel 0 1 2 3 0) = some .selectorMask := by decide +kernel
theorem test_ill_formed_type : Instr.illFormed (.scld 0 2 1 3) = some .typeCode := by decide +kernel
theorem test_ill_formed_scale_register : Instr.illFormed (.mmaE44 0 0 1 2 31 0) = some .scaleRegister := by decide +kernel
theorem test_ill_formed_agent : Instr.illFormed (.dispatch 12384) = some .noSuchAgent := by decide +kernel

/-! ### Words from the encoding tables -/

theorem test_words_of_opcode_01 :
  ∀ e ∈ ([(0xA066F580, .add 5 19 15 11), (0xA066F581, .sub 5 19 15 11), (0xA066F582, .and 5 19 15 11)
      , (0xA066F583, .or 5 19 15 11), (0xA066F584, .xor 5 19 15 11), (0xA066F585, .andn 5 19 15 11)
      , (0xA066F586, .orn 5 19 15 11), (0xA066F588, .sll 5 19 15 11), (0xA066F589, .srl 5 19 15 11)
      , (0xA066F58A, .sra 5 19 15 11), (0xA066F58B, .rol 5 19 15 11), (0xA066F58C, .ror 5 19 15 11)
      , (0xA066F590, .slt 5 19 15 11), (0xA066F591, .sltu 5 19 15 11), (0xA066F592, .seq 5 19 15 11)
      , (0xA066F593, .sne 5 19 15 11), (0xA066F594, .min 5 19 15 11), (0xA066F595, .max 5 19 15 11)
      , (0xA066F596, .minu 5 19 15 11), (0xA066F597, .maxu 5 19 15 11), (0xA066F018, .clz 5 19 15)
      , (0xA066F019, .ctz 5 19 15), (0xA066F01A, .popc 5 19 15), (0xA066F01B, .brev 5 19 15)
      , (0xA066F01C, .sextb 5 19 15), (0xA066F01D, .sexth 5 19 15), (0xA066F01E, .sextw 5 19 15)
      , (0xA066F01F, .zextw 5 19 15), (0xA066F5A3, .addsh 5 19 15 11 3)] : List (Word32 × Instr)),
      decode e.1 0 = .ok e.2 ∧ encode e.2 = e.1 := by
  decide +kernel

theorem test_words_of_opcode_02 :
  ∀ e ∈ ([(0xA0A6F580, .addw 5 19 15 11), (0xA0A6F581, .subw 5 19 15 11), (0xA0A6F588, .sllw 5 19 15 11)
      , (0xA0A6F589, .srlw 5 19 15 11), (0xA0A6F58A, .sraw 5 19 15 11), (0xA0A6F58B, .rolw 5 19 15 11)
      , (0xA0A6F58C, .rorw 5 19 15 11)] : List (Word32 × Instr)),
      decode e.1 0 = .ok e.2 ∧ encode e.2 = e.1 := by
  decide +kernel

theorem test_words_of_opcode_03 :
  ∀ e ∈ ([(0xA0E6F580, .mul 5 19 15 11), (0xA0E6F581, .mulhs 5 19 15 11), (0xA0E6F582, .mulhz 5 19 15 11)
      , (0xA0E6F583, .mulhsz 5 19 15 11), (0xA0E6F584, .div 5 19 15 11), (0xA0E6F585, .divu 5 19 15 11)
      , (0xA0E6F586, .rem 5 19 15 11), (0xA0E6F587, .remu 5 19 15 11), (0xA0E6F588, .mulw 5 19 15 11)
      , (0xA0E6F58C, .divw 5 19 15 11), (0xA0E6F58D, .divuw 5 19 15 11), (0xA0E6F58E, .remw 5 19 15 11)
      , (0xA0E6F58F, .remuw 5 19 15 11)] : List (Word32 × Instr)),
      decode e.1 0 = .ok e.2 ∧ encode e.2 = e.1 := by
  decide +kernel

theorem test_words_of_opcode_04 :
  ∀ e ∈ ([(0xA126F06B, .addi 5 19 15 107)] : List (Word32 × Instr)),
      decode e.1 0 = .ok e.2 ∧ encode e.2 = e.1 := by
  decide +kernel

theorem test_words_of_opcode_05 :
  ∀ e ∈ ([(0xA166F06B, .andi 5 19 15 107)] : List (Word32 × Instr)),
      decode e.1 0 = .ok e.2 ∧ encode e.2 = e.1 := by
  decide +kernel

theorem test_words_of_opcode_06 :
  ∀ e ∈ ([(0xA1A6F06B, .ori 5 19 15 107)] : List (Word32 × Instr)),
      decode e.1 0 = .ok e.2 ∧ encode e.2 = e.1 := by
  decide +kernel

theorem test_words_of_opcode_07 :
  ∀ e ∈ ([(0xA1E6F06B, .xori 5 19 15 107)] : List (Word32 × Instr)),
      decode e.1 0 = .ok e.2 ∧ encode e.2 = e.1 := by
  decide +kernel

theorem test_words_of_opcode_08 :
  ∀ e ∈ ([(0xA226F06B, .slti 5 19 15 107)] : List (Word32 × Instr)),
      decode e.1 0 = .ok e.2 ∧ encode e.2 = e.1 := by
  decide +kernel

theorem test_words_of_opcode_09 :
  ∀ e ∈ ([(0xA266F06B, .sltiu 5 19 15 107)] : List (Word32 × Instr)),
      decode e.1 0 = .ok e.2 ∧ encode e.2 = e.1 := by
  decide +kernel

theorem test_words_of_opcode_0a :
  ∀ e ∈ ([(0xA2A6F02B, .slli 5 19 15 43), (0xA2A6F06B, .srli 5 19 15 43), (0xA2A6F0AB, .srai 5 19 15 43)
      , (0xA2A6F0EB, .rori 5 19 15 43), (0xA2A6F10B, .slliw 5 19 15 11), (0xA2A6F14B, .srliw 5 19 15 11)
      , (0xA2A6F18B, .sraiw 5 19 15 11), (0xA2A6F1CB, .roriw 5 19 15 11)] : List (Word32 × Instr)),
      decode e.1 0 = .ok e.2 ∧ encode e.2 = e.1 := by
  decide +kernel

theorem test_words_of_opcode_0b :
  ∀ e ∈ ([(0xA2E6F06B, .addiw 5 19 15 107)] : List (Word32 × Instr)),
      decode e.1 0 = .ok e.2 ∧ encode e.2 = e.1 := by
  decide +kernel

theorem test_words_of_opcode_0c :
  ∀ e ∈ ([(0xA326004F, .lui 5 19 79)] : List (Word32 × Instr)),
      decode e.1 0 = .ok e.2 ∧ encode e.2 = e.1 := by
  decide +kernel

theorem test_words_of_opcode_0d :
  ∀ e ∈ ([(0xA366004F, .auipc 5 19 79)] : List (Word32 × Instr)),
      decode e.1 0 = .ok e.2 ∧ encode e.2 = e.1 := by
  decide +kernel

theorem test_words_of_opcode_10 :
  ∀ e ∈ ([(0xA426F06B, .beq 5 19 15 107)] : List (Word32 × Instr)),
      decode e.1 0 = .ok e.2 ∧ encode e.2 = e.1 := by
  decide +kernel

theorem test_words_of_opcode_11 :
  ∀ e ∈ ([(0xA466F06B, .bne 5 19 15 107)] : List (Word32 × Instr)),
      decode e.1 0 = .ok e.2 ∧ encode e.2 = e.1 := by
  decide +kernel

theorem test_words_of_opcode_12 :
  ∀ e ∈ ([(0xA4A6F06B, .blt 5 19 15 107)] : List (Word32 × Instr)),
      decode e.1 0 = .ok e.2 ∧ encode e.2 = e.1 := by
  decide +kernel

theorem test_words_of_opcode_13 :
  ∀ e ∈ ([(0xA4E6F06B, .bge 5 19 15 107)] : List (Word32 × Instr)),
      decode e.1 0 = .ok e.2 ∧ encode e.2 = e.1 := by
  decide +kernel

theorem test_words_of_opcode_14 :
  ∀ e ∈ ([(0xA526F06B, .bltu 5 19 15 107)] : List (Word32 × Instr)),
      decode e.1 0 = .ok e.2 ∧ encode e.2 = e.1 := by
  decide +kernel

theorem test_words_of_opcode_15 :
  ∀ e ∈ ([(0xA566F06B, .bgeu 5 19 15 107)] : List (Word32 × Instr)),
      decode e.1 0 = .ok e.2 ∧ encode e.2 = e.1 := by
  decide +kernel

theorem test_words_of_opcode_16 :
  ∀ e ∈ ([(0xA5A6004F, .jal 5 19 79)] : List (Word32 × Instr)),
      decode e.1 0 = .ok e.2 ∧ encode e.2 = e.1 := by
  decide +kernel

theorem test_words_of_opcode_17 :
  ∀ e ∈ ([(0xA5E6F06B, .jalr 5 19 15 107)] : List (Word32 × Instr)),
      decode e.1 0 = .ok e.2 ∧ encode e.2 = e.1 := by
  decide +kernel

theorem test_words_of_opcode_18 :
  ∀ e ∈ ([(0xA626F06B, .ldb 5 19 15 107)] : List (Word32 × Instr)),
      decode e.1 0 = .ok e.2 ∧ encode e.2 = e.1 := by
  decide +kernel

theorem test_words_of_opcode_19 :
  ∀ e ∈ ([(0xA666F06B, .ldh 5 19 15 107)] : List (Word32 × Instr)),
      decode e.1 0 = .ok e.2 ∧ encode e.2 = e.1 := by
  decide +kernel

theorem test_words_of_opcode_1a :
  ∀ e ∈ ([(0xA6A6F06B, .ldw 5 19 15 107)] : List (Word32 × Instr)),
      decode e.1 0 = .ok e.2 ∧ encode e.2 = e.1 := by
  decide +kernel

theorem test_words_of_opcode_1b :
  ∀ e ∈ ([(0xA6E6F06B, .ldd 5 19 15 107)] : List (Word32 × Instr)),
      decode e.1 0 = .ok e.2 ∧ encode e.2 = e.1 := by
  decide +kernel

theorem test_words_of_opcode_1c :
  ∀ e ∈ ([(0xA726F06B, .ldbz 5 19 15 107)] : List (Word32 × Instr)),
      decode e.1 0 = .ok e.2 ∧ encode e.2 = e.1 := by
  decide +kernel

theorem test_words_of_opcode_1d :
  ∀ e ∈ ([(0xA766F06B, .ldhz 5 19 15 107)] : List (Word32 × Instr)),
      decode e.1 0 = .ok e.2 ∧ encode e.2 = e.1 := by
  decide +kernel

theorem test_words_of_opcode_1e :
  ∀ e ∈ ([(0xA7A6F06B, .ldwz 5 19 15 107)] : List (Word32 × Instr)),
      decode e.1 0 = .ok e.2 ∧ encode e.2 = e.1 := by
  decide +kernel

theorem test_words_of_opcode_20 :
  ∀ e ∈ ([(0xA826F06B, .stb 5 19 15 107)] : List (Word32 × Instr)),
      decode e.1 0 = .ok e.2 ∧ encode e.2 = e.1 := by
  decide +kernel

theorem test_words_of_opcode_21 :
  ∀ e ∈ ([(0xA866F06B, .sth 5 19 15 107)] : List (Word32 × Instr)),
      decode e.1 0 = .ok e.2 ∧ encode e.2 = e.1 := by
  decide +kernel

theorem test_words_of_opcode_22 :
  ∀ e ∈ ([(0xA8A6F06B, .stw 5 19 15 107)] : List (Word32 × Instr)),
      decode e.1 0 = .ok e.2 ∧ encode e.2 = e.1 := by
  decide +kernel

theorem test_words_of_opcode_23 :
  ∀ e ∈ ([(0xA8E6F06B, .std 5 19 15 107)] : List (Word32 × Instr)),
      decode e.1 0 = .ok e.2 ∧ encode e.2 = e.1 := by
  decide +kernel

theorem test_words_of_opcode_24 :
  ∀ e ∈ ([(0xA926F06B, .fldw 5 19 15 107)] : List (Word32 × Instr)),
      decode e.1 0 = .ok e.2 ∧ encode e.2 = e.1 := by
  decide +kernel

theorem test_words_of_opcode_25 :
  ∀ e ∈ ([(0xA966F06B, .fldd 5 19 15 107)] : List (Word32 × Instr)),
      decode e.1 0 = .ok e.2 ∧ encode e.2 = e.1 := by
  decide +kernel

theorem test_words_of_opcode_26 :
  ∀ e ∈ ([(0xA9A6F06B, .fstw 5 19 15 107)] : List (Word32 × Instr)),
      decode e.1 0 = .ok e.2 ∧ encode e.2 = e.1 := by
  decide +kernel

theorem test_words_of_opcode_27 :
  ∀ e ∈ ([(0xA9E6F06B, .fstd 5 19 15 107)] : List (Word32 × Instr)),
      decode e.1 0 = .ok e.2 ∧ encode e.2 = e.1 := by
  decide +kernel

theorem test_words_of_opcode_28 :
  ∀ e ∈ ([(0xAA26F00F, .ldAcq 5 19 15 3 3), (0xAA0137AF, .stRel 5 19 15 3 3)] : List (Word32 × Instr)),
      decode e.1 0 = .ok e.2 ∧ encode e.2 = e.1 := by
  decide +kernel

theorem test_words_of_opcode_29 :
  ∀ e ∈ ([(0xAA413000, .setfull 5 19), (0xAA413001, .setempty 5 19), (0xAA66F002, .ldtake 5 19 15)
      , (0xAA413783, .stfill 5 19 15), (0xAA66F004, .festat 5 19 15)] : List (Word32 × Instr)),
      decode e.1 0 = .ok e.2 ∧ encode e.2 = e.1 := by
  decide +kernel

theorem test_words_of_opcode_2a :
  ∀ e ∈ ([(0xAAA6F588, .amoadd 5 19 15 11 1), (0xAAA6F589, .amomin 5 19 15 11 1), (0xAAA6F58A, .amomax 5 19 15 11 1)
      , (0xAAA6F58B, .amoand 5 19 15 11 1), (0xAAA6F58C, .amoor 5 19 15 11 1), (0xAAA6F58D, .amoxor 5 19 15 11 1)
      , (0xAAA6F58E, .amoswap 5 19 15 11 1), (0xAAA6F58F, .amocas 5 19 15 11 1)] : List (Word32 × Instr)),
      decode e.1 0 = .ok e.2 ∧ encode e.2 = e.1 := by
  decide +kernel

theorem test_words_of_opcode_2b :
  ∀ e ∈ ([(0xAAC13780, .accF32 5 19 15), (0xAAC13781, .accBf 5 19 15), (0xAAC13782, .accS32 5 19 15)
      , (0xAAC13783, .accS64 5 19 15), (0xAAC00010, .flushres 5), (0xAAE6F011, .tailstat 5 19 15)] : List (Word32 × Instr)),
      decode e.1 0 = .ok e.2 ∧ encode e.2 = e.1 := by
  decide +kernel

theorem test_words_of_opcode_30 :
  ∀ e ∈ ([(0xAC26F06B, .csrrw 5 19 15 107)] : List (Word32 × Instr)),
      decode e.1 0 = .ok e.2 ∧ encode e.2 = e.1 := by
  decide +kernel

theorem test_words_of_opcode_31 :
  ∀ e ∈ ([(0xAC66F06B, .csrrs 5 19 15 107)] : List (Word32 × Instr)),
      decode e.1 0 = .ok e.2 ∧ encode e.2 = e.1 := by
  decide +kernel

theorem test_words_of_opcode_32 :
  ∀ e ∈ ([(0xACA6F06B, .csrrc 5 19 15 107)] : List (Word32 × Instr)),
      decode e.1 0 = .ok e.2 ∧ encode e.2 = e.1 := by
  decide +kernel

theorem test_words_of_opcode_33 :
  ∀ e ∈ ([(0xACE6F06B, .csrrwi 5 19 15 107)] : List (Word32 × Instr)),
      decode e.1 0 = .ok e.2 ∧ encode e.2 = e.1 := by
  decide +kernel

theorem test_words_of_opcode_34 :
  ∀ e ∈ ([(0xAD26F06B, .csrrsi 5 19 15 107)] : List (Word32 × Instr)),
      decode e.1 0 = .ok e.2 ∧ encode e.2 = e.1 := by
  decide +kernel

theorem test_words_of_opcode_35 :
  ∀ e ∈ ([(0xAD66F06B, .csrrci 5 19 15 107)] : List (Word32 × Instr)),
      decode e.1 0 = .ok e.2 ∧ encode e.2 = e.1 := by
  decide +kernel

theorem test_words_of_opcode_36 :
  ∀ e ∈ ([(0xAD800000, .ecall 5), (0xAD800001, .ebreak 5), (0xAD800002, .uret 5), (0xAD800003, .kret 5)
      , (0xAD800004, .fret 5), (0xAD800005, .wfi 5), (0xAD800006, .fenceI 5), (0xAD813788, .tlbinv 5 19 15)
      , (0xAD800009, .savept 5), (0xAD80000A, .ckpt 5), (0xADA6000B, .tstamp 5 19)] : List (Word32 × Instr)),
      decode e.1 0 = .ok e.2 ∧ encode e.2 = e.1 := by
  decide +kernel

theorem test_words_of_opcode_37 :
  ∀ e ∈ ([(0xADC00023, .fence 5 4 3)] : List (Word32 × Instr)),
      decode e.1 0 = .ok e.2 ∧ encode e.2 = e.1 := by
  decide +kernel

theorem test_words_of_opcode_38 :
  ∀ e ∈ ([(0xAE26F587, .send 5 19 15 11 1 1 1), (0xAE013788, .spawn 5 19 15), (0xAE000010, .tend 5)
      , (0xAE000011, .tendX 5), (0xAE000012, .tyield 5), (0xAE26F018, .msgpeek 5 19 15)] : List (Word32 × Instr)),
      decode e.1 0 = .ok e.2 ∧ encode e.2 = e.1 := by
  decide +kernel

theorem test_words_of_opcode_39 :
  ∀ e ∈ ([(0xAE413780, .barinit 5 19 15), (0xAE413001, .barjoin 5 19), (0xAE413002, .bararrive 5 19)
      , (0xAE413003, .barwait 5 19), (0xAE413004, .bardrop 5 19), (0xAE413008, .lwatch 5 19)
      , (0xAE66F009, .lwait 5 19 15), (0xAE413790, .cntadd 5 19 15), (0xAE413791, .cntwait 5 19 15)
      , (0xAE66F012, .cntread 5 19 15), (0xAE413018, .cancel 5 19)] : List (Word32 × Instr)),
      decode e.1 0 = .ok e.2 ∧ encode e.2 = e.1 := by
  decide +kernel

theorem test_words_of_opcode_3a :
  ∀ e ∈ ([(0xAE815000, .submit 5 21), (0xAEA75001, .submitB 5 19 21), (0xAE813788, .tmap 5 19 15)
      , (0xAEA6F010, .waitany 5 19 15), (0xAE813011, .waitall 5 19), (0xAEA6F012, .fftag 5 19 15)
      , (0xAE813013, .clrtag 5 19), (0xAE813798, .mreq 5 19 15), (0xAE813799, .mbind 5 19 15)] : List (Word32 × Instr)),
      decode e.1 0 = .ok e.2 ∧ encode e.2 = e.1 := by
  decide +kernel

theorem test_words_of_opcode_40 :
  ∀ e ∈ ([(0xB026F581, .fadd 5 19 15 11 1), (0xB026F583, .fsub 5 19 15 11 1), (0xB026F585, .fmul 5 19 15 11 1)
      , (0xB026F587, .fdiv 5 19 15 11 1), (0xB026F009, .fsqrt 5 19 15 1), (0xB026F58B, .fmin 5 19 15 11 1)
      , (0xB026F58D, .fmax 5 19 15 11 1), (0xB026F58F, .fsgncpy 5 19 15 11 1), (0xB026F591, .fsgnneg 5 19 15 11 1)
      , (0xB026F593, .fsgnxor 5 19 15 11 1), (0xB026F595, .feq 5 19 15 11 1), (0xB026F597, .flt 5 19 15 11 1)
      , (0xB026F599, .fle 5 19 15 11 1), (0xB026F01B, .fclass 5 19 15 1), (0xB026FA9C, .fcvt 5 19 15 21)
      , (0xB026F01F, .fmvg 5 19 15 1), (0xB026F021, .fmvf 5 19 15 1)] : List (Word32 × Instr)),
      decode e.1 0 = .ok e.2 ∧ encode e.2 = e.1 := by
  decide +kernel

theorem test_words_of_opcode_41 :
  ∀ e ∈ ([(0xB066F59C, .fmaS 5 19 15 11 7), (0xB066F59D, .fmsS 5 19 15 11 7), (0xB066F59E, .fnmaS 5 19 15 11 7)
      , (0xB066F59F, .fnmsS 5 19 15 11 7)] : List (Word32 × Instr)),
      decode e.1 0 = .ok e.2 ∧ encode e.2 = e.1 := by
  decide +kernel

theorem test_words_of_opcode_42 :
  ∀ e ∈ ([(0xB0A6F59C, .fmaD 5 19 15 11 7), (0xB0A6F59D, .fmsD 5 19 15 11 7), (0xB0A6F59E, .fnmaD 5 19 15 11 7)
      , (0xB0A6F59F, .fnmsD 5 19 15 11 7)] : List (Word32 × Instr)),
      decode e.1 0 = .ok e.2 ∧ encode e.2 = e.1 := by
  decide +kernel

theorem test_words_of_opcode_50 :
  ∀ e ∈ ([(0xB426F5F0, .vadd 5 19 15 11 7), (0xB426F5F1, .vsub 5 19 15 11 7), (0xB426F5F2, .vmul 5 19 15 11 7)
      , (0xB426F5F3, .vmulh 5 19 15 11 7), (0xB426F5F4, .vmin 5 19 15 11 7), (0xB426F5F5, .vmax 5 19 15 11 7)
      , (0xB426F5F6, .vand 5 19 15 11 7), (0xB426F5F7, .vor 5 19 15 11 7), (0xB426F5F8, .vxor 5 19 15 11 7)
      , (0xB426F5F9, .vandn 5 19 15 11 7), (0xB426F5FA, .vsll 5 19 15 11 7), (0xB426F5FB, .vsrl 5 19 15 11 7)
      , (0xB426F5FC, .vsra 5 19 15 11 7), (0xB426F5FD, .vmac 5 19 15 11 7), (0xB426F5FE, .vadds 5 19 15 11 7)
      , (0xB426F5FF, .vsubs 5 19 15 11 7)] : List (Word32 × Instr)),
      decode e.1 0 = .ok e.2 ∧ encode e.2 = e.1 := by
  decide +kernel

theorem test_words_of_opcode_51 :
  ∀ e ∈ ([(0xB466F030, .vabs 5 19 15 3), (0xB466F031, .vneg 5 19 15 3), (0xB466F5F2, .vdiv 5 19 15 11 7)
      , (0xB466F5D3, .vsel 5 19 15 11 5)] : List (Word32 × Instr)),
      decode e.1 0 = .ok e.2 ∧ encode e.2 = e.1 := by
  decide +kernel

theorem test_words_of_opcode_52 :
  ∀ e ∈ ([(0xB486F5F3, .vcmp 5 3 15 11 7 3)] : List (Word32 × Instr)),
      decode e.1 0 = .ok e.2 ∧ encode e.2 = e.1 := by
  decide +kernel

theorem test_words_of_opcode_53 :
  ∀ e ∈ ([(0xB4E6F030, .vredAdd 5 19 15 3), (0xB4E6F031, .vredMax 5 19 15 3), (0xB4E6F032, .vredMin 5 19 15 3)
      , (0xB4E6F7B4, .vscanAddI 5 19 15 1 7 3), (0xB4E6F7B5, .vscanMaxI 5 19 15 1 7 3)
      , (0xB4E6F7B6, .vscanMinI 5 19 15 1 7 3), (0xB4E6F7B8, .vscanAddE 5 19 15 1 7 3)
      , (0xB4E6F7B9, .vscanMaxE 5 19 15 1 7 3), (0xB4E6F7BA, .vscanMinE 5 19 15 1 7 3)] : List (Word32 × Instr)),
      decode e.1 0 = .ok e.2 ∧ encode e.2 = e.1 := by
  decide +kernel

theorem test_words_of_opcode_54 :
  ∀ e ∈ ([(0xB526F5F0, .vperm 5 19 15 11 7), (0xB526F5F1, .vslideup 5 19 15 11 7), (0xB526F5F2, .vslidedn 5 19 15 11 7)
      , (0xB526F033, .vbcast 5 19 15 3), (0xB526F5F4, .vins 5 19 15 11 7), (0xB526F5F5, .vext 5 19 15 11 7)] : List (Word32 × Instr)),
      decode e.1 0 = .ok e.2 ∧ encode e.2 = e.1 := by
  decide +kernel

theorem test_words_of_opcode_55 :
  ∀ e ∈ ([(0xB566F5F0, .vcvtLo 5 19 15 11 7), (0xB566F5F1, .vcvtHi 5 19 15 11 7)] : List (Word32 × Instr)),
      decode e.1 0 = .ok e.2 ∧ encode e.2 = e.1 := by
  decide +kernel

theorem test_words_of_opcode_56 :
  ∀ e ∈ ([(0xB5A6F5F0, .vquantE43 5 19 15 11 7), (0xB5A6F5F1, .vquantE52 5 19 15 11 7)
      , (0xB5A6F5F2, .vquantS8 5 19 15 11 7), (0xB5A6F5F4, .vdeqE43 5 19 15 11 7), (0xB5A6F5F5, .vdeqE52 5 19 15 11 7)
      , (0xB5A6F5F6, .vdeqS8 5 19 15 11 7), (0xB586F038, .vamax 5 3 15 3), (0xB5A63609, .scld 5 19 3 12)] : List (Word32 × Instr)),
      decode e.1 0 = .ok e.2 ∧ encode e.2 = e.1 := by
  decide +kernel

theorem test_words_of_opcode_57 :
  ∀ e ∈ ([(0xB5E6F030, .vrcp 5 19 15 3), (0xB5E6F031, .vrsqrt 5 19 15 3), (0xB5E6F032, .vexp2 5 19 15 3)
      , (0xB5E6F033, .vlog2 5 19 15 3), (0xB5E6F034, .vsqrt 5 19 15 3)] : List (Word32 × Instr)),
      decode e.1 0 = .ok e.2 ∧ encode e.2 = e.1 := by
  decide +kernel

theorem test_words_of_opcode_58 :
  ∀ e ∈ ([(0xB626F687, .vld 5 19 15 3 135)] : List (Word32 × Instr)),
      decode e.1 0 = .ok e.2 ∧ encode e.2 = e.1 := by
  decide +kernel

theorem test_words_of_opcode_59 :
  ∀ e ∈ ([(0xB666F687, .vst 5 19 15 3 135)] : List (Word32 × Instr)),
      decode e.1 0 = .ok e.2 ∧ encode e.2 = e.1 := by
  decide +kernel

theorem test_words_of_opcode_5a :
  ∀ e ∈ ([(0xB6A6F5F0, .vlds 5 19 15 11 7), (0xB6A6F5F1, .vsts 5 19 15 11 7), (0xB6A6F5F2, .vgath 5 19 15 11 7)
      , (0xB6A6F5F3, .vscat 5 19 15 11 7), (0xB6A6F034, .vldb 5 19 15 3)] : List (Word32 × Instr)),
      decode e.1 0 = .ok e.2 ∧ encode e.2 = e.1 := by
  decide +kernel

theorem test_words_of_opcode_5b :
  ∀ e ∈ ([(0xB6C67180, .kand 5 3 7 3), (0xB6C67181, .kor 5 3 7 3), (0xB6C67182, .kxor 5 3 7 3)
      , (0xB6C67183, .kandn 5 3 7 3), (0xB6C67004, .knot 5 3 7), (0xB6E67005, .kpop 5 19 7), (0xB6E67006, .kffs 5 19 7)
      , (0xB6C6F007, .ksetn 5 3 15), (0xB6E67008, .kmovg 5 19 7), (0xB6C6F009, .kmovk 5 3 15)] : List (Word32 × Instr)),
      decode e.1 0 = .ok e.2 ∧ encode e.2 = e.1 := by
  decide +kernel

theorem test_words_of_opcode_5c :
  ∀ e ∈ ([(0xB726000E, .vsett 5 19 0 14)] : List (Word32 × Instr)),
      decode e.1 0 = .ok e.2 ∧ encode e.2 = e.1 := by
  decide +kernel

theorem test_words_of_opcode_60 :
  ∀ e ∈ ([(0xB83EC100, .mmaBf 5 3 7 3 1)] : List (Word32 × Instr)),
      decode e.1 0 = .ok e.2 ∧ encode e.2 = e.1 := by
  decide +kernel

theorem test_words_of_opcode_61 :
  ∀ e ∈ ([(0xB87EC100, .mmaHf 5 3 7 3 1)] : List (Word32 × Instr)),
      decode e.1 0 = .ok e.2 ∧ encode e.2 = e.1 := by
  decide +kernel

theorem test_words_of_opcode_62 :
  ∀ e ∈ ([(0xB8BEFB00, .mmaE44 5 3 7 3 29 1)] : List (Word32 × Instr)),
      decode e.1 0 = .ok e.2 ∧ encode e.2 = e.1 := by
  decide +kernel

theorem test_words_of_opcode_63 :
  ∀ e ∈ ([(0xB8FEFB00, .mmaE45 5 3 7 3 29 1)] : List (Word32 × Instr)),
      decode e.1 0 = .ok e.2 ∧ encode e.2 = e.1 := by
  decide +kernel

theorem test_words_of_opcode_64 :
  ∀ e ∈ ([(0xB93EFB00, .mmaE55 5 3 7 3 29 1)] : List (Word32 × Instr)),
      decode e.1 0 = .ok e.2 ∧ encode e.2 = e.1 := by
  decide +kernel

theorem test_words_of_opcode_65 :
  ∀ e ∈ ([(0xB97EC100, .mmaI8 5 3 7 3 1)] : List (Word32 × Instr)),
      decode e.1 0 = .ok e.2 ∧ encode e.2 = e.1 := by
  decide +kernel

theorem test_words_of_opcode_66 :
  ∀ e ∈ ([(0xB9BEFB00, .mmaNb 5 3 7 3 29 1)] : List (Word32 × Instr)),
      decode e.1 0 = .ok e.2 ∧ encode e.2 = e.1 := by
  decide +kernel

theorem test_words_of_opcode_67 :
  ∀ e ∈ ([(0xB9FEFB00, .mmaNe 5 3 7 3 29 1)] : List (Word32 × Instr)),
      decode e.1 0 = .ok e.2 ∧ encode e.2 = e.1 := by
  decide +kernel

theorem test_words_of_opcode_68 :
  ∀ e ∈ ([(0xBA000000, .mlease 5), (0xBA260001, .mleaseB 5 19), (0xBA000002, .mrel 5), (0xBA060003, .mzero 5 3)
      , (0xBA06F584, .mdrain 5 3 15 11), (0xBA063585, .maccget 5 3 3 11), (0xBA067586, .maccput 5 3 7 11)
      , (0xBA003008, .rpop 5 3), (0xBA267009, .rstat 5 19 7)] : List (Word32 × Instr)),
      decode e.1 0 = .ok e.2 ∧ encode e.2 = e.1 := by
  decide +kernel

theorem test_words_of_opcode_69 :
  ∀ e ∈ ([(0xBA46F580, .mrowset 5 3 15 11), (0xBA667581, .mrowget 5 19 7 11), (0xBA46F582, .mcolset 5 3 15 11)
      , (0xBA667583, .mcolget 5 19 7 11), (0xBA46F004, .mldm 5 3 15), (0xBA46F005, .mstm 5 3 15)] : List (Word32 × Instr)),
      decode e.1 0 = .ok e.2 ∧ encode e.2 = e.1 := by
  decide +kernel

/-! ### Results that the spec works out -/

/-- The state after reset with hart 0 changed. -/
def withHart (f : Hart → Hart) : State := State.reset.onHart 0 f

def g12 (x y : Word) : State := withHart fun h => (h.setG 1 x).setG 2 y
def f12 (x y : Word) : State := withHart fun h => (h.setF 1 x).setF 2 y
def v12 (x y : VReg) : State := withHart fun h => (h.setV 1 x).setV 2 y

/-- What the next state of hart 0 is asked for. -/
def seen {α : Type} (r : Answer) (f : Hart → α) : Option α := match r with
  | .next t => some (f (t.hart 0))
  | _ => none

/-- R146's own examples of DIV, REM, DIVW, REMW and DIVUW. -/
theorem test_divide_saturates :
    seen (exec (.div 0 3 1 2) (g12 0x8000000000000000 (-1))) (·.finalG 3) = some 0x7FFFFFFFFFFFFFFF
    ∧ seen (exec (.rem 0 3 1 2) (g12 0x8000000000000000 (-1))) (·.finalG 3) = some 0
    ∧ seen (exec (.div 0 3 1 2) (g12 (-5) 0)) (·.finalG 3) = some 0x8000000000000000
    ∧ seen (exec (.div 0 3 1 2) (g12 0 0)) (·.finalG 3) = some 0x7FFFFFFFFFFFFFFF := by decide +kernel

theorem test_divide_words :
    seen (exec (.divw 0 3 1 2) (g12 0xFFFFFFF9 2)) (·.finalG 3) = some 0xFFFFFFFFFFFFFFFD
    ∧ seen (exec (.remw 0 3 1 2) (g12 0xFFFFFFF9 2)) (·.finalG 3) = some 0xFFFFFFFFFFFFFFFF
    ∧ seen (exec (.divuw 0 3 1 2) (g12 5 0)) (·.finalG 3) = some 0xFFFFFFFFFFFFFFFF := by decide +kernel

/-- R144, R145: ADD wraps, ADDW works on low words, SRA takes the low six bits of its distance; g0 takes no value (R30). -/
theorem test_add_wraps :
    seen (exec (.add 0 1 1 2) (g12 (-1) 1)) (·.finalG 1) = some 0
    ∧ seen (exec (.addw 0 3 1 2) (g12 0x17FFFFFFF 1)) (·.finalG 3) = some 0xFFFFFFFF80000000
    ∧ seen (exec (.sra 0 3 1 2) (g12 (-8) 65)) (·.finalG 3) = some (-4)
    ∧ seen (exec (.sub 0 0 1 2) (g12 5 1)) (·.finalG 0) = some 0 := by decide +kernel

theorem test_count_bits :
    seen (exec (.clz 0 3 1) (g12 1 0)) (·.finalG 3) = some 63 ∧ seen (exec (.ctz 0 3 1) (g12 0 0)) (·.finalG 3) = some 64
    ∧ seen (exec (.brev 0 3 1) (g12 1 0)) (·.finalG 3) = some 0x8000000000000000
    ∧ seen (exec (.rol 0 3 1 2) (g12 0x8000000000000001 1)) (·.finalG 3) = some 3 := by decide +kernel

/-- R147, R149: SLTIU extends its immediate's sign first; `lui a0, 0x1234` writes 0x0123_4000; LIW is two words long. -/
theorem test_immediates :
    seen (exec (.sltiu 0 3 1 0xFFF) (g12 5 0)) (·.finalG 3) = some 1
    ∧ seen (exec (.lui 0 4 0x1234) (g12 0 0)) (·.finalG 4) = some 0x01234000
    ∧ seen (exec (.liw 0 4 0x80000000) (g12 0 0)) (fun y => (y.finalG 4, y.pc)) = some (0xFFFFFFFF80000000, 8) := by
  decide +kernel

theorem test_multiply_high :
    seen (exec (.mulhs 0 3 1 2) (g12 (-1) 2)) (·.finalG 3) = some (-1)
    ∧ seen (exec (.mulhz 0 3 1 2) (g12 (-1) 2)) (·.finalG 3) = some 1
    ∧ seen (exec (.mulhsz 0 3 1 2) (g12 (-1) (-1))) (·.finalG 3) = some (-1) := by decide +kernel

/-- R150, R151: offsets count words; JALR uses the old value of a register that it also links; one to an odd word traps. -/
theorem test_jumps :
    seen (exec (.blt 0 1 2 0xFFF) (g12 (-1) 0)) (·.pc) = some (-4)
    ∧ seen (exec (.bltu 0 1 2 0xFFF) (g12 (-1) 0)) (·.pc) = some 4
    ∧ seen (exec (.jal 0 1 5) (g12 0 0)) (fun y => (y.pc, y.finalG 1)) = some (20, 4)
    ∧ seen (exec (.jalr 0 1 1 4) (g12 0x100 0)) (fun y => (y.pc, y.finalG 1)) = some (0x104, 4) := by decide +kernel

/-- R158's table for 2.5 and -2.5 under RNE, for NaN and for minus infinity. -/
theorem test_convert_to_word :
    seen (exec (.fcvt 0 3 1 0x0A) (f12 0xFFFFFFFF40200000 0)) (fun y => (y.finalG 3, y.csr.fflags)) = some (2, flInexact)
    ∧ seen (exec (.fcvt 0 3 1 0x0A) (f12 0xFFFFFFFFC0200000 0)) (·.finalG 3) = some (-2)
    ∧ seen (exec (.fcvt 0 3 1 0x0A) (f12 0xFFFFFFFF7FC00000 0)) (fun y => (y.finalG 3, y.csr.fflags))
      = some (2147483647, flInvalid)
    ∧ seen (exec (.fcvt 0 3 1 0x0A) (f12 0xFFFFFFFFFF800000 0)) (·.finalG 3) = some (-2147483648) := by decide +kernel

def converted (frm : BitVec 3) : Option Word :=
  seen (exec (.fcvt 0 3 1 0x0A) ((f12 0xFFFFFFFFC0200000 0).onHart 0 fun h => { h with csr := { h.csr with frm := frm } }))
    (·.finalG 3)

/-- R158's table for -2.5 under RMM, RTZ, RDN and RUP, whose codes are 1-4 (R65). -/
theorem test_convert_rounds :
    converted 1 = some (-3) ∧ converted 2 = some (-2) ∧ converted 3 = some (-3) ∧ converted 4 = some (-2) := by decide +kernel

def classOf (p : BitVec 1) (x : Word) : Option Word := seen (exec (.fclass 0 3 1 p) (f12 x 0)) (·.finalG 3)

/-- R159's examples: -0, +1.0 and the canonical NaN in FP64. -/
theorem test_classes_double :
    classOf 1 0x8000000000000000 = some 0x81 ∧ classOf 1 0x3FF0000000000000 = some 3
    ∧ classOf 1 0x7FF8000000000000 = some 5 := by decide +kernel

/-- R159's table, and an FP32 operand without its upper ones. -/
theorem test_classes_single :
    classOf 0 0x3F800000 = some 5 ∧ classOf 0 0xFFFFFFFF00000001 = some 2
    ∧ classOf 0 0xFFFFFFFFFF800000 = some 0x84 ∧ classOf 0 0xFFFFFFFF7F800001 = some 6 := by decide +kernel

/-- R156, R160: one rounding of an exact value; 0 times infinity is invalid. -/
theorem test_fused :
    seen (exec (.fadd 0 3 1 2 1) (f12 0x3FF0000000000000 0x3FF0000000000000)) (·.finalF 3) = some 0x4000000000000000
    ∧ seen (exec (.fdiv 0 3 1 2 0) (f12 0xFFFFFFFF3F800000 0xFFFFFFFF40000000)) (·.finalF 3) = some 0xFFFFFFFF3F000000
    ∧ seen (exec (.fmaS 0 3 1 2 1) (f12 0xFFFFFFFF00000000 0xFFFFFFFF7F800000)) (fun y => (y.finalF 3, y.csr.fflags))
      = some (0xFFFFFFFF7FC00000, flInvalid) := by decide +kernel

/-- Lanes of 32 bits, lane 0 first. -/
def lanes32 (l : List Nat) : VReg := l.foldr (fun x v => (v <<< 32) ||| BitVec.ofNat 512 x) 0

/-- A state in which hart 0 has a lane group and the given element type. -/
def vectors (t : BitVec 4) (x y : VReg) : State := ((v12 x y).onHart 0 fun h => { h with csr := { h.csr with vtype := t } }).onTile 0
  fun t => { t with laneGrants := [0] }

/-- The softmax example of the vector chapter: VSUB and VMUL of FP32 lanes, and VRED.MAX. -/
theorem test_vector_floats :
    (seen (exec (.vsub 0 3 1 2 0) (vectors 10 (lanes32 [0x40A00000, 0x40800000, 0xC1000000]) (lanes32 [0x40A00000, 0x40A00000, 0x40A00000])))
      fun y => (List.range 4).map fun i => lane 32 (y.finalV 3) i) = some [0, 0xBF800000, 0xC1500000, 0]
    ∧ (seen (exec (.vredMax 0 3 1 0) (vectors 10 (lanes32 [0x40400000, 0x40A00000, 0xC1000000]) 0))
      fun y => (List.range 3).map fun i => lane 32 (y.finalV 3) i) = some [0x40A00000, 0, 0] := by decide +kernel

/-- R171: lanes of s8 wrap in VADD and saturate in VADDS. -/
theorem test_vector_integers :
    (seen (exec (.vadd 0 3 1 2 0) (vectors 0 0x7F80 0x01FF)) fun y => (lane 8 (y.finalV 3) 0, lane 8 (y.finalV 3) 1))
      = some (0x7F, 0x80)
    ∧ (seen (exec (.vadds 0 3 1 2 0) (vectors 0 0x7F80 0x01FF)) fun y => (lane 8 (y.finalV 3) 0, lane 8 (y.finalV 3) 1))
      = some (0x80, 0x7F) := by decide +kernel

/-- R179, R180 and the example after R79: the largest entry 120 gives the scale 2.0, and 96 becomes 0x74 under it, -96 0xF4. -/
theorem test_scaling :
    (match exec (.vamax 0 0 1 0) (vectors 10 (lanes32 [0x42F00000, 0xC2C00000]) 0) with
      | .next t => seen (exec (.scld 0 4 0 12) t) (·.finalF 4)
      | _ => none) = some 0xFFFFFFFF40000000
    ∧ (seen (exec (.vquantE43 0 3 1 2 0) ((vectors 10 (lanes32 [0x42C00000, 0xC2C00000]) 0).onHart 0 fun h =>
        h.setF 2 0xFFFFFFFF40000000)) fun y => (lane 8 (y.finalV 3) 0, lane 8 (y.finalV 3) 1)) = some (0x74, 0xF4) := by
  decide +kernel

/-- R33, R187: masks count lanes of the element type; `vsett w0, f32` answers 16. -/
theorem test_masks :
    seen (exec (.knot 0 2 1) ((vectors 11 0 0).onHart 0 fun h => h.setK 1 0xF0)) (·.finalK 2) = some 0x0F
    ∧ seen (exec (.vsett 0 24 0 10) (g12 0 0)) (fun y => (y.finalG 24, y.csr.vtype)) = some (16, 10)
    ∧ seen (exec (.kpop 0 4 1) ((vectors 0 0 0).onHart 0 fun h => h.setK 1 0xFFFF000000000001)) (·.finalG 4) = some 17 := by
  decide +kernel

/-- R80's example of the truncation window: the group sum is 1.0 exactly. -/
theorem test_group_window :
    groupSum [Fp.fin false 1 0, Fp.fin false 1 (-24), Fp.fin false 1 (-45)] = 0x3F800000 := by decide +kernel

/-- The MMA.E44 example after R198: every accumulator element is 16.0. -/
theorem test_mma_e44 :
    MmaForm.e44.element (MmaForm.e44.scale 0x3F000000 0x3E800000 0) 0 0
      (groupSums 64 (List.replicate 64 (e4m3.value 0x38)) (List.replicate 64 (e4m3.value 0x40))) = 0x41800000 := by
  decide +kernel

/-- R76's example: b = 128 and S = 2.0 scale by 1.0, and code 15 decodes to 1.0; the MMA.NB ops after R82 leave 64 and 96. -/
theorem test_mma_nb :
    blockScale 128 0x40000000 = 0x3F800000
    ∧ MmaForm.nb.element (some 0x3F800000) 128 0 (groupSums 64 (List.replicate 64 (bf16.value 0x3F80))
        (List.replicate 64 (bf16.value (codebook.getD 15 0)))) = 0x42800000
    ∧ MmaForm.nb.element (some 0x3F800000) 128 0x42800000 (groupSums 64 (List.replicate 64 (bf16.value 0x3F00))
        (List.replicate 64 (bf16.value (codebook.getD 15 0)))) = 0x42C00000 := by
  decide +kernel

/-- The ring example after R141: E = 8, HEAD 14 and TAIL 3 hold five entries, and the next fill goes to offset 0x10_3000. -/
theorem test_ring_occupancy :
    let t : Tile := { Tile.reset with
      ringcfg := Vector.replicate 8 (BitVec.ofNat 64 (0x100 * 2 ^ 12 + 64 * 2 ^ 24 + 8 * 2 ^ 32 + 2 ^ 39))
      ringptr := Vector.replicate 8 (14 + 3 * 256) }
    t.ringFill 0 = 5 ∧ t.ringOff 0 (t.ringTail 0) = 0x103000 := by decide +kernel

/-- Tenant 0 covers the panel. -/
def tenanted (s : State) : State := { s with tenants := [(0, { oneDie := false, x0 := 0, y0 := 0, x1 := 47, y1 := 63 })] }

/-- The example after R16: hart 2 of VT 100, on die 1, reads HARTID 402; VT 100 appears at 0xFFFE_0000_1900_0000. -/
theorem test_hart_numbers :
    State.reset.csrValue (100 * 4 + 2) 1 (State.reset.ptOf 100) 0x028 = some 402 ∧ hartDie 402 = 1
    ∧ ((tenanted State.reset).locate { tenant := 0, mode := .kernel, ptbase := 0, iset := 0, vt := 100, die := 1 } 0xFFFE000019001000
        .load true).2 = .ok { place := slicePlace 100 0x1000, rdw := false } := by decide +kernel

/-- The worked translation after R114: the leaf entry's fields, and die 7 as the home of the page for the set {0, 1, 6, 7}. -/
theorem test_worked_translation :
    let e : Word := 0x00000004000301D7
    entryPpn e = 0x40003 ∧ entryPlc e = 1 ∧ entryHome e = 0 ∧ State.reset.entryValid e 1 = true
    ∧ (State.reset.paPlace 0xC3 1 0 0x40003000).home = .hbm 7
    ∧ (List.range 4).map (fun l => vaIndex 0x40003000 (l + 1)) = [3, 0, 1, 0] := by decide +kernel

/-- The quota example after R230: bounced partial sums of 4,096.0 merge to 8,192.0 and 12,288.0. -/
theorem test_tail_merge :
    lane 32 (mergeAcc .f32 0x45800000 0x45800000) 0 = 0x46000000 ∧ lane 32 (mergeAcc .f32 0x46000000 0x45800000) 0 = 0x46400000
    ∧ lane 32 (mergeAcc .s32 0x7FFFFFFF 1) 0 = 0x80000000 := by decide +kernel

/-- R30: g0 takes no value, also as an AMO's or a CSR's destination; R161: CSRRS of g0 writes nothing. -/
theorem test_csr_read :
    seen (exec (.csrrs 0 3 0 0x028) (g12 0 0)) (·.finalG 3) = some 0
    ∧ seen (exec (.csrrw 0 3 1 0x005) (g12 2 0)) (fun y => (y.finalG 3, y.csr.frm)) = some (0, 2)
    ∧ seen (exec (.csrrw 0 3 1 0x005) (g12 5 0)) (·.csr.frm) = some 0 := by decide +kernel

/-- R215: the eight AMO operations on words and dwords. -/
theorem test_atomics :
    amoNew 0 false 1 0 0xFFFFFFFF = some 0 ∧ amoNew 1 false 0xFFFFFFFF 0 5 = some 0xFFFFFFFF
    ∧ amoNew 2 true 0xFFFFFFFFFFFFFFFF 0 5 = some 5 ∧ amoNew 6 true 7 0 5 = some 7 ∧ amoNew 7 true 7 5 5 = some 7
    ∧ amoNew 7 true 7 6 5 = none := by decide +kernel

/-- R288, R351: ECALL_K is never delegated, ECALL_U goes to K where KDELEG has its bit and KTVEC is set, with KEPC the call. -/
theorem test_ecall :
    seen (exec (.ecall 0) (withHart fun h => { h with
      mode := .user, pc := 0x100, csr := { h.csr with kdeleg := ~~~0, ktvec := 0x8000 } }))
      (fun y => (y.mode, y.pc, y.csr.kepc, y.csr.kcause, y.csr.pm)) = some (.kernel, 0x8000, 0x100, 5, 0)
    ∧ (seen (exec (.ecall 0) (withHart fun h => { h with
      mode := .kernel, pc := 0x100, csr := { h.csr with kdeleg := ~~~0, ktvec := 0x8000 } }))
      fun y => y.parked.map fun p => p.cause.toNat) = some (some 6) := by decide +kernel

/-- R300, R303: URET to UEPC clears the handler flag. -/
theorem test_uret :
    seen (exec (.uret 0) (withHart fun h => { h with mode := .user, csr := { h.csr with uh := true, uepc := 0x403 } }))
      (fun y => (y.pc, y.csr.uh)) = some (0x400, false) := by decide +kernel

/-- R92: a store of a misaligned address traps, an aligned one is posted and reaches memory when its home takes it. -/
theorem test_store :
    (match exec (.stw 0 2 1 4) (tenanted (g12 0xFFFF000000000100 0x1234567890ABCDEF)) with
      | .next t => match exec (.homeLineRequest 0 (((t.hart 0).posted.map (·.id)).headD 0) 0) t with
        | .next u => some (memBytes u.mem (sliceKey 0 0x104) 5)
        | _ => none
      | _ => none) = some [0xEF, 0xCD, 0xAB, 0x90, 0] := by decide +kernel

/-! ### Hypotheses that are met

For each statement with hypotheses, states and operands that meet them: clause by clause where the clauses ask for different
things. -/

/-- An instruction can issue in a state with nothing in flight for the hart. -/
theorem canIssue_of {s : State} {o : Op} (h : (decide (o.low.rank ≤ s.self.mode.rank) && s.self.fixed.isEmpty
    && !s.mustWait s.cur (o.reads ++ o.writes) && (!o.reach || s.settled s.cur)) = true) : s.canIssue o := by
  simp only [Bool.and_eq_true, decide_eq_true_eq, List.isEmpty_iff, Bool.not_eq_true', Bool.or_eq_true] at h
  obtain ⟨⟨⟨hm, hf⟩, hw⟩, hr⟩ := h
  refine ⟨hm, ?_, hw, fun e => ?_⟩
  · intro p hp; simp [hf] at hp
  · simpa [e] using hr

theorem canIssue_all {s : State} {l : List Op} (h : (l.all fun o => decide (o.low.rank ≤ s.self.mode.rank)
    && s.self.fixed.isEmpty && !s.mustWait s.cur (o.reads ++ o.writes) && (!o.reach || s.settled s.cur)) = true) :
    ∀ o ∈ l, s.canIssue o := by
  simp only [List.all_eq_true] at h
  exact fun o ho => canIssue_of (h o ho)

/-- The tile hart 0 in K mode, and supervisor hart 12288 in F mode. -/
def kernel : State := withHart fun h => { h with mode := .kernel }
def supervisor : State := { State.reset with cur := 12288 }

theorem witness_IntAndIntwGroupsWriteTheirTables :
    (g12 0x8000000000000000 1).canIssue (regOp [.g 1, .g 2] [.g 3] 1) ∧ State.reset.canIssue (regOp [.g 1] [.g 3] 1)
    ∧ (g12 0x8000000000000000 1).self.finalG 1 = BitVec.ofNat 64 (2 ^ 63) ∧ State.reset.self.finalG 1 = 0 := by
  refine ⟨canIssue_of ?_, canIssue_of ?_, ?_, ?_⟩ <;> decide +kernel

theorem witness_MulDivGroupResults :
    ∀ o ∈ [regOp [.g 1, .g 2] [.g 3] 3, regOp [.g 1, .g 2] [.g 3] 0], (g12 (-5) 0).canIssue o :=
  canIssue_all (by decide +kernel)

theorem witness_ImmediateAndConstantForms :
    ∀ o ∈ [regOp [.g 1] [.g 3] 1, regOp [] [.g 3] 1], State.reset.canIssue o := canIssue_all (by decide +kernel)

theorem witness_BranchesTakeTheirCondition :
    (g12 (-1) 0).canIssue (regOp [.g 1, .g 2] [] 0) ∧ ((g12 (-1) 0).self.finalG 1).toInt < ((g12 (-1) 0).self.finalG 2).toInt
    ∧ (g12 1 1).canIssue (regOp [.g 1, .g 2] [] 0) ∧ (g12 1 1).self.finalG 1 = (g12 1 1).self.finalG 2 := by
  refine ⟨canIssue_of ?_, ?_, canIssue_of ?_, ?_⟩ <;> decide +kernel

theorem witness_JumpsLinkAndGo :
    (g12 4 7).canIssue (regOp [] [.g 1] 1) ∧ (g12 4 7).canIssue (regOp [.g 1] [.g 1] 1)
    ∧ ((g12 4 7).self.finalG 1).toNat % 4 = 0 ∧ (g12 4 7).canIssue (regOp [.g 2] [.g 1] 1)
    ∧ ((g12 4 7).self.finalG 2).toNat % 4 ≠ 0 := by
  refine ⟨canIssue_of ?_, canIssue_of ?_, ?_, canIssue_of ?_, ?_⟩ <;> decide +kernel

theorem witness_FloatGroupResults :
    ∀ o ∈ [reachOp [.f 1, .f 2] [.f 3] 4, reachOp [.f 1, .f 2, .f 4] [.f 3] 4, reachOp [.f 1, .f 2] [.f 3] 0
      , reachOp [.f 1] [.f 3] 0, reachOp [.f 1, .f 2] [.g 3] 0, regOp [.f 1, .f 2] [.f 3] 0, regOp [.f 1] [.g 3] 0
      , regOp [.g 1] [.f 3] 0], (f12 0xFFFFFFFF3F800000 0xFFFFFFFF40000000).canIssue o := canIssue_all (by decide +kernel)

theorem witness_FloatConversions :
    (∀ o ∈ [reachOp [.f 1] [.f 3] 0, reachOp [.g 1] [.f 3] 0, reachOp [.f 1] [.g 3] 0], State.reset.canIssue o)
    ∧ (∃ c : BitVec 5, ∃ a b, cvtForm c.toNat = some (.float a b))
    ∧ (∃ c : BitVec 5, ∃ a b d, cvtForm c.toNat = some (.fromInt a b d))
    ∧ ∃ c : BitVec 5, ∃ a b d, cvtForm c.toNat = some (.toInt a b d) :=
  ⟨canIssue_all (by decide +kernel), ⟨0, _, _, rfl⟩, ⟨2, _, _, _, rfl⟩, ⟨10, _, _, _, rfl⟩⟩

/-- Ties at the smallest and at a larger width. -/
theorem witness_RoundingModesChooseTheirNeighbour : 1 < 2 ^ 1 ∧ 0 < 1 ∧ 2 * 1 = 2 ^ 1 ∧ 0 < 2 ^ 0 ∧ 2 ^ 40 - 1 < 2 ^ 40 := by
  decide

theorem hasLane_of {s : State} (h : (isSup s.cur || (!s.prompt && (s.tile (hartVt s.cur)).laneGrants.contains s.cur)) = true) :
    s.hasLane := by
  simp only [Bool.or_eq_true, Bool.and_eq_true, Bool.not_eq_true'] at h
  exact h

/-- FP32 lanes, s8 lanes, and type 14 (nq4), which no arithmetic member takes. -/
theorem witness_VectorLanesFollowTheirRule :
    (∀ o ∈ [regOp [.v 1, .v 2, .v 3] [.v 3] 0, regOp [.v 1, .v 2, .v 3, .k 1] [.v 3] 0, regOp [.v 1, .v 3] [.v 3] 0],
      (vectors 10 0 0).canIssue o ∧ (vectors 0 0 0).canIssue o)
    ∧ (vectors 10 0 0).hasLane ∧ elemTyped (vectors 10 0 0).vtype = true ∧ (vectors 0 0 0).hasLane
    ∧ elemIsInt (vectors 0 0 0).vtype = true ∧ (vectors 10 0 0).canIssue (regOp [.v 1, .v 2] [.v 3] 0)
    ∧ elemIsInt (vectors 10 0 0).vtype = false ∧ (vectors 14 0 0).canIssue (regOp [.v 1, .v 2] [.v 3] 0)
    ∧ elemTyped (vectors 14 0 0).vtype = false := by
  refine ⟨fun o ho => ⟨canIssue_all ?_ o ho, canIssue_all ?_ o ho⟩, hasLane_of ?_, ?_, hasLane_of ?_, ?_, canIssue_of ?_, ?_
    , canIssue_of ?_, ?_⟩ <;> decide +kernel

theorem witness_VectorSelectCompareAndPermute :
    (vectors 10 0 0).hasLane ∧ elemTyped (vectors 10 0 0).vtype = true
    ∧ ∀ o ∈ [regOp [.v 1, .v 2, .k 1] [.v 3] 0, regOp [.v 1, .v 2, .k 3, .k 1] [.k 3] 0, regOp [.v 1, .v 2, .v 3] [.v 3] 0
      , regOp [.v 1, .g 2, .v 3] [.v 3] 0, regOp [.g 1, .v 3] [.v 3] 0, regOp [.g 1, .g 2, .v 3] [.v 3] 0
      , regOp [.v 1, .g 2] [.g 3] 0], (vectors 10 0 0).canIssue o := by
  refine ⟨hasLane_of ?_, ?_, canIssue_all ?_⟩ <;> decide +kernel

theorem witness_VectorReductionsAndScans :
    (vectors 10 0 0).hasLane ∧ elemTyped (vectors 10 0 0).vtype = true
    ∧ ∀ o ∈ [regOp [.v 1] [.v 3] 0, regOp [.v 1, .v 3, .k 2, .k 1] [.v 3] 0], (vectors 10 0 0).canIssue o := by
  refine ⟨hasLane_of ?_, ?_, canIssue_all ?_⟩ <;> decide +kernel

/-- From FP32 to f64 (type 11) and from FP32 to s8 the widths differ; a quantiser takes FP32. -/
theorem witness_VectorConversionsAndQuantisers :
    (∀ o ∈ [regOp [.v 1, .v 3] [.v 3] 0, regOp [.v 1, .f 2, .v 3, .k 1] [.v 3] 0], (vectors 10 0 0).canIssue o)
    ∧ (vectors 10 0 0).hasLane ∧ elemTyped (vectors 10 0 0).vtype = true ∧ elemWidth (vectors 10 0 0).vtype ≠ elemWidth 11
    ∧ elemWidth (vectors 10 0 0).vtype ≠ elemWidth 0 ∧ elemIsFloat (vectors 10 0 0).vtype = true
    ∧ elemFmt (vectors 10 0 0).vtype = some f32 := by
  refine ⟨canIssue_all ?_, hasLane_of ?_, ?_⟩ <;> decide +kernel

/-- Hart 0 owns ring 0 and not ring 3. -/
theorem witness_MaskGroupVsettAndHistoryRings :
    isSup (vectors 10 0 0).cur = false ∧ (vectors 10 0 0).hasLane ∧ elemTyped (vectors 10 0 0).vtype = true
    ∧ hartSlot (vectors 10 0 0).cur = 0
    ∧ ∀ o ∈ [reachOp [.v 1] [] 0, regOp [] [.f 3] 0, regOp [.k 1, .k 2] [.k 3] 0, regOp [.k 1] [.k 3] 0, regOp [.k 1] [.g 3] 0
      , regOp [.g 1] [.k 3] 0, reachOp [.g 1] [.g 3] 0], (vectors 10 0 0).canIssue o := by
  refine ⟨?_, hasLane_of ?_, ?_, ?_, canIssue_all ?_⟩ <;> decide +kernel

/-- The answer's state. -/
def nextOf (r : Answer) : State := match r with
  | .next t => t
  | _ => State.reset

theorem clear_at_reset : (∀ w ∈ State.reset.self.posted, covers State.reset.cur 3 w.place = false) ∧ State.reset.self.accs = [] := by
  decide +kernel

/-- An address of the own slice: places are found, no watchpoint is set, and there is room. -/
def inSlice : State := tenanted (g12 0xFFFF000000000100 0x40)

theorem witness_ScalarLoadsAndStores :
    (∀ o ∈ [regOp [.g 1] [.g 3] 0, regOp [.g 1] [.f 3] 0, reachOp [.g 1, .g 2] [] 0, reachOp [.g 1, .f 2] [] 0], inSlice.canIssue o)
    ∧ (inSlice.self.finalG 1).toNat % 8 = 0 ∧ (inSlice.self.finalG 1 + 1).toNat % 2 ≠ 0
    ∧ inSlice.self.watchBytes true false (inSlice.self.finalG 1) [true] = none
    ∧ (inSlice.placesOf .load [inSlice.self.finalG 1]).2.toOption.isSome = true
    ∧ (inSlice.placesOf .store [0]).2.toOption.isSome = false
    ∧ inSlice.roomFor inSlice.cur [slicePlace 0 0x100] = true
    ∧ (∀ w ∈ inSlice.self.posted, covers inSlice.cur 3 w.place = false) ∧ inSlice.self.accs = [] := by
  refine ⟨canIssue_all ?_, ?_⟩ <;> decide +kernel

/-- A release behind a posted write of its scope. -/
theorem witness_ScalarLoadsAndStores_release_waits :
    let s := nextOf (exec (.stw 0 2 1 0) inSlice)
    s.canIssue (reachOp [.g 1, .g 2] [] 0) ∧ ∃ w ∈ s.self.posted, covers s.cur 1 w.place = true := by
  refine ⟨canIssue_of ?_, ?_⟩ <;> decide +kernel

theorem witness_VectorLoadsAndStores :
    let s := (vectors 10 0 0).onHart 0 fun h => ((h.setG 1 0xFFFF000000000100).setG 2 0x40).setK 1 0
    (∀ o ∈ [regOp [.g 1] [.v 3] 0, regOp [.g 1, .k 1] [.v 3] 0, regOp [.g 1, .g 2] [.v 3] 0, regOp [.g 1, .v 2] [.v 3] 0
      , reachOp [.g 1, .v 3] [] 0, reachOp [.g 1, .v 3, .k 1] [] 0, reachOp [.g 1, .g 2, .v 3] [] 0
      , reachOp [.g 1, .v 2, .v 3] [] 0], s.canIssue o)
    ∧ (s.self.finalG 1).toNat % 64 = 0 ∧ ((List.range 16).filter fun i => (s.self.finalMask 1).getLsbD i) = []
    ∧ (List.range 16).filter (fun i => (s.self.finalMask 0).getLsbD i) = List.range 16 := by
  refine ⟨canIssue_all ?_, ?_⟩ <;> decide +kernel

theorem witness_FullEmptyInstructions :
    (∀ o ∈ [reachOp [.g 1] [] 0, reachOp [.g 1, .g 2] [] 0, reachOp [.g 1] [.g 3] 0, regOp [.g 1] [.g 3] 0], inSlice.canIssue o)
    ∧ 2 ^ 48 ≤ (inSlice.self.finalG 1).toNat ∧ (inSlice.self.finalG 2).toNat < 2 ^ 48
    ∧ inSlice.self.watchHit false true (inSlice.self.finalG 1) 8 = none
    ∧ inSlice.self.watchHit true false (inSlice.self.finalG 1) 8 = none
    ∧ (inSlice.placesOf .load [inSlice.self.finalG 1]).2.toOption.isSome = true
    ∧ (inSlice.placesOf .store [inSlice.self.finalG 1]).2.toOption.isSome = true := by
  refine ⟨canIssue_all ?_, ?_⟩ <;> decide +kernel

theorem witness_AtomicsLeaveWithTheirOperand :
    (∀ o ∈ [reachOp [.g 1, .g 2] [.g 3] 0, reachOp [.g 1, .g 2, .g 3] [.g 3] 0], inSlice.canIssue o)
    ∧ inSlice.self.watchHit true true (inSlice.self.finalG 1) 8 = none ∧ (inSlice.self.finalG 1).toNat % 8 = 0
    ∧ (inSlice.placesOf .amo [inSlice.self.finalG 1]).2.toOption.isSome = true
    ∧ inSlice.roomFor inSlice.cur [slicePlace 0 0x100] = true := by
  refine ⟨canIssue_all ?_, ?_⟩ <;> decide +kernel

/-- A hart whose registers of matrix register 0 are 16 rows of 64 bytes. -/
def shaped : State := (vectors 10 0 0).onHart 0 fun h => ((({ h with mode := .kernel }).writeMshape
  0x70).setG 1 0xFFFF000000000100).setG 2 1

theorem witness_MatrixRegistersAndLeases :
    isSup shaped.cur = false
    ∧ (∀ o ∈ [reachOp [.v 1, .g 2] [.m 0] 0, reachOp [.m 0, .g 2] [.v 3] 0, reachOp [.g 1] [.m 0] 0, reachOp [.m 0, .g 1] [] 0
      , reachOp [] [] 0, reachOp [] [.g 3] 0], shaped.canIssue o)
    ∧ shaped.self.mRows 0 ≠ 0 ∧ (shaped.self.finalG 2).toNat < shaped.self.mRows 0
    ∧ (shaped.self.finalG 1).toNat % shaped.self.mWidth 0 = 0
    ∧ State.reset.self.mode = .user ∧ State.reset.self.mValid.getLsbD 0 = false := by
  refine ⟨?_, canIssue_all ?_, ?_⟩ <;> decide +kernel

/-- A lease that is NONE, held and ending, as MLEASE, the grant and a preemption leave it. -/
theorem witness_MatrixRegistersAndLeases_states :
    let k := State.reset.acting.keepSlot 0
    let held := (nextOf (exec (.mlease 0) State.reset)).giveLease 0 0
    k.self.leaseEnding = false ∧ k.self.lease = .none ∧ k.leaseHolder 0 = none
    ∧ (k.leasePick 0 fun o => o == 0 || (k.hart o).lease == .req) = some 0
    ∧ held.self.lease = .held ∧ (held.onHart 0 fun x => { x with leaseEnding := true }).self.leaseEnding = true := by
  decide +kernel

theorem witness_SpecialFunctionsEnterTheQueue :
    (vectors 10 0 0).canIssue (regOp [.v 1, .v 3] [.v 3] 0) ∧ elemIsFloat (vectors 10 0 0).vtype = true
    ∧ isSup (vectors 10 0 0).cur = false ∧ ((vectors 10 0 0).tile 0).ckpting = none ∧ (vectors 10 0 0).sfuPlace 0 = true
    ∧ elemIsFloat (vectors 0 0 0).vtype = false ∧ (vectors 0 0 0).canIssue (regOp [.v 1, .v 3] [.v 3] 0)
    ∧ isSup supervisor.cur = true ∧ supervisor.canIssue (regOp [.v 1, .v 3] [.v 3] 0)
    ∧ elemIsFloat (supervisor.onHart 12288 fun h => { h with csr := { h.csr with vtype := 10 } }).vtype = true := by
  refine ⟨canIssue_of ?_, ?_, ?_, ?_, ?_, ?_, canIssue_of ?_, ?_, canIssue_of ?_, ?_⟩ <;> decide +kernel

theorem witness_AccumulatesAndTheirTail :
    isSup inSlice.cur = false
    ∧ (∀ o ∈ [reachOp [.g 1, .v 2] [] 0, reachOp [] [] 0, regOp [.g 1] [.g 3] 0, regOp [.g 0] [.g 3] 0], inSlice.canIssue o)
    ∧ (inSlice.self.finalG 1).toNat % 64 = 0 ∧ (g12 0xFFFF000000000104 0).self.finalG 1 = 0xFFFF000000000104
    ∧ (inSlice.acting.locate (inSlice.acting.ctx 0) (inSlice.self.finalG 1) .amo true).2.toOption.isSome = true
    ∧ inSlice.self.watchHit false true (inSlice.self.finalG 1) 64 = none ∧ inSlice.self.accs.length < 32
    ∧ (inSlice.tile 0).cond ≠ .drain ∧ (∀ f ∈ (inSlice.tile 0).flushing, f.hart ≠ 0) ∧ (inSlice.tile 0).tail = []
    ∧ ∀ i, i < 4 → (inSlice.hart (0 * 4 + i)).accs = [] := by
  refine ⟨?_, canIssue_all ?_, ?_⟩ <;> decide +kernel

/-- A FLUSHRES of the hart's that has sent its entries. -/
theorem witness_AccumulatesAndTheirTail_flush :
    let f : Flushing := { hart := 0, seq := 0, e := [], f := some [] }
    let s := State.reset.onTile 0 fun t => { t with flushing := [f] }
    s.canIssue (reachOp [] [] 0) ∧ (s.tile 0).flushing.find? (fun f => f.hart == 0 && f.seq == s.self.seq) = some f
    ∧ f.f = some [] ∧ ¬ ∃ w ∈ (s.tile 0).flushes, w.id ∈ ([] : List Nat) := by
  refine ⟨canIssue_of ?_, ?_⟩ <;> decide +kernel

/-- A missing CSR, one that is too high for U mode, the M registers in U mode, one of a tile for a supervisor, and plain ones. -/
theorem witness_CsrInstructionsReadAndWriteLegally :
    State.reset.csrTarget 0 0x7FF = .missing ∧ State.reset.csrTarget 0 0x400 ≠ .missing
    ∧ State.reset.self.mode.rank < (csrMode 0x400).rank ∧ State.reset.csrTarget 0 0x005 ≠ .missing
    ∧ (csrMode 0x005).rank ≤ State.reset.self.mode.rank ∧ State.reset.csrTarget 0 0x005 ≠ .noTile
    ∧ State.reset.self.mValid ≠ 0xFF ∧ (csrMode 0x018).rank ≤ State.reset.self.mode.rank
    ∧ supervisor.csrTarget 12288 0x030 = .noTile
    ∧ (∀ o ∈ [regOp [] [] 0, reachOp [.g 1] [.g 3] 0, reachOp [] [.g 3] 0], State.reset.canIssue o ∧ supervisor.canIssue o) := by
  refine ⟨?_, ?_, ?_, ?_, ?_, ?_, ?_, ?_, ?_, fun o ho => ⟨canIssue_all ?_ o ho, canIssue_all ?_ o ho⟩⟩ <;> decide +kernel

theorem witness_SystemInstructionsAndFencesComplete :
    kernel.canIssue { reachOp [] [] 0 with low := .kernel } ∧ kernel.self.mode = .kernel ∧ kernel.self.csr.pm.toNat ≤ 1
    ∧ supervisor.canIssue { reachOp [] [] 0 with low := .firmware }
    ∧ (∀ o ∈ [reachOp [] [] 0, reachOp [] [.g 3] 0], State.reset.canIssue o)
    ∧ State.reset.self.mode = .user ∧ (withHart fun h => { h with csr := { h.csr with uh := true } }).self.csr.uh = true
    ∧ (withHart fun h => { h with csr := { h.csr with uh := true } }).canIssue (reachOp [] [] 0)
    ∧ State.reset.self.posted = [] ∧ (State.reset.tile 0).replayLog = []
    ∧ (withHart fun h => { h with mode := .kernel, csr := { h.csr with kip := 4, kie := 4 } }).awake 0 = true
    ∧ kernel.awake 0 = false := by
  refine ⟨canIssue_of ?_, ?_, ?_, canIssue_of ?_, canIssue_all ?_, ?_, ?_, canIssue_of ?_, ?_⟩ <;> decide +kernel

theorem witness_CallsAndBreakpointsTakeTheirTrap :
    (State.reset.canIssue (reachOp [] [] 0) ∧ State.reset.self.board = [] ∧ State.reset.sfuBusy 0 = false
      ∧ State.reset.acting.parkRoom 0 .ecallU = true ∧ State.reset.acting.parkRoom 0 .brk = true
      ∧ State.reset.self.csr.dbgctl.getLsbD 5 = false) ∧ kernel.canIssue (reachOp [] [] 0)
    ∧ supervisor.canIssue (reachOp [] [] 0) ∧ supervisor.self.mode = .firmware
    ∧ (withHart fun h => { h with csr := { h.csr with dbgctl := 0x20 } }).self.csr.dbgctl.getLsbD 5 = true := by
  refine ⟨⟨canIssue_of ?_, ?_⟩, canIssue_of ?_, canIssue_of ?_, ?_⟩ <;> decide +kernel

theorem witness_TlbinvSaveptAndCkpt :
    isSup kernel.cur = false ∧ kernel.canIssue { reachOp [.g 1, .g 2] [] 0 with low := .kernel } ∧ kernel.self.finalG 2 = 0
    ∧ kernel.drained 0 = true ∧ kernel.self.tlbinv = none
    ∧ (let u := kernel.acting.invalidateAll 0 false 0 0
       ∀ v ∈ u.invServes 0 false, u.pagedOut v kernel.self.csr.tenant (u.tlbinvStart 0 false) = false)
    ∧ (let t := kernel.onHart 0 fun h => { h with tlbinv := some { seq := h.seq, since := 1, names := [] } }
       t.self.tlbinv.map (·.seq) = some t.self.seq
       ∧ ∀ v ∈ t.acting.invServes 0 false, t.acting.pagedOut v t.self.csr.tenant { seq := t.self.seq, since := 1, names := [] } = false)
    ∧ State.reset.canIssue (reachOp [] [] 0) ∧ State.reset.sfuClear 0 = true ∧ State.reset.arrayClear 0 = true
    ∧ State.reset.self.preemptable = false ∧ State.reset.self.board = [] ∧ State.reset.sfuBusy 0 = false ∧ State.reset.inCkpt 0 = false
    ∧ State.reset.ckptReady 0 = true := by
  refine ⟨?_, canIssue_of ?_, ?_, ?_, ?_, ?_, ?_, canIssue_of ?_, ?_⟩ <;> decide +kernel

/-- A hart with a preemption it may take, and one inside its own committed CKPT. -/
theorem witness_TlbinvSaveptAndCkpt_pending :
    (withHart fun h => { h with
      task := some { chan := 0, inlineWords := none }, csr := { h.csr with kip := 2, kie := 2, ie := true, ktvec := 0x8000 } }).self.preemptable = true
    ∧ let s := (nextOf (exec (.ckpt 0) State.reset)).onTile 0 fun t => { t with ckpting := t.ckpting.map fun c => { c with committed := true } }
      s.inCkpt 0 = true ∧ (s.tile 0).ckpting.any (·.committed) = true ∧ s.canIssue (reachOp [] [] 0) := by
  refine ⟨?_, ?_, ?_, canIssue_of ?_⟩ <;> decide +kernel

/-- A message of class 0x30 to channel 0 of hart 1 of VT 1, of two payload words. -/
def sender : State := tenanted (g12 0x1001 0x0002000000000030)

theorem witness_SendQueuesItsMessage :
    (∀ o ∈ [reachOp ([.g 1, .g 2] ++ payloadRegs 2) [] 0, reachOp ([.g 1, .g 2] ++ payloadRegs 2) [.g 3] 0
      , reachOp [.g 1, .g 2, .g 4] [.g 3] 0], sender.canIssue o)
    ∧ hdrLen (sender.self.finalG 2) = 2
    ∧ sender.acting.sendTrap 0 (sender.self.finalG 1) (sender.self.finalG 2) false false = none
    ∧ sender.acting.sendTrap 0 (2 ^ 16) 0 false false = some (.illegal, 0)
    ∧ sender.self.sendq.length < 16 ∧ (sender.self.finalG 4).toNat % 8 = 0 ∧ sender.released 0 3 = true
    ∧ sender.roomItems 0 2 = true ∧ 0 < sender.self.freeReplies := by
  refine ⟨canIssue_all ?_, ?_⟩ <;> decide +kernel

/-- Its spawn, then the latch with a refusal, and a task handler in the tile's table. -/
theorem witness_SpawnSendsOrRunsInline :
    sender.canIssue (reachOp ([.g 1, .g 2] ++ payloadRegs 2) [] 0)
    ∧ sender.acting.sendTrap 0 (sender.self.finalG 1) (sender.self.finalG 2) false true = none
    ∧ sender.self.spawn.armed = false ∧ sender.self.sendq.length < 16 ∧ sender.released 0 3 = true ∧ sender.roomItems 0 2 = true
    ∧ let w := nextOf (exec (.spawn 0 1 2) sender)
      w.self.spawn.armed = true ∧ w.self.spawn.pc = w.self.pc ∧ w.self.spawn.answered = false
      ∧ w.canIssue (reachOp ([.g 1, .g 2] ++ payloadRegs 2) [] 0) := by
  refine ⟨canIssue_of ?_, ?_, ?_, ?_, ?_, ?_, ?_, ?_, ?_, canIssue_of ?_⟩ <;> decide +kernel

theorem witness_SpawnSendsOrRunsInline_refused :
    let s := ((sender.onHart 0 fun x => { x with spawn := { armed := true, answered := true, accepted := false, retryAt := 0, pc := x.pc } }).onTile 0
      fun t => { t with htbase := 0xFFFF000000000000 }).write none (slicePlace 0 0x180) (solid (natBytes 8 0x8001)) none
    s.canIssue (reachOp ([.g 1, .g 2] ++ payloadRegs 2) [] 0)
    ∧ s.acting.sendTrap 0 (s.self.finalG 1) (s.self.finalG 2) false true = none ∧ s.self.spawn.pc = s.self.pc
    ∧ s.acting.launchMarked 0 = false ∧ s.self.csr.inld ≠ 255 ∧ s.self.board = []
    ∧ ((s.acting.handlerEntry 0 s.self.csr.tenant 0x30).2.map fun e => handlerPc e.2) = some (some 0x8000) := by
  refine ⟨canIssue_of ?_, ?_⟩ <;> decide +kernel

theorem witness_TasksEndAndMessagesAreCounted :
    isSup State.reset.cur = false ∧ State.reset.self.csr.inld = 0
    ∧ (∀ o ∈ [reachOp [] [] 0, reachOp [.g 1] [] 0, reachOp (.g 3 :: payloadRegs 7) [] 0, regOp [.g 1] [.g 3] 0], State.reset.canIssue o)
    ∧ State.reset.acting.taskWaits 0 true = none ∧ State.reset.acting.taskWaits 0 false = none
    ∧ (withHart fun h => { h with csr := { h.csr with inld := 1 } }).self.csr.inld ≠ 0
    ∧ (withHart fun h => { h with csr := { h.csr with inld := 1 } }).canIssue (reachOp [.g 1] [] 0)
    ∧ (let c := supervisor.onHart 12288 fun h => { h with csr := { h.csr with inld := 1 } }
       c.canIssue (reachOp [.g 1] [] 0) ∧ c.acting.taskWaits 12288 false = none)
    ∧ ((withHart fun h => h.setG 3 0x10).self.finalG 3).toNat % 256 = 0x10 ∧ (State.reset.self.finalG 1).toNat ≤ 3 := by
  refine ⟨?_, ?_, canIssue_all ?_, ?_, ?_, ?_, canIssue_of ?_, ⟨canIssue_of ?_, ?_⟩, ?_⟩ <;> decide +kernel

/-- Barrier 3 of VT 1: a first arrival, and the record once it has arrived and the phase has moved. -/
def joiner : State := tenanted (g12 0x3001 5)

theorem witness_BarrierInstructions :
    isSup joiner.cur = false ∧ (∀ o ∈ [reachOp [.g 1, .g 2] [] 0, reachOp [.g 1] [] 0], joiner.canIssue o)
    ∧ joiner.barrierTrap (joiner.self.finalG 1) = none ∧ joiner.barrierTrap 0x20000 ≠ none
    ∧ (joiner.self.finalG 2).toNat < 2 ^ 16 ∧ joiner.roomItems 0 1 = true ∧ joiner.released 0 3 = true
    ∧ (joiner.self.takeRecord 0x3001).map (fun r => (r.2.joined, r.2.arrived)) = some (false, false)
    ∧ joiner.self.record 0x3001 = none := by
  refine ⟨?_, canIssue_all ?_, ?_⟩ <;> decide +kernel

theorem witness_BarrierInstructions_arrived :
    let s := (nextOf (exec (.bararrive 0 1) joiner)).onHart 0 fun x => { x with
      barriers := x.barriers.set 0 { x.barriers[0] with phase := 1 } }
    let t : State := ({ s with net := [] } : State).onTile 0 fun t => { t with egress := [] }
    t.canIssue (reachOp [.g 1] [] 0) ∧ (t.self.takeRecord 0x3001).map (fun r => r.2.arrived) = some true ∧ t.barrierOpsOut 0 = false
    ∧ (t.barrierAt 0x3001).ph ≠ 1 ∧ (t.self.record 0x3001).isSome = true := by
  refine ⟨canIssue_of ?_, ?_⟩ <;> decide +kernel

/-- No watch, then one that has triggered, a spurious event, and a limit reached. -/
theorem witness_MonitorsWatchAndWait :
    isSup inSlice.cur = false ∧ (∀ o ∈ [reachOp [.g 1] [] 0, reachOp [.g 1] [.g 3] 0], inSlice.canIssue o)
    ∧ (inSlice.acting.locate (inSlice.acting.ctx 0) (inSlice.self.finalG 1) .load true).2.toOption.isSome = true
    ∧ ((inSlice.tile 0).watches.filter fun w => w.hart == 0) = []
    ∧ let s := nextOf (exec (.lwatch 0 1) inSlice)
      ((s.tile 0).watches.filter fun w => w.hart == 0).length = 1 ∧ (∀ w ∈ (s.tile 0).watches, w.trig = false)
      ∧ s.self.lwaitSpurious = false ∧ s.self.lwaitExpired = false ∧ s.canIssue (reachOp [.g 1] [.g 3] 0)
      ∧ (s.self.lwaitSince.getD s.tick) + (s.self.finalG 1).toNat > s.tick := by
  refine ⟨?_, canIssue_all ?_, ?_, ?_, ?_, ?_, ?_, ?_, canIssue_of ?_, ?_⟩ <;> decide +kernel

/-- Counter 5 of die 1, given to tenant 0. -/
def counting : State := (g12 (4096 + 5) 7).setCounter (4096 + 5) { State.reset.counter 4101 with tenant := some 0, value := 9 }

theorem witness_CounterInstructions :
    (∀ o ∈ [reachOp [.g 1, .g 2] [] 0, regOp [.g 1] [.g 3] 0, reachOp [.g 1] [] 0], counting.canIssue o)
    ∧ (counting.self.finalG 1).toNat < 2 ^ 18 ∧ (counting.self.finalG 1).toNat / 4096 % 64 < 48
    ∧ (counting.counter 4101).tenant = some counting.self.csr.tenant ∧ counting.released 0 3 = true ∧ counting.roomItems 0 1 = true
    ∧ (counting.self.finalG 2).toInt < 2 ^ 31 ∧ (counting.self.finalG 2).toNat ≤ (counting.counter 4101).value.toNat
    ∧ (counting.counter 4101).mark = false ∧ (counting.counter 4101).value ≠ 0 ∧ counting.cancelOut 0 4101 = false := by
  refine ⟨canIssue_all ?_, ?_⟩ <;> decide +kernel

/-- A copy card of 128 bytes within the own slice, and a card whose word holds a reserved opcode. -/
def carded : State := tenanted <| withHart fun h =>
  (((h.setG 4 (BitVec.ofNat 64 (1 + 5 * 256 + 128 * 2 ^ 32))).setG 5 0xFFFF000000000000).setG 6 0xFFFF000000001000).setG 7 0

theorem witness_EngineInstructions :
    isSup carded.cur = false
    ∧ (∀ o ∈ [reachOp [.g 4, .g 5, .g 6, .g 7] [] 0, reachOp [.g 4, .g 5, .g 6, .g 7] [.g 3] 0, reachOp [.g 1] [] 0
      , reachOp [.g 1] [.g 3] 0, reachOp [.g 1, .g 2] [] 0], carded.canIssue o)
    ∧ carded.self.fifo.length < 16 ∧ carded.released 0 3 = true ∧ carded.roomItems 0 1 = true
    ∧ (carded.acting.cardCheck 0 [0xFF, 0, 0, 0]).isSome = true
    ∧ carded.acting.cardCheck 0 ((List.range 4).map fun j => carded.self.finalG (4 + BitVec.ofNat 5 j)) = none
    ∧ (∀ t, t < 64 → (carded.self.finalG 1).getLsbD t = true → entryAt carded.self.tagCount t 0 = 0)
    ∧ carded.self.csr.tags &&& carded.self.finalG 1 = 0 ∧ (carded.self.finalG 1).toNat % 64 = 0 := by
  refine ⟨?_, canIssue_all ?_, ?_⟩ <;> decide +kernel

/-- A bound reply tag, and an MREQ under it. -/
theorem witness_EngineInstructions_mreq :
    let s := nextOf (exec (.mbind 0 1 2) (g12 5 0x430))
    isSup s.cur = false ∧ s.canIssue (reachOp [.g 1, .g 2] [] 0) ∧ ((s.tile 0).replyTags.find 5).isSome = true
    ∧ (∃ y : Word, y.toNat / 2 ^ 29 % 64 = 5 ∧ mreqTrap 0 0x40000000 y true = none)
    ∧ (s.hart (0 * 4 + (((s.tile 0).replyTags.find 5).getD default).hart.toNat)).freeReplies ≠ 0 ∧ (s.tile 0).cond ≠ .drain
    ∧ s.roomItems 0 1 = true := by
  refine ⟨?_, canIssue_of ?_, ?_, ⟨0x00000000A0000000, ?_, ?_⟩, ?_⟩ <;> decide +kernel

/-- Rings 1 and 2 of hart 0, of 64-unit entries (a 33-unit one in ring 3, a 128-unit one in ring 4), its bank valid and its
lease held. -/
def arrayed : State := ((State.reset.giveLease 0 0).onHart 0 fun x => { x with accValid := true, mValid := 0xFF }).onTile 0 fun t =>
  let cfg (size : Nat) : Word := BitVec.ofNat 64 (0x100 * 2 ^ 12 + size * 2 ^ 24 + 4 * 2 ^ 32 + 2 ^ 39)
  { t with ringown := 0, ringcfg := ((((t.ringcfg.set 1 (cfg 64)).set 2 (cfg 64)).set 3 (cfg 33)).set 4 (cfg 128)) }

theorem witness_MmaFormsEnterTheArrayQueue :
    isSup arrayed.cur = false ∧ (∀ o ∈ [reachOp [] [] 0, reachOp [.f 1, .f 2] [] 0, reachOp [.f 1] [] 0], arrayed.canIssue o)
    ∧ hartSlot arrayed.cur = 0 ∧ arrayed.self.mode = .user ∧ arrayed.self.accValid = true
    ∧ (∀ e ∈ [(1, 64), (2, 64), (3, 33), (4, 128)], let c := entryAt (arrayed.tile 0).ringcfg e.1 0
      c.getLsbD 39 = true ∧ (arrayed.tile 0).ringown.toNat / 4 ^ e.1 % 4 = 0 ∧ c.toNat / 2 ^ 24 % 256 = e.2)
    ∧ (entryAt (arrayed.tile 0).ringcfg 0 0).getLsbD 39 = false
    ∧ arrayed.self.lease = .held ∧ arrayed.self.leaseEnding = false ∧ arrayed.arrayPlace 0 = true
    ∧ State.reset.self.accValid = false ∧ State.reset.canIssue (reachOp [] [] 0) := by
  refine ⟨?_, canIssue_all ?_, ?_, ?_, ?_, ?_, ?_, ?_, ?_, ?_, ?_, canIssue_of ?_⟩ <;> decide +kernel

theorem witness_BankAndRingCommandsEnterTheQueue :
    let s := tenanted (arrayed.onHart 0 fun h => ({ h with mode := .kernel } : Hart).writeMshape 0x70)
    isSup s.cur = false
    ∧ (∀ o ∈ [reachOp [] [] 0, reachOp [] [.g 3] 0, reachOp [] [.m 0] 0, reachOp [.m 0] [] 0, reachOp [.g 1, .g 2] [] 0], s.canIssue o)
    ∧ (s.self.mRows 0, s.self.mWidth 0) = (16, 64) ∧ s.arrayPlace 0 = true ∧ s.roomItems 0 1 = true
    ∧ s.acting.drainTrap 0 0 = none ∧ s.acting.drainTrap 0xFFFFFFFFFFFFFFFF 0 ≠ none := by
  refine ⟨?_, canIssue_all ?_, ?_⟩ <;> decide +kernel

/-! Homes: a store and a load of hart 0 to its own slice under way, and what the machine makes of them. -/

def storing : State := nextOf (exec (.stw 0 2 1 0) inSlice)
def theStore : Posted := (storing.self.posted[0]?).getD default
def loading : State := nextOf (exec (.ldw 0 3 1 0) inSlice)
def adding : State := nextOf (exec (.amoadd 0 3 1 2 1) inSlice)

/-- An access of hart 0 with one part. -/
def oneAccess (op : HomeOp) (since : Option Nat) (status : PartStatus) : Access :=
  { id := 5, op := op, dst := .g 3 8 false, seq := 0, since := since, acquire := none, word := 0, snap := State.reset.self.snapshot
    parts := [{ va := 0xFFFF000000000100, place := slicePlace 0 0x100, len := 8, dst := 0, status := status, released := true
                seq := none }] }

def accessing (a : Access) : State := State.reset.onHart 0 fun x => { x with flights := [a] }

theorem witness_HomesPerformLineRequests_store :
    (storing.hart 0).access theStore.id = none ∧ (storing.hart 0).posted.find? (fun o => o.id == theStore.id) = some theStore
    ∧ theStore.released = true ∧ storing.serves 0 theStore.place = true ∧ storing.hbmReady theStore.id 0 theStore.place = true
    ∧ storing.inTurn 0 theStore.place theStore.via theStore.seq = .inTurn
    ∧ (∀ o ∈ (storing.hart 0).posted.takeWhile (fun o => o.id != theStore.id), o.meets theStore = false)
    ∧ Memory.wf storing.mem = true ∧ storing.unreadable theStore.place = false ∧ theStore.place.home = .slice 0
    ∧ (storing.tile 0).flips = []
    ∧ theStore.op = .store ((List.range 4).map fun i => some ((inSlice.self.finalG 2).extractLsb' (8 * i) 8)) := by
  decide +kernel

/-- A load and an AMO of the own slice arrive at their home. -/
theorem witness_HomesPerformLineRequests_arrive :
    ∀ s ∈ [loading, adding], (s.self.flights.map fun a => (s.self.access a.id).isSome && !a.blocked && a.parts.all fun p =>
      p.status == .sent && p.released && s.self.flights.all (fun o => o.id != a.id || o == a) && s.serves 0 p.place && s.hbmReady a.id 0 p.place && s.inTurn 0 p.place p.via p.seq == .inTurn
        && s.self.posted.all (fun o => !o.meetsPart a p) && ownPlace 0 p.place && s.answerRoom 0 p.place && !s.unreadable p.place
       
        && p.place.home == .slice 0 && !(s.tile 0).isEmpty p.place.off && Memory.wf s.mem && (s.tile 0).flips.isEmpty) = [true] := by
  decide +kernel

/-- A load of a line of die 7 that no queue holds yet, and the same in the open batch of its channel. -/
theorem witness_HomesPerformLineRequests_queue :
    let far : Access := { oneAccess .load none .sent with parts := [{ va := 0, place := hbmPlace 7 0, len := 8, dst := 0
                                                                      status := .sent, released := true, seq := none }] }
    let s := accessing far
    let q := (s.enqueueHbm 0 5 0 (hbmPlace 7 0)).formBatch 7 0
    s.serves 0 (hbmPlace 7 0) = true ∧ s.inTurn 0 (hbmPlace 7 0) none none = .inTurn ∧ far.blocked = false
    ∧ (hbmPlace 7 0).isSlice = false ∧ s.hbmQueued 5 0 (hbmPlace 7 0) = false ∧ s.hbmReady 5 0 (hbmPlace 7 0) = false
    ∧ q.hbmQueued 5 0 (hbmPlace 7 0) = true ∧ q.hbmReady 5 0 (hbmPlace 7 0) = true ∧ q.answerRoom 0 (hbmPlace 7 0) = true := by
  decide +kernel

/-- Answered, with an error, with a result waiting, with a fixed result, sent again, and past FEWAIT. -/
theorem witness_HomesPerformLineRequests_answers :
    let done := accessing (oneAccess .load none (.done [1, 2, 3, 4, 5, 6, 7, 8]))
    let bad := accessing (oneAccess .load none .bad)
    let retry := accessing (oneAccess .load (some 0) (.retry 64))
    (done.self.access 5).isSome = true ∧ (∀ o ∈ done.self.flights, ¬ o.seq < 0) ∧ done.answersOf 0 5 = [] ∧ bad.answersOf 0 5 = []
    ∧ ((bad.self.access 5).map (·.performed)) = some true ∧ (∀ a ∈ bad.self.flights, ∀ q ∈ a.parts, q.status = .bad)
    ∧ (nextOf (exec (.fdiv 0 3 1 2 0) State.reset)).self.board.length = 1
    ∧ (∃ f, (nextOf (exec (.mul 0 3 1 2) State.reset)).self.fixed = [f] ∧ f.written = false)
    ∧ ({ retry with tick := 64 } : State).cycle 0 = 64
    ∧ (let wait := ({ accessing (oneAccess .load (some 0) .waiting) with tick := 2 ^ 20 } : State).onTile 0 fun t =>
        { t with empty := [0x100 / 128] }
       0 + (wait.tile 0).feWait ≤ wait.cycle 0 ∧ ∀ a ∈ wait.self.flights, ∀ q ∈ a.parts, wait.partEmpty q = true) := by
  refine ⟨?_, ?_, ?_, ?_, ?_, ?_, ?_, ⟨_, rfl, ?_⟩, ?_, ?_⟩ <;> decide +kernel

theorem witness_HomesAreKept :
    (let s := State.reset.onTile 3 fun t => { t with flips := [(0x88, 5)] }
     (s.tile 3).flips = [(0x88, 5)] ∧ 0x88 % 8 = 0 ∧ 0x88 % 2 ^ 22 / 128 * 128 ≤ 0x88 ∧ 0x88 < 0x88 % 2 ^ 22 / 128 * 128 + 128)
    ∧ (let s := State.reset.onTile 3 fun t => { t with flips := [(0x80, 5), (0x100, 6)] }
       (s.tile 3).sramLost 0x80 128 = true ∧ (s.tile 3).failed = false)
    ∧ (∀ r ∈ ((State.reset.die 47).channels.get 31 default).queue, r.marked = false)
    ∧ State.reset.mitigating ((State.reset.die 47).channels.get 31 default) = false
    ∧ State.reset.patrolDue ((State.reset.die 47).channels.get 31 default) ≤ State.reset.tick
    ∧ State.reset.hbmAdmits .patrol (hbmPlace 47 (channelLine 31 0)) = true
    ∧ (let s := State.reset.onDie 0 fun x => { x with
        channels := [(0, { queue := [], batch := [], activations := [(7, State.reset.hbm.actTh)], openRow := [], patrolled := 0 })] }
       s.hbm.actTh ≤ ((s.die 0).channels.get 0 default).activations.get (0 * 2 ^ 20 + 7) 0)
    ∧ (((nextOf (exec (.lwatch 0 1) inSlice)).tile 0).watches.map fun w => (w.hart, w.die)) = [(0, some 0)]
    ∧ (nextOf (exec (.lwatch 0 1) inSlice)).directory 0 < 512
    ∧ (let s := { withHart (fun h => { h with lwaitSince := some 0, lwaitUntil := some 40 }) with tick := 40 }
       (s.hart 0).lwaitSince.isSome = true ∧ (s.hart 0).lwaitUntil = some 40 ∧ 40 ≤ s.tick) := by
  decide +kernel

/-- A mailbox holds a message. -/
theorem witness_mailbox_room (d : Nat) : (State.reset.die d).mailbox.length < Config.mailboxSlots := Nat.succ_pos _

/-- A watch of a line of die 7 whose directory is full. -/
theorem witness_HomesAreKept_directory :
    let w : Watch := { hart := 0, place := hbmPlace 7 0, trig := false, registered := true }
    let s := State.reset.onTile 0 fun t => { t with watches := (List.range 512).map fun i => { w with place := hbmPlace 7 (128 * i) } }
    (s.tile 0).watches[0]? = some w ∧ w.hart = 0 ∧ w.die = some 7 ∧ 512 ≤ s.directory 7 ∧ w.registered = true := by
  decide +kernel

/-! Packets on their last hop to VT 1 from VT 0. -/

def packetOf (dst : Node) (body : PacketBody) (seq : Option Nat) : Packet :=
  { id := 9, src := .tile 0, dst := dst, body := body, stream := seq.map fun _ => .assured, seq := seq, outOfTurn := false }

/-- Tenant 0 routes by column before row, as reset leaves it. -/
def carrying (p : Packet) : State := tenanted { State.reset with net := [p] }

def mail (vnet : Nat) : Packet :=
  packetOf (.tile 1) (.message 0x1001 { header := BitVec.ofNat 64 (0x30 + vnet * 2 ^ 28), payload := [] } (some 0) (some 5) false) none

theorem witness_MessagesArriveOrComeBack :
    (let k := (carrying (mail 0)).capture 1 (.item 9)
     (carrying (mail 0)).packet 9 = some (mail 0) ∧ destVt 0x1001 = 1 ∧ destChan 0x1001 ≠ 3
     ∧ k.delivers (.tile 0) 1 0x30 = true ∧ (k.tile 1).mailGate = .takes ∧ k.verdict (mail 0) = .inTurn ∧ hdrVnet 0x30 = 0
     ∧ (({ carrying (mail 0) with tenants := [] } : State).capture 1 (.item 9)).delivers (.tile 0) 1 0x30 = false)
    ∧ (let p := { mail 0 with stream := some .refusable, seq := some 0 }
       let k := ((carrying p).setSeqHigh (.tile 1) 0 .refusable 0).capture 1 (.item 9)
       (k.tile 1).mailGate ≠ .waits ∧ k.verdict p = .duplicate)
    ∧ (let p := { mail 0 with stream := some .refusable, seq := some 7 }
       let k := (carrying p).capture 1 (.item 9)
       (k.tile 1).mailGate ≠ .waits ∧ k.verdict p = .outOfTurn)
    ∧ ∀ n ∈ [1, 2, 3], let k := (carrying (mail n)).capture 1 (.item 9)
       hdrVnet (BitVec.ofNat 64 (0x30 + n * 2 ^ 28)) = n ∧ k.delivers (.tile 0) 1 (BitVec.ofNat 64 (0x30 + n * 2 ^ 28)) = true
       ∧ k.verdict (mail n) = .inTurn ∧ (k.tile 1).mailGate = .takes := by
  decide +kernel

/-- A reply with a reserved slot and one without; a message of the network in a tile that holds its clock. -/
theorem witness_MessagesArriveOrComeBack_replies :
    (let k := (carrying (mail 1)).capture 1 (.item 9)
     (k.hart 4).csr.replyres = 0 ∧ (k.tile 1).hasRoom 64 = true)
    ∧ (((carrying (mail 1)).onHart 4 fun x => { x with csr := { x.csr with replyres := 2 } }).hart 4).csr.replyres ≠ 0
    ∧ (((carrying (mail 0)).onTile 1 fun t => { t with cond := .hold }).tile 1).mailGate = .takes := by
  decide +kernel

/-- A record for a die supervisor whose mailbox is full, and a message for the panel supervisor. -/
theorem witness_MessagesArriveOrComeBack_supervisors :
    Config.mailboxSlots ≤ (List.replicate Config.mailboxSlots (Node.host, 0, ({ header := 0, payload := [] } : Msg))).length
    ∧ hdrClass (0x0F : Word) = 0x0F
    ∧ (let p := packetOf .panelSup (.message 0 { header := 0x0F, payload := [] } none none false) none
       (carrying p).packet 9 = some p ∧ (carrying p).verdict p = .inTurn)
    ∧ (let p := packetOf (.dieSup 3) (.message 0 { header := 0x0F, payload := [] } none none false) none
       (carrying p).packet 9 = some p ∧ (carrying p).verdict p = .inTurn) := by
  refine ⟨?_, ?_⟩
  · simp
  · decide +kernel

/-- A bounced entry of hart 4's send queue, one to be sent again, counters, barriers and void markers. -/
theorem witness_AnswersCountersAndBarrierOps :
    let q : SendEntry := { id := 5, dest := 0x1000, msg := { header := 0x30, payload := [] }, acked := false, state := .bounced 0
                           refusals := 64, seq := none, spawn := true }
    let s := (carrying (packetOf (.tile 1) (.bounce 4 5) none)).onHart 4 fun x => { x with sendq := [q] }
    s.packet 9 = some (packetOf (.tile 1) (.bounce 4 5) none) ∧ (s.tile 1).gate = .takes ∧ (s.tile 1).hasRoom 64 = true
    ∧ (s.hart 4).sendq.find? (fun o => o.id == 5) = some q
    ∧ q.state = .bounced 0 ∧ 0 ≤ s.cycle 1 ∧ isSup 4 = false ∧ (s.tile (hartVt 4)).sends = true
    ∧ s.holdsAnswers (.tile 1) = false
    ∧ (let p := packetOf (.dieSup 1) (.counterUpdate 4101 (-1) 0 none none none) none
       (carrying p).verdict p = .inTurn ∧ ((carrying p).counter 4101).value.toNat + (-1) < (0 : Int))
    ∧ (let p := packetOf (.dieSup 1) (.counterUpdate 4101 1 0 none none none) none
       (carrying p).verdict p = .inTurn ∧ (0 : Int) < ((carrying p).counter 4101).value.toNat + 1)
    ∧ (let p := packetOf (.tile 1) (.barrier 0x3001 .arrive 0) none
       (carrying p).verdict p = .inTurn ∧ ((carrying p).tile 1).gate = .takes)
    ∧ (let p := { packetOf (.tile 1) (.barrier 0x3001 .arrive 0) (some 0) with outOfTurn := true }
       (carrying p).verdict p ≠ .outOfTurn)
    ∧ (carrying (packetOf (.tile 1) .void none)).verdict (packetOf (.tile 1) .void none) = .inTurn := by
  decide +kernel

/-- An addend of ones for line 0x100 of the slice of VT 1. -/
def addend : Addend :=
  { id := 5, key := { place := slicePlace 1 0x100, cls := .s32, launch := 0, rdw := false }, va := 0xFFFE000000400100, value := 1
    flush := false, srcVt := 0, hart := some 0, since := 0 }

theorem witness_AccumulatesReachTheirUnit :
    (let p := packetOf (.tile 1) (.addend addend) none
     let s := carrying p
     s.packet 9 = some p ∧ s.verdict p = .inTurn ∧ addend.flush = false ∧ (s.tile 1).gate = .takes
     ∧ ((s.tile 1).freshQuota (s.cycle 1)).unitQueue.length < 32
     ∧ ((s.tile 1).freshQuota (s.cycle 1)).accepted.get 0 0 < ((s.tile 1).freshQuota (s.cycle 1)).quota.toNat % 256)
    ∧ (let p := packetOf (.tile 1) (.addend addend) none
       let s := State.reset.onTile 1 fun t => { t with unitQueue := [p] }
       (s.tile 1).unitRuns = true ∧ s.accServed (.tile 1) addend.key.place = true ∧ (s.tile 1).unitTurn = false
       ∧ (s.tile 1).unitQueue = [p]
       ∧ Memory.wf s.mem = true ∧ s.unreadable addend.key.place = false ∧ addend.key.place.home = .slice 1 ∧ (s.tile 1).flips = [])
    ∧ (let p := { packetOf (.tile 0) (.accBounce addend) none with seq := some 3 }
       let s := (carrying p).onHart 0 fun x => { x with accs := [5] }
       s.packet 9 = some p ∧ (s.tile 0).gate = .takes ∧ (s.tile 0).tail.length < 128 ∧ (s.capture 0 (.item 9)).awaits 0 addend = true)
    ∧ (let a := { addend with hart := none }
       let p := packetOf (.tile 0) (.accOutcome a false) none
       (carrying p).packet 9 = some p ∧ ((carrying p).tile 0).gate = .takes ∧ a.flush = false)
    ∧ (let p := packetOf (.tile 1) (.addend addend) none
       let s := (carrying p).onTile 1 fun t => { t with cond := .hold }
       ((s.capture 1 (.item 9)).tile 1).gate = .refuses)
    ∧ (let p := packetOf .switch (.switchAddend addend 2) none
       (carrying p).verdict p = .inTurn ∧ (carrying p).switch.find? (fun o => o.key == addend.key && o.port == 2) = none)
    ∧ (let b : SwitchBuffer := { id := 3, key := addend.key, value := 1, va := addend.va, addends := [addend], since := 0
                                 refused := true, sent := false, port := 2 }
       let s := { State.reset with switch := [b], tick := 1050 }
       s.switch.find? (fun o => o.id == 3) = some b ∧ b.since + 1050 ≤ s.tick) := by
  decide +kernel

/-- A copy card of 128 bytes of the own slice, and a ring feed of one 4-KiB entry, in the window of VT 0. -/
def copyCard : Card :=
  { id := 5, hart := 0, dw := [BitVec.ofNat 64 (1 + 5 * 256 + 128 * 2 ^ 32), 0xFFFF000000000000, 0xFFFF000000001000, 0], iset := 0, tenant := 0
    mode := .user, map := none }

def windowed (w : WindowCard) : State := tenanted (State.reset.onTile 0 fun t => { t with window := [w] })

def queued (c : Card) : WindowCard :=
  { card := c, edges := [], started := false, marks := [], pending := [], outgoing := [], entries := 0, fail := none, admitted := 0 }

theorem witness_CardsAndMreqsMoveTheirLines :
    (let s := State.reset.onHart 2 fun x => { x with fifo := [copyCard] }
     2 = ((s.tile 0).lastAdmit + 1 + ((2 + 4 - ((s.tile 0).lastAdmit + 1) % 4) % 4)) % 4 ∧ (s.hart 2).fifo = [copyCard]
     ∧ (s.hart 0).fifo = [] ∧ (s.hart 1).fifo = [] ∧ (s.hart 3).fifo = [] ∧ (s.tile 0).cond = .running ∧ (s.tile 0).window.length < 64)
    ∧ (((windowed (queued copyCard)).tile 0).card 5 = some (queued copyCard) ∧ ((windowed (queued copyCard)).tile 0).cardsRun = true
       ∧ ((windowed (queued copyCard)).tile 0).cond ≠ .hold ∧ (queued copyCard).started = false
       ∧ (((windowed (queued copyCard)).tile 0).window.filter (·.started)).length < 16 ∧ (queued copyCard).edges = [])
    ∧ (let w := { queued copyCard with started := true, pending := [0] }
       let s := windowed w
       (s.tile 0).cardWrites = [] ∧ w.marks = [] ∧ w.fail = none ∧ 0 ∈ w.pending ∧ (s.tile 0).ringTurn w 0 = true)
    ∧ (let w := { queued copyCard with started := true }
       w.outgoing = [] ∧ w.pending = [] ∧ ((windowed w).tile 0).entriesDone w = true) := by
  decide +kernel

/-- The piece is read first, with the place it goes to; then it is written: to the own slice, or into the hold for the slice of
VT 1. A source outside every tenant fails, and so does a destination. -/
theorem witness_CardsAndMreqsMoveTheirLines_piece :
    (let w := { queued copyCard with started := true, pending := [0] }
     let s := windowed w
     let src := w.sources 0xFFFF000000000000 0xFFFF000000001000 128
     let bs := w.bytesOf 0 0xFFFF000000001000 src
     (s.tile 0).pieceWhere w 0 = some (0xFFFF000000000000, 0xFFFF000000001000, 128) ∧ (s.tile 0).overfed w = false ∧ w.bound = none
     ∧ w.missing src bs = [0xFFFF000000000000]
     ∧ (match (s.freeBelow 1).2.cardLine (s.cardCtx w.card) 0xFFFF000000000000 (spanOf src 0xFFFF000000000000) with
       | (_, .ok xs) => xs.length == 128
       | _ => false) = true
     ∧ (match ({ s with tenants := [] } : State).cardLine (s.cardCtx w.card) 0xFFFF000000000000 128 with
       | (_, .error (some (e, va))) => e == .tenantViol && va == 0xFFFF000000000000
       | _ => false) = true)
    ∧ ∀ dst ∈ [0xFFFF000000001000, 0xFFFE000000401000],
      let c := { copyCard with dw := copyCard.dw.set 2 (BitVec.ofNat 64 dst) }
      let w := { queued c with started := true, pending := [0], fetched := [(0, List.replicate 128 (some 1))] }
      let s := windowed w
      let src := w.sources 0xFFFF000000000000 dst 128
      let bs := w.bytesOf 0 dst src
      (s.tile 0).pieceWhere w 0 = some (0xFFFF000000000000, dst, 128) ∧ w.missing src bs = [] ∧ bs ≠ [] ∧ (∀ o ∈ bs, o ≠ none)
      ∧ (s.tile 0).cardWrites = [] ∧ w.marks = [] ∧ w.fail = none ∧ w.bound = none ∧ (s.tile 0).overfed w = false
      ∧ (s.tile 0).ringTurn w 0 = true ∧ (s.tile 0).hasRoom 192 = true ∧ (s.tile 0).hasRoom 128 = true
      ∧ (match s.locate (s.cardCtx w.card) (BitVec.ofNat 64 dst) .store true with
        | (t, .ok l) => l.place.home == .slice (if dst == 0xFFFF000000001000 then 0 else 1) && !t.sramStops l.place 128
            && !(t.tile 0).logFull && !(t.tile 0).replaying && (t.tile 0).hasRoom 128
        | _ => false) = true
      ∧ (match s.locate (s.cardCtx w.card) (BitVec.ofNat 64 0xFFFF000000400000) .store true with
        | (_, .error (some e)) => e == .storePf
        | _ => false) = true := by
  decide +kernel

/-- A write that has left the hold for its home, the slice of VT 1, and an MREQ of two lines from die 7, a line of which has been
read. -/
theorem witness_CardsAndMreqsMoveTheirLines_writes :
    (let cw : CardWrite := { card := 5, line := 0, place := slicePlace 1 0x100, data := solid [1, 2, 3], fe := none, seq := some 1 }
     let s := State.reset.onTile 0 fun t => { t with cardWrites := [cw] }
     (s.tile 0).cardWrites.find? (fun o => o.card == 5 && o.line == 0) = some cw ∧ Memory.wf s.mem = true
     ∧ s.unreadable cw.place = false ∧ cw.fe = none ∧ s.servesEngine 0 cw.place = true ∧ s.hbmAdmits (.tile 0) cw.place = true
     ∧ (s.tile 1).flips = [] ∧ seqVerdict (s.seqHigh (cw.via.getD (s.placeNode cw.place)) 0 .assured) (cw.seq.getD 0) = .inTurn)
    ∧ (let m : Mreq := { id := 5, hart := 0, cls := 0x30, dest := 0, desc := 0x10000000, src := 0x40000000
                         places := [hbmPlace 7 0, hbmPlace 7 128], pending := [0, 1], firstBad := none, tenant := 0, launch := 0
                         since := 0, acked := false }
       let s := State.reset.onTile 0 fun t => { t with mreqs := [m] }
       let m2 := { m with fetched := [(0, List.replicate 128 1)] }
       (s.tile 0).mreqs.find? (fun o => o.id == 5) = some m ∧ m.places[0]? = some (hbmPlace 7 0) ∧ (∃ k ∈ m.pending, k ≠ 0)
       ∧ (s.tile 0).cardsRun = true ∧ (∀ o ∈ s.self.posted, o.place.line ≠ (hbmPlace 7 0).line) ∧ bit m.desc 35 = false
       ∧ (s.tile 0).flips = [] ∧ s.unreadable (hbmPlace 7 0) = false ∧ s.hbmAdmits (.tile 0) (hbmPlace 7 0) = true
       ∧ m.fetched.find 0 = none ∧ m2.fetched.find 0 = some (List.replicate 128 1)) := by
  decide +kernel

/-- A command of hart 0 in the array queue of VT 0, at cycle 10, and the command running. -/
def command (op : ArrayOp) : ArrayCmd := { id := 5, hart := 0, op := op, seq := 0, issued := 0, user := false, snap := none }
def waitingCmd (op : ArrayOp) : State := ({ State.reset with tick := 10 } : State).onTile 0 fun t => { t with queue := [command op] }
def runningCmd (op : ArrayOp) (bytes : List Byte) : State := ({ State.reset with tick := 10 } : State).onTile 0 fun t => { t with
  running := some { cmd := command op, retireAt := 5, a := bytes, b := bytes } }

theorem witness_ArrayCommandsRun :
    (∀ op ∈ [.mzero, .mma .i8 1 2 true 0 0, .mdrain 5],
      ((waitingCmd op).tile 0).running = none ∧ ((waitingCmd op).tile 0).arrayStarts = true
      ∧ ((waitingCmd op).tile 0).lastRetire < (waitingCmd op).cycle 0 ∧ ((waitingCmd op).tile 0).flips = []
      ∧ (command op).issued < (waitingCmd op).cycle 0)
    ∧ ((waitingCmd .mzero).tile 0).commandReady .mzero = true ∧ ArrayOp.isControl .mzero = true
    ∧ (let s := (waitingCmd (.mma .i8 1 2 true 0 0)).onTile 0 fun t => { t with
        ringcfg := ((t.ringcfg.set 1 (BitVec.ofNat 64 (64 * 2 ^ 24 + 4 * 2 ^ 32 + 2 ^ 39))).set 2 (BitVec.ofNat 64 (64 * 2 ^ 24 + 4 * 2 ^ 32 + 2 ^ 39)))
        ringptr := (t.ringptr.set 1 256).set 2 256 }
       (s.tile 0).commandReady (.mma .i8 1 2 true 0 0) = true)
    ∧ ((runningCmd .mzero []).tile 0).running.map (·.retireAt) = some 5 ∧ 5 ≤ (runningCmd .mzero []).cycle 0
    ∧ ((waitingCmd (.rpop 1)).tile 0).queue.find? (fun o => o.hart == 0) = some (command (.rpop 1))
    ∧ (entryAt ((runningCmd .mzero []).tile 0).banks 0 Bank.reset).inject = none := by
  decide +kernel

/-- A released MDRAIN of VT 0 to offset 0x1000 of VT 1, before its first row and after its last. -/
theorem witness_ArrayCommandsRun_drain :
    let d (rows : List Nat) : Drain :=
      { id := 5, hart := 0, word := BitVec.ofNat 64 (1 + 0x1000 * 2 ^ 16), header := 0, entry := 0
        copy := some (List.replicate 4096 1), needs := [], released := true, seqs := [1], rows := rows }
    let s (rows : List Nat) := State.reset.onTile 0 fun t => { t with drains := [d rows] }
    destVt (d []).word = 1 ∧ ((s [127]).tile 1).gate = .takes ∧ ((s [127]).tile 1).flips = [] ∧ Memory.wf (s [127]).mem = true
    ∧ seqVerdict ((s (List.range 128)).seqHigh (.tile 1) 0 .assured)
      ((((s []).tile 0).numberOf (.tile 1) .assured ((d []).rowKey 0)).getD ((d []).seqs.headD 0)) = .inTurn ∧ (s []).roomItems 0 1 = true
    ∧ (s []).releasedBefore 0 0 = true ∧ (d (List.range 128)).copy.map List.length = some 4096
    ∧ ((s []).tile 0).drains.length = 1 := by
  decide +kernel

/-- A boundary, a hart that asks, a holder whose slot another hart has, the lane arbiter and the SFU. -/
theorem witness_GrantsAndSpecialFunctionResults :
    (let s := { State.reset with tick := 256 }
     let asks := s.onHart 1 fun x => { x with lease := .req }
     (s.tile 0).slotAt + 1 = s.cycle 0 / 256 ∧ (s.tile 0).leasesMove = true ∧ (s.tile 0).slottabNext = none ∧ s.leaseHolder 0 = none
     ∧ asks.leasePick 0 (fun q => (asks.hart q).lease == .req) = some 1
     ∧ ({ asks with tick := 0 } : State).cycle 0 / 256 ≤ (asks.tile 0).slotAt)
    ∧ (let s := ((({ State.reset with tick := 256 } : State).giveLease 0 0).onHart 1 fun x => { x with lease := .req }).onTile 0 fun t =>
        { t with slottab := 0x9999999999999999 }
       s.leaseHolder 0 = some 0 ∧ (s.hart 0).leaseEnding = false ∧ s.slotHart 0 = some 1 ∧ (s.hart 1).lease = .req
       ∧ (s.tile 0).slotAt < s.cycle 0 / 256 ∧ (∀ q, q < 4 → q ≠ 0 → (s.hart q).holdsLease = false))
    ∧ (let s := State.reset.onTile 0 fun t => { t with laneWant := [(0, 2)] }
       (s.tile 0).laneWant = [(0, 2)] ∧ entryAt (s.tile 0).laneFree 0 0 ≤ s.cycle 0
       ∧ (s.hart 0).denied = false)
    ∧ (let e : SfuEntry := { id := 5, hart := 0, fn := 0, type := 10, k := 0, vd := 3, source := 0, mask := 0, seq := 0, discard := false }
       let s := { (State.reset.onTile 0 fun t => { t with sfuRunning := [(e, 0)] }) with tick := 12 }
       (s.tile 0).sfuRunning = [(e, 0)] ∧ 0 + 12 ≤ s.cycle 0
       ∧ (∀ q ∈ (s.tile 0).sfuRunning, q.2 + 2 ≤ s.cycle 0)
       ∧ (let w := withHart fun x => { x with withdrawnSfu := [e], task := some { chan := 0, inlineWords := none } }
          w.stopped 0 = false ∧ w.mayIssue 0 = true ∧ (w.hart 0).withdrawnSfu = [e] ∧ (w.tile 0).sfu.length < 8)) := by
  decide +kernel

/-! Traps as steps, supervisors, the host. -/

theorem witness_TrapStepsAndDieSupervisors_harts :
    (let p : PendingTrap := { cause := .memError, tval := 8, access := none }
     let s := withHart fun x => { x with task := some { chan := 0, inlineWords := none }, pendTraps := [p] }
     s.stopped 0 = false ∧ s.inCkpt 0 = false ∧ (s.hart 0).lwaitSince = none ∧ s.interruptDue 0 = none
     ∧ (s.hart 0).pendTraps = [p] ∧ s.boundary 0 = true ∧ s.parkRoom 0 p.cause = true)
    ∧ (let p : PendingTrap := { cause := .memError, tval := 8, access := some 5 }
       let a := oneAccess .load none .bad
       let s := withHart fun x => { x with task := some { chan := 0, inlineWords := none }, pendTraps := [p], flights := [a] }
       s.stopped 0 = false ∧ s.inCkpt 0 = false ∧ s.interruptDue 0 = none ∧ p.access = some a.id ∧ (s.hart 0).flights = [a]
       ∧ (s.abandon 0).sfuBusy 0 = false ∧ s.parkRoom 0 p.cause = true ∧ s.rstats 0 = [] ∧ (s.hart 0).board = []
       ∧ (s.hart 0).lwaitSince = none)
    ∧ (let s := withHart fun x => { x with
         task := some { chan := 0, inlineWords := none }, csr := { x.csr with kip := 1, kie := 1, ktvec := 0x8000 } }
       isSup 0 = false ∧ (s.hart 0).csr.kip.getLsbD 6 = false ∧ s.interruptDue 0 = some 0)
    ∧ (let s := withHart fun x => { x with csr := { x.csr with kip := 64 } }
       (s.hart 0).csr.kip.getLsbD 6 = true ∧ (s.hart 0).halted = none ∧ (s.hart 0).lwaitSince = none ∧ s.inCkpt 0 = false ∧ (s.hart 0).midStep = false
       ∧ (s.hart 0).board = [] ∧ s.mayAbandon 0 = true ∧ (s.abandon 0).sfuBusy 0 = false)
    ∧ (let s := withHart fun x => { x with timer := some 0 }
       (s.hart 0).timer = some 0 ∧ 0 ≤ s.tick) := by
  decide +kernel

/-- A message of a class from hart 0 to the die supervisor of die 0. -/
def served (cls len : Nat) (payload : List Word) : State := tenanted { State.reset with
  dies := [(0, { Die.reset with mailbox := [(.tile 0, 0, { header := BitVec.ofNat 64 (cls + len * 2 ^ 48), payload := payload })] })] }

def parkedState (cause : BitVec 8) : ParkState := { cause := cause, tval := 0, word := 0, mode := .user }

/-- The same with hart 1 parked, its frame naming a KTVEC. -/
def parkedUnder (s : State) (cause : BitVec 8) : State :=
  ((s.onHart 1 fun x => { x with parked := some (parkedState cause) }).writeFrame 1 336 [0x8000])

theorem witness_TrapStepsAndDieSupervisors_requests :
    (hdrClass (((((served 6 2 [1, 100]).die 0).mailbox[0]?).getD default).2.2).header = 6 ∧ hartDie 1 = 0
      ∧ (served 6 2 [1, 100]).inTenant 0 (hartVt 1) = true)
    ∧ ((served 5 3 [0, 1, 16384]).inTenant 0 (hartVt 1) = true ∧ 16384 % 16384 = 0)
    ∧ (let s := parkedUnder (served 5 2 [1, 1]) 2
       bits (1 : Word) 8 56 = 0 ∧ (s.hart 1).csr.tenant = 0 ∧ (s.hart 1).parked = some (parkedState 2)
       ∧ s.frameWord 1 336 &&& ~~~(3#64) ≠ 0 ∧ s.drained 1 = true ∧ s.roomItems 1 4 = true ∧ s.barrierOpsOut 1 = false)
    ∧ (let s := (served 5 2 [2, 1]).onHart 1 fun x => { x with csr := { x.csr with launchid := 7 } }
       s.zeroFlushed 1 = true)
    ∧ (∀ y ∈ ((served 0x0F 6 [0, 0, 0, 0, 0, 2 ^ 17]).die 0).dumps, y.started = false)
    ∧ recordKind { header := 0x0F, payload := [0, 0, 0, 0, 0, 2 ^ 17] } = 2
    ∧ (served 0x0F 6 [0, 0, 0, 0, 0, 2 ^ 17]).dumpArea 0 0 = 0
    ∧ (let s := (served 0x0F 6 [0, 0, 0, 0, 0, 2 ^ 17]).onDie 0 fun y => { y with faultRegs := [(0, { hart := some 1, dump := 16384 })] }
       s.dumpArea 0 0 ≠ 0) := by
  decide +kernel

/-- Routes for a tenant of one tile. -/
theorem witness_TrapStepsAndDieSupervisors_routes :
    let s : State := { served 4 7 [0, 0, 0, 0, 0, 0, 0] with
      tenants := [(0, { oneDie := true, x0 := 0, y0 := 0, x1 := 0, y1 := 0 })] }
    s.tenants.find 0 = some { oneDie := true, x0 := 0, y0 := 0, x1 := 0, y1 := 0 }
    ∧ s.routesAccepted { oneDie := true, x0 := 0, y0 := 0, x1 := 0, y1 := 0 } 0 0
      (Msg.routeTable { header := 0, payload := [0, 0, 0, 0, 0, 0, 0] }) = true := by
  decide +kernel

/-- A request of the host's to the panel supervisor. -/
def asked (cls : Nat) (payload : List Word) : State := tenanted { State.reset with
  supMailbox := [(.host, 0, { header := BitVec.ofNat 64 cls, payload := payload })] }

/-- A LAUNCH that names no record, one of an unowned counter, and the counter requests. -/
theorem witness_PanelSupervisorServesRequests :
    (asked 0 [64]).host.doorbells = [] ∧ (asked 0 [64]).launchStatus .host { header := 0, payload := [64] } ((asked 0 [64]).launchRecord 3) = 1
    ∧ counterId 4101 = some 4101 ∧ counterId 0xFFFFF = none ∧ ((asked 1 [4101]).counter 4101).tenant = none
    ∧ (((asked 1 [4101]).setCounter 4101 { State.reset.counter 4101 with tenant := some 0 }).counter 4101).tenant = some 0
    ∧ (asked 1 [4101]).supMailbox = [(.host, 0, { header := 1, payload := [4101] })] ∧ hdrClass (1 : Word) = 1
    ∧ (∀ op ∈ [1, 2, 3, 4, 5, 6], bits (BitVec.ofNat 64 op) 0 8 = op ∧ hdrClass (7 : Word) = 7)
    ∧ (({ asked 7 [3, 3, 255] with extents := [(1023, { base := 0, length := 4096, state := 3 })] } : State).extents.get (3 * 256 + 255) default).state = 3
    ∧ (0x1000 : Nat) % 4096 = 0 ∧ 0x1000 / 2 ^ 43 = (asked 7 [4, 0x1000]).panel ∧ 0x1001 % 4096 ≠ 0 := by
  decide +kernel

/-- A record of launch 1 with entry 0x10 for hart 0 of VT 0, which the panel supervisor accepts: it lies at PA 64, its counter
is tenant 0's and at 0. -/
def oneLaunch : List Word := [0x0000000100000110, 0, 0, 0, 0, 0, 0, 0]

theorem witness_PanelSupervisorServesRequests_launch :
    let s := ((asked 0 [64]).setCounter 1 { State.reset.counter 1 with tenant := some 0 }).write none (hbmPlace 0 64)
      (solid (oneLaunch.flatMap fun w => natBytes 8 w.toNat)) none
    s.supPlace 64 = some (hbmPlace 0 64) ∧ s.unreadable (hbmPlace 0 64) = false
    ∧ ((List.range 8).map fun i => dwordAt (memBytes s.mem (hbmPlace 0 64).key 64) i) = oneLaunch
    ∧ recordFormed oneLaunch = true ∧ (s.tenants.find 0).map (recInside oneLaunch ·) = some true
    ∧ launchCounter (recLaunch oneLaunch) = some 1 ∧ (s.counter 1).tenant = some (recTenant oneLaunch) ∧ (s.counter 1).value = 0
    ∧ (s.counter 1).held = false ∧ recPv oneLaunch = false ∧ recLv oneLaunch = false ∧ recPreds oneLaunch = [] := by
  decide +kernel

/-- A window slot of class 1, free and live extents, a link, a die that samples, and an access through BAR2. -/
theorem witness_PanelAndHostEvents :
    (let s : State := { State.reset with host := { HostBlock.reset with window := [(5, [1] ++ List.replicate 63 0)] } }
     [0, 1, 7].contains (hdrClass (dwordAt (s.host.window.get 5 (List.replicate 64 0)) 0)) = true
     ∧ ∀ e ∈ s.supMailbox, e.1 = .host → [0, 1, 7].contains (hdrClass e.2.2.header) = true)
    ∧ State.reset.readyAt ≤ State.reset.tick ∧ State.reset.host.doorbells = [] ∧ ({ State.reset with readyAt := 9 } : State).tick < 9
    ∧ (State.reset.extents.get (3 * 256 + 255) default).state = 0
    ∧ ({ State.reset with extents := [(1023, { base := 0, length := 4096, state := 1 })] } : State).extents.get 1023 default
      = { base := 0, length := 4096, state := 1 }
    ∧ State.reset.hbmAdmits (.ioDie 0) (hbmPlace 0 4) = true
    ∧ (({ State.reset.blob with imageKeys := [(7, [1])] } : Blob).imageKeys).find 7 = some [1]
    ∧ (({ State.reset with extents := [(1023, { base := 0, length := 4096, state := 2 })] } : State).extents.get 1023 default).state = 2
    ∧ State.reset.supPlace (State.reset.panel * 2 ^ 43 + State.reset.host.base.toNat + 4) = some (hbmPlace 0 4)
    ∧ (hbmPlace 0 4).off % 128 + 8 ≤ 128 ∧ 4 + 8 ≤ 2 ^ State.reset.host.bar2 ∧ State.reset.unreadable (hbmPlace 0 4) = false
    ∧ (hbmPlace 0 4).unstated = false
    ∧ State.reset.portsDown.contains 3 = false ∧ State.reset.linkFails.get 3 0 < 15
    ∧ 15 ≤ ({ State.reset with linkFails := [(3, 15)] } : State).linkFails.get 3 0
    ∧ (let s := ({ State.reset with tick := 4096 } : State).onDie 1 fun x => { x with sampctl := 0x101 }
       bit (s.die 1).sampctl 0 = true ∧ (s.die 1).lastPulse + max 1 (bits (s.die 1).sampctl 8 24) * 1024 ≤ s.tick) := by
  decide +kernel

/-- FIPS 180-4: the digest of "abc". -/
theorem test_sha512 : (sha512 [0x61, 0x62, 0x63]).take 8 = [0xDD, 0xAF, 0x35, 0xA1, 0x93, 0x61, 0x7A, 0xBA] := by decide +kernel

/-- A segment of the file's first three bytes. -/
def seg (digest : List Byte) : Segment :=
  { isText := true, flags := 0, target := 0xFFFF000000001000, offset := 0, length := 3, digest := digest, signature := [] }

/-- An image of a segment whose digest is not that of its bytes, and one of a segment whose digest is. -/
theorem witness_PanelAndHostEvents_image :
    sha512 (segmentBytes (seg [1]) [0x61, 0x62, 0x63]) ≠ (seg [1]).digest
    ∧ sha512 (segmentBytes (seg (sha512 [0x61, 0x62, 0x63])) [0x61, 0x62, 0x63]) = (seg (sha512 [0x61, 0x62, 0x63])).digest := by
  decide +kernel

/-- Where its bytes go: one page of the own slice of hart 0's tile. -/
theorem witness_PanelAndHostEvents_segment :
    ((tenanted State.reset).segmentPlaces 0 0xFFFF000000001000 (pageCuts 0xFFFF000000001000 [1, 2] 2)).2.map List.length = some 1 := by
  decide +kernel

/-- A launch that is being injected, one of no tasks and one of one task. -/
theorem witness_PanelAndHostEvents_launch :
    let l (n : Word) (inj : Bool) : Launch := { number := 1, record := [n, 0, 0, 0, 0, 0, 0, 0], injecting := inj, toPlace := [] }
    let s (l : Launch) : State := tenanted { State.reset with launches := [l] }
    (s (l 0 true)).launches = [l 0 true] ∧ launchCounter 1 = some 1 ∧ recPreds (l 0 false).record = []
    ∧ ((s (l 0 false)).launchVts (l 0 false).record).length * (recHartList (l 0 false).record).length
      = ((s (l 0 false)).launchVts (l 0 false).record).length * (recHartList (l 0 false).record).length := by
  decide +kernel

theorem witness_RegisterWritesAsSteps :
    ((withHart fun x => { x with halted := some 0 }).hart 0).halted.isSome = true
    ∧ State.reset.csrExists 0x005 = true ∧ State.reset.panelHalt = none ∧ State.reset.ptOf (47 * 64 + (State.reset.die 47).vidx.toNat) < 4096
    ∧ State.reset.vtOf 0 63 = some 63 ∧ (State.reset.tile 63).flips = [] ∧ 0x3FFFF8 < 2 ^ 22 ∧ 0x3FFFF8 % 8 = 0 := by
  decide +kernel

/-! Checks, checkpoints, rollback, rotation, clock, power. -/

theorem witness_ChecksCheckpointsAndReplay :
    (let d : Verdict := { id := 5, hart := 0, retired := 0, pass := true }
     let s := ({ State.reset with tick := 4 } : State).onTile 0 fun t => { t with verdicts := [d] }
     (s.tile 0).verdicts = [d] ∧ d.retired + 4 ≤ s.cycle 0)
    ∧ (let c : PendingCheck := { checkId := 5, pass := false, retired := 0 }
       let s := ({ State.reset with tick := 4 } : State).onHart 0 fun x => { x with checker := { x.checker with pending := [c] } }
       (s.hart 0).checker.pending = [c] ∧ c.retired + 4 ≤ s.cycle 0)
    ∧ (let s := withHart fun x => { x with csr := { x.csr with ckptctl := 4096 } }
       (s.hart 0).csr.ckptctl ≠ 0 ∧ (({ s with tick := (s.hart 0).ckptDue } : State).hart 0).ckptDue ≤ (s.hart 0).ckptDue)
    ∧ (State.reset.tile 0).mayCkpt = true ∧ ((State.reset.onTile 0 fun t => { t with hasCkpt := false }).tile 0).mayCkpt = true
    ∧ (let s := State.reset.onTile 0 fun t => { t with ckpting := some { by_ := none, whole := true, committed := false } }
       s.ckptDone 0 = true ∧ (s.tile 0).flips = [] ∧ (s.tile 0).ckpting.bind (·.merge) = none ∧ (s.tile 0).mustMerge = false)
    ∧ (let e : LogEntry := { body := .data 0 0 0 [], src := 1, instret := [0, 0, 0, 0] }
       ((State.reset.onTile 0 fun t => { t with log := List.replicate 900 e }).tile 0).logFull = true)
    ∧ ((State.reset.onTile 0 fun t => { t with increments := 4608, dirty := [0] }).tile 0).mustMerge = true
    ∧ (let p := packetOf (.tile 1) .void none
       let i : Held := { item := .packet p, needs := [3], bytes := 16 }
       let s := State.reset.onTile 0 fun t => { t with egress := [i] }
       (s.tile 0).egress = [i] ∧ i.item = .packet p ∧ p.stream = none ∧ (s.tile 0).failed = false
       ∧ ∀ n ∈ i.needs, (s.tile 0).unverified.contains n = false) := by
  decide +kernel

theorem witness_ChecksCheckpointsAndReplay_rollback :
    (let s := State.reset.onTile 0 fun t => { t with failed := true, hasCkpt := true }
     (s.tile 0).failed = true ∧ (s.tile 0).cond = .running ∧ (s.die (vtDie 0)).rotation = none ∧ (s.tile (0 ^^^ 1)).cond = .running
     ∧ (((s.stopVt 0).moonGone (0 ^^^ 1)).pickSpare 0).isSome = true ∧ (s.tile (0 ^^^ 1)).failed = false)
    ∧ (let s := State.reset.onTile 0 fun t => { t with cond := .rebuilding 64 }
       (s.tile 0).cond = .rebuilding 64 ∧ (s.pt (vtDie 0) 64).state = .readySpare ∧ (s.pt (vtDie 0) 64).awake = true
       ∧ (s.pt (vtDie 0) 64).clockLost = false ∧ 64 ≠ s.ptOf 0 ∧ Memory.wf s.mem = true)
    ∧ (let e : LogEntry := { body := .placed 0 1 { header := 0x30, payload := [] }, src := 1, instret := [0, 0, 0, 0] }
       let s := State.reset.onTile 0 fun t => { t with cond := .replay, replayLog := [e] }
       (s.tile 0).cond = .replay ∧ (s.tile 0).replayLog = [e] ∧ s.reached 0 e.instret = true)
    ∧ (let s := tenanted ((({ State.reset with tick := 4096 } : State).onTile 0 fun t => { t with llint := 256 }).onHart 0 fun x => { x with
         chans := x.chans.set 1 [{ msg := { header := 0x30, payload := [] }, running := false, moved := none }
                                 , { msg := { header := 0x30, payload := [] }, running := false, moved := none }] })
       s.cycle 0 % 256 = 0 ∧ s.levels 0 = true ∧ (s.tile 0).levelled ≠ some (s.cycle 0) ∧ leastOf s.sharedOf (s.levelNeighbours 0) = some 1
       ∧ s.levels 1 = true ∧ s.sharedOf 1 + 2 ≤ s.sharedOf 0) := by
  decide +kernel

/-- A message for hart 0 whose class has a handler in the tile's table. -/
theorem witness_ChecksCheckpointsAndReplay_dispatch :
    let m : Slot := { msg := { header := 0x30, payload := [] }, running := false, moved := none }
    let s := (tenanted ((State.reset.onHart 0 fun x => { x with chans := x.chans.set 0 [m] }).onTile 0 fun t =>
          { t with htbase := 0xFFFF000000000000 })).write none (slicePlace 0 0x180) (solid (natBytes 8 0x8001)) none
    s.mayDispatch 0 = true ∧ s.pickChannel 0 (s.hart 0) = some 0
    ∧ s.waitingHead 0 (s.hart 0) 0 = some { header := 0x30, payload := [] } ∧ s.launchMarked 0 = false
    ∧ hdrClass (0x30 : Word) ≠ 0xFF
    ∧ ((s.handlerEntry 0 0 0x30).2.map fun e => e.2) = some (some 0x8001) ∧ bit 0x8001 0 = true ∧ bit 0x8001 1 = false := by
  decide +kernel

/-- A PT through which no other's clock passes. -/
def leaf : Nat := 0

def rotating (phase : RotationPhase) (cond : VtCondition) (t : Nat) : State := (({ State.reset with tick := t } : State).onDie 0 fun y => { y with
  rotation := some { vt := 5, from_ := 5, to_ := 64, phase := phase, since := 0 } }).onTile 5 fun y => { y with cond := cond }

theorem witness_RotationAgeingAndClock :
    (let s : State := { State.reset with tick := (State.reset.die 47).nextRotation }
     (s.die 47).nextRotation ≤ s.tick ∧ (s.die 47).rotation = none ∧ s.panelHalt = none ∧ 2 ≤ (s.freeSpares 47).length
     ∧ s.wakeRoom 47 = true ∧ (match s.rotationPick 47 with
       | some p => (match s.vtOf 47 p with
         | some v => (s.pickSpare v).isSome
         | none => false)
       | none => false) = true)
    ∧ (let s := rotating .preCopy .running 33293
       (s.pt 0 64).state = .readySpare ∧ (s.pt 0 64).awake = true ∧ (s.pt 0 64).since + 33293 ≤ s.tick ∧ (s.tile 5).cond = .running ∧ (s.tile 5).failed = false)
    ∧ (let s := rotating .drain .drain 2100000
       (s.tile 5).cond = .drain ∧ s.hasDrained 5 = true ∧ (s.tile 5).abandoned ≠ 3)
    ∧ (let s := rotating .drain .pause 10
       (s.tile 5).cond = .pause ∧ (s.tile 5).failed = false ∧ (s.tile 5).flips = [] ∧ (s.pt 0 64).clockLost = false ∧ vtDie 5 = 0)
    ∧ (let s := ({ State.reset with tick := 15750000 } : State).onPt 0 70 fun y => { y with state := .eclipse, waking := true }
       (s.pt 0 70).state = .eclipse ∧ (s.pt 0 70).since + 15750000 ≤ s.tick ∧ (s.pt 0 70).waking = true ∧ (s.pt 0 70).clockLost = false
       ∧ (s.pt 0 70).since + 525 ≤ s.tick ∧ ∀ k, k < 72 → (s.pt 0 k).wakeWaits = false)
    ∧ (State.reset.pt 0 5).state = .inService ∧ State.reset.vtOf 0 5 = some 5 ∧ State.reset.vtOf 0 71 = none
    ∧ (State.reset.pt 0 1).parent.isSome = true ∧ State.reset.tilesUnder 0 leaf = [leaf] ∧ State.reset.vtOf 0 leaf = some leaf
    ∧ (State.reset.pt 0 leaf).parent.isSome = true ∧ (State.reset.die 0).rotation = none ∧ (State.reset.tile leaf).cond = .running
    ∧ (((State.reset.onPt 0 leaf fun y => { y with clockLost := true }).onDie 0 fun y => { y with rerooting := true }).canHold leaf) = true
    ∧ State.reset.hubClocked 0 = true
    ∧ State.reset.dieCanHold 0 = true ∧ (State.reset.die 0).hubLost = false ∧ (State.reset.die 0).standbyHub = true
    ∧ (State.reset.die 0).phasesFailed.get 17 0 + 1 ≤ 6
    ∧ (let s := State.reset.onTile 5 fun y => { y with cond := .hold }
       s.vtOf 0 5 = some 5 ∧ (s.tile 5).cond = .hold ∧ (s.pt 0 5).clockLost = false ∧ (s.tile 5).hasCkpt = true) := by
  decide +kernel

theorem witness_RotationAgeingAndClock_root : State.reset.altRoot = false ∧ State.reset.allCanHold = true := by decide +kernel

/-- A frame of sequence number 0 whose check word is right, with both values at 0. -/
def shelfBytes : List (BitVec 8) :=
  let bs : List (BitVec 8) := [0xA5, 0x5A, 0, 0, 0, 0, 0, 0, 0, 0, 3, 0, 0, 0]
  bs ++ [BitVec.ofNat 8 (crc16 bs).toNat, BitVec.ofNat 8 ((crc16 bs).toNat / 256)]

theorem witness_DroopBudgetAndPowerClasses :
    ((State.reset.pt 0 0).droopth &&& 31 ≠ 0 ∧ (State.reset.tile 0).cond ≠ .hold ∧ (State.reset.pt 0 0).clockLost = false)
    ∧ ((State.reset.onTile 0 fun t => { t with stretch := some 0, halve := some 0 }).tile 0).stretch = some 0
    ∧ (∀ i, i < 48 → (List.replicate 48 1).getD i 0 ≠ 0)
    ∧ (({ State.reset with tick := 1050000 } : State).hart 0).window < 1050000 / 1050000
    ∧ frameGood [] = false ∧ frameGood shelfBytes = true ∧ (Grid.allowed State.reset.grid shelfBytes).isSome = true
    ∧ State.reset.grid.fallback = false ∧ State.reset.grid.lastFrame + 10500000 ≤ 10500000
    ∧ (let s := State.reset.onDie 0 fun y => { y with limit := 7 }
       s.grid.limit < (s.die 0).limit)
    ∧ (let s := ({ State.reset with tick := 1575000 } : State).onDie 0 fun y => { y with limit := 0, sheds := [(0, 0)] }
       let t := s.onHart 0 fun x => { x with task := some { chan := 0, inlineWords := none }, csr := { x.csr with pclass := 3 } }
       t.contextShed 0 = true ∧ (t.hart 0).shedHold = false ∧ (∃ f ∈ (t.die 0).sheds, f.1 < (t.hart 0).csr.pclass.toNat ∧ f.2 + 1575000 ≤ t.tick)
       ∧ t.mayAbandon 0 = true ∧ (t.hart 0).board = [] ∧ (t.abandon 0).sfuBusy 0 = false ∧ t.inCkpt 0 = false ∧ t.stopped 0 = false) := by
  decide +kernel

/-! Steps, fetch and decoding, traps, checks, addresses. -/

theorem witness_ResetLeavesItsTables : 12287 < 12288 ∧ 47 < 48 ∧ 71 < 72 ∧ 3071 < 3072 := by decide

/-- `addi a0, a1, -1` in the slot of an inline task: the next move is hart 0's, whose turn issues it. -/
theorem witness_StepRunsTheDecodedInstruction :
    let t := State.reset.withFetchWord 32 0x01085FFF
    let u := t.nextMove.2.prepare t.nextMove.1
    let q := u.preemptHeld 0
    t.nextMove.1.what = .hart 0 ∧ u.inReset = none ∧ (q.hart 0).csr.kip.getLsbD 6 = false ∧ (q.hart 0).lwaitSince = none ∧ q.stopped 0 = false
    ∧ (q.hart 0).pendTraps = [] ∧ q.interruptComing 0 = none ∧ q.mayIssue 0 = true
    ∧ ((((q.reenterSfu 0 4).fetch 0).1).hart 0).atBreakpoint = false
    ∧ ((q.reenterSfu 0 4).fetch 0).2 = .ok (0x01085FFF, 0) ∧ decode 0x01085FFF 0 = .ok (.addi 0 4 5 0xFFF)
    ∧ (match u.turn 0 with
      | .issue v w w2 => v.cur == 0 && w == 0x01085FFF && w2 == 0
      | .still _ => false) = true := by
  decide +kernel

/-- The same hart with a debug halt requested, with an interrupt due, waiting in LWAIT, and at a breakpoint. -/
theorem witness_StepRunsTheDecodedInstruction_others :
    let t := State.reset.withFetchWord 32 0x01085FFF
    (let p := (t.onHart 0 fun x => { x with csr := { x.csr with kip := 64 } }).preemptHeld 0
     (p.hart 0).csr.kip.getLsbD 6 = true ∧ (p.hart 0).halted = none ∧ (p.hart 0).lwaitSince = none ∧ p.inCkpt 0 = false)
    ∧ (let p := (t.onHart 0 fun x => { x with csr := { x.csr with kip := 1, kie := 1, ie := true, ktvec := 0x8000 } }).preemptHeld 0
       (p.hart 0).csr.kip.getLsbD 6 = false ∧ (p.hart 0).lwaitSince = none ∧ p.stopped 0 = false ∧ (p.interruptDue 0).isSome = true)
    ∧ (let p := (t.onHart 0 fun x => { x with lwaitSince := some 0 }).preemptHeld 0
       p.lwaitRuns 0 = true ∧ (p.fetch 0).2 = .ok (0x01085FFF, 0) ∧ (((p.fetch 0).1).hart 0).lwaitSince.isSome = true)
    ∧ (let p := ((t.onHart 0 fun x => { x with csr := { x.csr with bp := x.csr.bp.set 0 (x.pc ||| 1) } }).preemptHeld 0).reenterSfu 0 4
       (p.fetch 0).2 = .ok (0x01085FFF, 0) ∧ (((p.fetch 0).1).hart 0).atBreakpoint = true
       ∧ (((p.fetch 0).1).hart 0).csr.dbgctl.getLsbD 4 = false) := by
  decide +kernel

/-- A stopped hart's turn stays still, an event's move is its arm, and a fetch outside the message of an inline task fails. -/
theorem witness_StepRunsTheDecodedInstruction_still :
    let e : State := { State.reset with agenda := [{ dt := 3, prompt := false, what := .event .launch }] }
    let h : State := { State.reset with agenda := [{ dt := 3, prompt := false, what := .hart 7 }] }
    let f := (State.reset.withFetchWord 32 0).onHart 0 fun x => { x with pc := 0x1000 }
    e.nextMove.1.what = .event .launch ∧ (e.nextMove.2.prepare e.nextMove.1).inReset = none
    ∧ (({ e with inReset := some .signature } : State).nextMove.2.prepare e.nextMove.1).inReset ≠ none ∧ h.nextMove.1.what = .hart 7
    ∧ (match (h.nextMove.2.prepare h.nextMove.1).turn 7 with
      | .still _ => true
      | .issue _ _ _ => false) = true
    ∧ (f.fetch 0).2 = .error (some (.inlineFault, 0x1000)) := by
  decide +kernel

/-- A step of the machine on that word: a0 takes a1 - 1. -/
theorem test_step_runs_addi :
    (match step (State.reset.withFetchWord 32 0x01085FFF) with
      | .next t => some ((t.hart 0).finalG 4)
      | _ => none) = some (-1) := by
  decide +kernel

/-- An inline task fetches its words, and a supervisor hart fetches from the memory its PC reaches. -/
theorem witness_FetchReadsTheBytesAtThePc :
    (let s := State.reset.withFetchWord 64 0x123456781FC80000
     slotIndex (s.hart 0).pc = some 0 ∧ ((s.hart 0).task.bind (·.inlineWords)) = some 2 ∧ (s.hart 0).mode = .user
     ∧ fld ((s.hart 0).slotWord 0) 22 7 = 0x7F
     ∧ (s.fetch 0).2 = .ok (0x1FC80000, 0x12345678))
    ∧ slotIndex (State.reset.hart 12288).pc = none ∧ ((State.reset.hart 12288).task.bind (·.inlineWords)) = none
    ∧ (match State.reset.locate (State.reset.ctx 12288) (State.reset.hart 12288).pc .fetch true with
      | (u, .ok l) => !u.unreadable l.place && l.place.key % 4 == 0 && !l.place.unstated && u.hbmAdmits (.tile (hartVt 12288)) l.place
      | _ => false) = true := by
  decide +kernel

theorem witness_EveryInstructionSurvivesItsEncoding :
    (Instr.liw 7 31 0xFFFFFFFF).WellFormed ∧ (Instr.dispatch 12287).WellFormed ∧ encode (.dispatch 12287) = 0
    ∧ (∀ w, Instr.liw 7 31 0xFFFFFFFF ≠ .reservedEncoding w) := by
  refine ⟨?_, ?_, ?_, fun w h => by cases h⟩ <;> decide +kernel

theorem witness_EveryDecodedWordIsItsEncoding :
    decode 0x1FC80000 0xFFFFFFFF = .ok (.liw 0 4 0xFFFFFFFF) ∧ decode 0x1A022286 0 = .ok (.maccput 0 1 2 5) := by decide +kernel

theorem witness_StepsKeepMemoryCanonical :
    Memory.wf State.reset.mem = true
    ∧ (match step (State.reset.withFetchWord 32 0x01085FFF) with
      | .next t => Memory.wf t.mem
      | _ => false) = true := by
  decide +kernel

/-- A U hart whose causes go to U, to K and nowhere, a supervisor hart, and a tile with nothing running. -/
theorem witness_TrapsAndInterruptsEnterTheirLevel :
    (let x := ((withHart fun h => { h with csr := { h.csr with udeleg := ~~~0, utvec := 0x400, kdeleg := ~~~0, ktvec := 0x800 } }).hart 0).drain
     x.mode = .user ∧ x.csr.uh = false ∧ x.csr.udeleg.getLsbD Cause.brk.code = true
     ∧ Cause.brk.code ∉ [0x05, 0x06, 0x10, 0x15, 0x16, 0x19, 0x1A] ∧ x.csr.utvec ≠ 0
     ∧ Cause.ecallU.code ∈ [0x05, 0x06, 0x10, 0x15, 0x16, 0x19, 0x1A] ∧ x.csr.kdeleg.getLsbD Cause.ecallU.code = true
     ∧ Cause.ecallU.code ≠ 0x06 ∧ x.csr.ktvec ≠ 0)
    ∧ (State.reset.hart 0).csr.kdeleg.getLsbD Cause.brk.code = false ∧ isSup 0 = false ∧ (State.reset.hart 0).mode ≠ .firmware
    ∧ isSup 12383 = true ∧ (State.reset.hart 12383).mode = .firmware ∧ (State.reset.tile 0).running = none := by
  decide +kernel

theorem witness_ParkingWritesTheFrame :
    isSup 12287 = false ∧ Memory.wf State.reset.mem = true ∧ (State.reset.tile 3071).flips = [] := by decide +kernel

def waitingFor (r : Reg) (left : Nat) (written check : Bool) : State := withHart fun h => { h with
  fixed := [{ dst := r, val := 7, left := left, old := 5, written := written }], csr := { h.csr with stallchk := check } }

theorem witness_ChecksComeBeforeEffects :
    State.reset.self.mode = .user ∧ kernel.self.mode ≠ .firmware
    ∧ (waitingFor (.g 1) 1 false true).self.csr.stallchk = true
    ∧ (waitingFor (.g 3) 3 false false).self.fixed.length = 1 ∧ (waitingFor (.g 1) 1 true false).self.csr.stallchk = false
    ∧ (waitingFor (.g 1) 1 false false).mustWait 0 [.g 1, .g 2, .g 3] = false
    ∧ (let s := nextOf (exec (.div 0 3 1 2) State.reset)
       s.self.fixed = [] ∧ s.mustWait 0 [.g 1, .g 2, .g 3] = true)
    ∧ isSup supervisor.cur = true := by
  decide +kernel

theorem witness_ChecksComeBeforeEffects_supervisor :
    ∀ o ∈ [reachOp [] [] 0, reachOp [.g 1, .v 2] [] 0, reachOp [.g 1, .g 2, .g 3, .g 4] [.g 5] 0, reachOp (.g 3 :: payloadRegs 7) [] 0],
      supervisor.canIssue o := canIssue_all (by decide +kernel)

/-- The first and last byte of the alias and of the window, and of the gaps around them. -/
theorem witness_AddressesReachTheirHomes :
    let one : State := { State.reset with tenants := [(0, { oneDie := true, x0 := 3, y0 := 0, x1 := 3, y1 := 0 })] }
    let c : Ctx := { tenant := 0, mode := .user, ptbase := 0, iset := 0, vt := 3, die := 0 }
    c.mode ≠ .firmware ∧ (0xFFFF000000000000 : Word).toNat = 0xFFFF000000000000 ∧ 0xFFFF0000003FFFFF < 0xFFFF000000400000
    ∧ 0xFFFE000000C00000 / 2 ^ 22 % 4096 = 3 ∧ one.inTenant 0 3 = true ∧ one.inTenant 0 4 = false ∧ c.ptbase.getLsbD 0 = false
    ∧ (one.locate c 0xFFFF000000000000 .load true).2 = .ok { place := slicePlace 3 0, rdw := false }
    ∧ (one.locate c 0xFFFF0000002FFFFF .load true).2 = .ok { place := slicePlace 3 0x2FFFFF, rdw := false }
    ∧ (one.locate c 0xFFFE000000C00000 .load true).2 = .ok { place := slicePlace 3 0, rdw := false }
    ∧ (one.locate c 0xFFFF000000300000 .load true).2 = .error (some .loadPf)
    ∧ (one.locate c 0xFFFF000000400000 .store true).2 = .error (some .storePf)
    ∧ (one.locate c 0xFFFE000001000000 .load true).2 = .error (some .tenantViol)
    ∧ (one.locate c (2 ^ 48 - 1) .fetch true).2 = .error (some .fetchPf) := by
  decide +kernel

/-- Watchpoint `i` on the dword at 0x100 of the own slice, the other off; lanes of 32 bits, k1 selecting lanes 0 and 1, and
rows of 64 bytes in m0. -/
def watched (i : Fin 2) (kinds : Nat) (halt : Bool) : State := ((inSlice.onHart 0 fun h => { h with csr := { h.csr with
  wp := h.csr.wp.set i (BitVec.ofNat 64 (0xFFFF000000000100 + 2 * kinds + 1)), dbgctl := if halt then 16 else 0, vtype := 10 } }).onHart 0
    fun h => ((({ h with mode := .kernel } : Hart).writeMshape 0x70).setG 2 4).setK 1 3)

/-- Loads, stores and atomics are placed; the lanes that k1 selects lie in the watched dword, the lower one first; the first row
holds it. -/
theorem witness_WatchpointsStopAccesses :
    (∀ i : Fin 2, ∀ s ∈ [watched i 1 false, watched i 2 true, watched i 3 false],
      s.self.csr.wp[i].getLsbD 0 = true ∧ s.self.csr.wp[1 - i].getLsbD 0 = false
      ∧ s.self.csr.wp[i].toNat / 8 * 8 = 0xFFFF000000000100 ∧ (s.self.finalG 1).toNat = 0xFFFF000000000100
      ∧ (∀ kind ∈ [AccessKind.load, .store, .amo], (s.placesOf kind [s.self.finalG 1]).2.toOption.isSome = true
        ∧ (s.placesOf kind [s.self.finalG 1, s.self.finalG 1 + 4]).2.toOption.isSome = true)
      ∧ elemWidth s.vtype / 8 = 4 ∧ (List.range (64 / 4)).filter (fun j => (s.self.finalMask 1).getLsbD j) = [0, 1]
      ∧ s.self.mWidth 0 = 64 ∧ s.self.mRows 0 = 16 ∧ s.self.posted.length = 0 ∧ s.self.accs = [])
    ∧ (∀ i : Fin 2, (watched i 1 false).self.csr.wp[i].toNat / 2 % 4 = 1 ∧ (watched i 2 true).self.csr.wp[i].toNat / 2 % 4 = 2)
    ∧ (watched 1 2 true).self.csr.dbgctl.getLsbD 4 = true ∧ isSup (watched 0 3 false).cur = false
    ∧ ((watched 0 3 false).placesOf .load ((List.range 16).map fun j =>
        (watched 0 3 false).self.finalG 1 + BitVec.ofNat 64 (j * 64))).2.toOption.isSome = true := by
  decide +kernel

theorem witness_WatchpointsStopAccesses_issue :
    ∀ o ∈ [regOp [.g 1] [.g 3] 0, reachOp [.g 1, .g 3] [] 0, reachOp [.g 1] [.g 3] 0, regOp [.g 1, .k 1] [.v 3] 0
      , regOp [.g 1, .g 2, .k 1] [.v 3] 0, regOp [.g 1, .v 2, .k 1] [.v 3] 0, reachOp [.g 1] [.m 0] 0, reachOp [.g 1, .v 2] [] 0
      , reachOp [.g 1, .v 3, .k 1] [] 0, reachOp [.g 1, .g 2, .v 3, .k 1] [] 0, reachOp [.g 1, .v 2, .v 3, .k 1] [] 0
      , reachOp [.m 0, .g 1] [] 0, reachOp [.g 1, .g 2] [.g 3] 0, reachOp [.g 1, .g 2, .g 3] [.g 3] 0],
      (watched 1 3 false).canIssue o := canIssue_all (by decide +kernel)

/-- R350: a byte store into the dword that watchpoint 1 watches raises WATCH with its address; a byte load does not. -/
theorem test_watchpoint :
    seen (exec (.stb 0 2 1 3) (watched 1 2 false)) (fun y => y.parked.map fun p => (p.cause, p.tval))
      = some (some (0x1B, 0xFFFF000000000103))
    ∧ seen (exec (.ldb 0 3 1 3) (watched 1 2 false)) (fun y => (y.parked.isSome, y.flights.length)) = some (false, 1) := by
  decide +kernel

end Sys2Proof.Tests
end

section
/-! Scalar instructions (R144-R151): what the shared shapes of fixed-latency results, branches and jumps leave, the values and
words of the members, and the statements that follow. -/

open Sys2Proof Sys2Proof.Machine Sys2Proof.Laws

namespace Sys2Proof.Machine

/-! ### Operands of an instruction that can issue -/

/-- The body finds in a g register what the register ends up holding (R25, R28). -/
theorem State.g_openBlock {s : State} {o : Op} {a : BitVec 5} (hc : s.canIssue o) (ha : Reg.g a ∈ o.reads) :
    (s.openBlock s.cur).self.g a = s.self.finalG a := by
  unfold Hart.g Hart.finalG
  rw [State.read_openBlock, State.read_settled hc ha]

theorem State.pc_openBlock (s : State) : (s.openBlock s.cur).self.pc = s.self.pc := by
  obtain ⟨c, hc⟩ := State.self_openBlock s
  rw [hc]

/-- The hart in the state in which its instruction acts: only its checker may differ (R321). -/
theorem State.hart_acting (s : State) : ∃ c, s.acting.hart s.cur = { s.self with checker := c } :=
  State.afterLookup_hart s.acting_lookup

theorem State.startG_openBlock (s : State) (d : BitVec 5) (v : Word) (n : Nat) :
    (s.openBlock s.cur).startG d v n = (s.openBlock s.cur).onHart s.cur fun x => x.start (.g d) v n := by
  unfold State.startG
  rw [State.cur_openBlock]

/-! ### Fixed-latency results -/

/-- `op gD, gA, gB` writes its function of the operands (R25). -/
theorem State.writes_of_fixed2 {s : State} {n : Nat} {sc : BitVec 3} {d a b : BitVec 5} {i : Instr} {f : Word → Word → Word}
    {v : Word} (hc : s.canIssue (regOp [.g a, .g b] [.g d] (n + 1))) (hi : exec i s = s.fixed2 (n + 1) sc d a b f)
    (hv : f (s.self.finalG a) (s.self.finalG b) = v) : s.writes (exec i s) sc (s.withG d v) := by
  have ha := State.g_openBlock (a := a) hc (by simp [regOp])
  have hb := State.g_openBlock (a := b) hc (by simp [regOp])
  subst hv
  rw [hi]
  exact State.run_start (.g d) _ n rfl rfl hc (by rw [ha, hb, State.startG_openBlock])

/-- `op gD, gA` writes its function of the operand (R25). -/
theorem State.writes_of_fixed1 {s : State} {sc : BitVec 3} {d a : BitVec 5} {i : Instr} {f : Word → Word} {v : Word}
    (hc : s.canIssue (regOp [.g a] [.g d] 1)) (hi : exec i s = s.fixed1 sc d a f) (hv : f (s.self.finalG a) = v) :
    s.writes (exec i s) sc (s.withG d v) := by
  have ha := State.g_openBlock (a := a) hc (by simp [regOp])
  subst hv
  rw [hi]
  exact State.run_start (.g d) _ 0 rfl rfl hc (by rw [ha, State.startG_openBlock])

/-- `op gD, imm` writes its function of the PC, and the PC moves on by the instruction's length (R25, R49). -/
theorem State.retires_of_fixed0 {s : State} {sc : BitVec 3} {d : BitVec 5} {bytes : Nat} {i : Instr} {f : Word → Word}
    {v : Word} (hc : s.canIssue (regOp [] [.g d] 1)) (hi : exec i s = s.fixed0 sc d bytes f) (hv : f s.self.pc = v) :
    ∃ t, exec i s = .next t ∧ s.retires t sc (s.self.pc + BitVec.ofNat 64 bytes) (s.withG d v) s.self.csr := by
  subst hv
  rw [hi]
  exact State.run_start (.g d) _ 0 rfl rfl hc (by rw [State.pc_openBlock, State.startG_openBlock])

/-! ### Transfers of control -/

/-- Retirement starts no result. -/
theorem State.fixed_retire {s : State} {h : Nat} (hs : (s.hart h).fixed = []) (o : Op) (mode : Mode) (taken : Bool) :
    ((s.retire h o mode taken).hart h).fixed = [] := by
  obtain ⟨c, -, hr⟩ := State.retire_frame s o taken h mode
  rw [hr, Hart.retired, Hart.charge_eq, Hart.age_of_empty _ (by exact hs)]
  exact hs

/-- A body that jumps, having changed only registers and results of its hart, retires at its target with every result in
flight written (R26) and the record of a taken transfer (R354). -/
theorem State.run_jump_to {s u : State} {o : Op} {body : State → Act} {target : Word} (hc : s.canIssue o)
    (hb : body (s.openBlock s.cur) = .jump u target) (hu : s.acting.onlyHart u s.cur)
    (hy : ∃ c, u.hart s.cur = { s.self with
      regs := (u.hart s.cur).regs, fixed := (u.hart s.cur).fixed, board := (u.hart s.cur).board, checker := c }) :
    ∃ t, s.run o body = .next (t.trace s.cur 1 target)
      ∧ s.retires t o.sc target (u.hart s.cur).settledRegs s.self.csr ∧ (t.hart s.cur).fixed = [] := by
  obtain ⟨c, hy⟩ := hy
  have hd := Hart.drain_frame (u.hart s.cur)
  refine ⟨_, State.run_jumped hc hb, ?_, State.fixed_retire (by rw [State.hart_onHart]; rfl) _ _ _⟩
  have hret := State.retire_retires (o := o) (taken := true) (State.hartAndTile_trans hu (State.onlyHart_onHart _ _ _)) rfl
    (State.hart_onHart u s.cur fun y => { y.drain with pc := target }) s.self.csr (by rw [hd, hy]) rfl rfl
    ⟨c, by dsimp only; rw [hd, hy]⟩
  have hregs : ({ (u.hart s.cur).drain with pc := target } : Hart).settledRegs = (u.hart s.cur).settledRegs :=
    (Hart.settledRegs_congr _ (u.hart s.cur).drain rfl rfl rfl).trans (Hart.settledRegs_drain _)
  rw [hregs] at hret
  exact hret

/-- A jump that links leaves the address of the next instruction in g[D] (R151). -/
theorem State.run_link {s : State} {o : Op} {body : State → Act} {d : BitVec 5} {target : Word} (hc : s.canIssue o)
    (hl : o.latency = 1) (hw : o.writes = [.g d])
    (hb : body (s.openBlock s.cur) = .jump ((s.openBlock s.cur).startG d (s.self.pc + 4) 1) target) :
    ∃ t, s.run o body = .next (t.trace s.cur 1 target) ∧ s.retires t o.sc target (s.withG d (s.self.pc + 4)) s.self.csr
      ∧ (t.hart s.cur).fixed = [] := by
  obtain ⟨c, hoc⟩ := State.hart_acting s
  rw [State.startG_openBlock, ← hl] at hb
  have hjump := State.run_jump_to hc hb (State.onlyHart_onHart _ _ _)
    ⟨c, by rw [State.hart_onHart, ← State.acting, hoc]; unfold Hart.start; split <;> rfl⟩
  rw [State.hart_onHart, ← State.acting, hoc, State.settled_start (.g d) _ 0 hl hw hc] at hjump
  exact hjump

/-- What a conditional branch does, by its condition on the operands (R26, R150). -/
theorem State.branch_result {s : State} {sc : BitVec 3} {a b : BitVec 5} {o : BitVec 12} {i : Instr}
    {f : Word → Word → Bool} {c : Bool} (hc : s.canIssue (regOp [.g a, .g b] [] 0)) (hi : exec i s = s.branch sc a b o f)
    (hv : f (s.self.finalG a) (s.self.finalG b) = c) :
    if c then
      ∃ t, exec i s = .next (t.trace s.cur 1 (s.self.pc + 4 * o.signExtend 64))
        ∧ s.retires t sc (s.self.pc + 4 * o.signExtend 64) s.self.settledRegs s.self.csr ∧ (t.hart s.cur).fixed = []
    else s.writes (exec i s) sc s.self.settledRegs := by
  have ha := State.g_openBlock (a := a) hc (by simp [regOp])
  have hb := State.g_openBlock (a := b) hc (by simp [regOp])
  obtain ⟨k, hk⟩ := State.hart_acting s
  have hregs : (s.acting.hart s.cur).settledRegs = s.self.settledRegs := by
    rw [hk]
    exact Hart.settledRegs_congr _ _ rfl rfl rfl
  have hself : ∃ c, s.acting.hart s.cur = { s.self with
      regs := (s.acting.hart s.cur).regs, fixed := (s.acting.hart s.cur).fixed, board := (s.acting.hart s.cur).board
      checker := c } := ⟨k, by rw [hk]⟩
  let op : Op := { sc := sc, reads := [.g a, .g b], writes := [] }
  rw [hi, State.branch, ← hregs]
  cases c with
  | true =>
    refine State.run_jump_to (o := op) hc ?_ (State.onlyHart_refl _ _) hself
    rw [ha, hb, hv, State.pc_openBlock]
    rfl
  | false =>
    refine State.run_to (o := op) hc ?_ (State.hartAndTile_refl _ _) rfl _ (by rw [hk]) rfl rfl ⟨k, by rw [hk]⟩
    rw [ha, hb, hv]
    rfl

/-- A trap that the body decides on is raised in the state in which it acts (R28, R290). -/
theorem State.run_trap {s : State} {o : Op} {body : State → Act} {c : Cause} {tval : Word} (hc : s.canIssue o)
    (hb : body (s.openBlock s.cur) = .trap c tval) : s.run o body = .next (s.acting.raise s.cur c tval) := by
  obtain ⟨hmode, hdist, hwait, hreach⟩ := hc
  have hsoon : (s.self.csr.stallchk && s.self.tooSoon o.reads o.writes o.latency) = false := by
    rw [Hart.distancesMet_tooSoon hdist, Bool.and_false]
  have hissue : (s.mustWait s.cur (o.reads ++ o.writes) || o.reach && !s.settled s.cur) = false := by
    cases hr : o.reach <;> simp [hwait, hreach, hr]
  unfold State.run
  dsimp only
  rw [← State.self, if_neg (Nat.not_lt.mpr hmode), hsoon, hissue, hb]
  rfl

/-! ### Values of the integer tables (R144, R145) -/

theorem ite_slt {α : Type} (a b : Word) (x y : α) : (if slt a b then x else y) = if b.toInt ≤ a.toInt then y else x := by
  by_cases h : a.toInt < b.toInt
  · simp [slt, h]
  · simp [slt, h, Int.not_lt.mp h]

theorem ite_ult {α : Type} (a b : Word) (x y : α) : (if ult a b then x else y) = if b.toNat ≤ a.toNat then y else x := by
  by_cases h : a.toNat < b.toNat
  · simp [ult, h]
  · simp [ult, h, Nat.not_lt.mp h]

theorem not_slt (a b : Word) : (!slt a b) = decide (b.toInt ≤ a.toInt) := by
  rw [slt, ← decide_not, decide_eq_decide, Int.not_lt]

theorem not_ult (a b : Word) : (!ult a b) = decide (b.toNat ≤ a.toNat) := by
  rw [ult, ← decide_not, decide_eq_decide, Nat.not_lt]

theorem truth_decide (p : Prop) [Decidable p] : truth (decide p) = if p then 1 else 0 := by
  by_cases h : p <;> simp [truth, h]

theorem truth_slt (a b : Word) : truth (slt a b) = if a.toInt < b.toInt then 1 else 0 := truth_decide _

theorem truth_ult (a b : Word) : truth (ult a b) = if a.toNat < b.toNat then 1 else 0 := truth_decide _

theorem truth_beq (a b : Word) : truth (a == b) = if a = b then 1 else 0 := by
  by_cases h : a = b <;> simp [truth, h]

theorem truth_bne (a b : Word) : truth (a != b) = if a = b then 0 else 1 := by
  by_cases h : a = b <;> simp [truth, h]

/-- The highest one bit of a word that has it at `k`. -/
theorem clz_of_top {x : Word} {k : Nat} (h : x.toNat / 2 ^ k = 1) : clz x = BitVec.ofNat 64 (63 - k) := by
  have hx : x ≠ 0 := fun e => by simp [e] at h
  have hn : x.toNat ≠ 0 := fun e => hx (BitVec.eq_of_toNat_eq e)
  have hlog : x.toNat.log2 = k := by
    rw [Nat.log2_eq_iff hn, Nat.pow_succ]
    have := (Nat.div_eq_iff (Nat.two_pow_pos k)).mp h
    omega
  rw [clz, if_neg hx, hlog]

/-- The bits up to the lowest one bit. -/
theorem getLsbD_of_mod {x : Word} {k : Nat} (h : x.toNat % 2 ^ (k + 1) = 2 ^ k) {j : Nat} (hj : j ≤ k) :
    x.getLsbD j = decide (k = j) := by
  have hb := congrArg (Nat.testBit · j) h
  simp only [Nat.testBit_mod_two_pow, Nat.testBit_two_pow] at hb
  rw [← hb]
  simp [BitVec.getLsbD, Nat.lt_succ_of_le hj]

/-- A word and its negative have in common the lowest one bit alone. -/
theorem and_neg_of_mod {x : Word} {k : Nat} (hk : k < 64) (h : x.toNat % 2 ^ (k + 1) = 2 ^ k) :
    x &&& -x = BitVec.twoPow 64 k := by
  apply BitVec.eq_of_getLsbD_eq
  intro i hi
  rw [BitVec.getLsbD_and, BitVec.getLsbD_neg, BitVec.getLsbD_twoPow]
  rcases Nat.lt_trichotomy i k with hik | rfl | hik
  · simp [getLsbD_of_mod h hik.le, hik.ne']
  · have hlow : ¬ ∃ j < i, x.getLsbD j = true := by
      rintro ⟨j, hj, hb⟩
      simp [getLsbD_of_mod h hj.le, hj.ne'] at hb
    simp [getLsbD_of_mod h le_rfl, hlow, hi]
  · have hlow : ∃ j < i, x.getLsbD j = true := ⟨k, hik, by simp [getLsbD_of_mod h le_rfl]⟩
    simp [hlow, hi, hik.ne]

/-- The lowest one bit of a word that has it at `k`. -/
theorem ctz_of_mod {x : Word} {k : Nat} (hk : k < 64) (h : x.toNat % 2 ^ (k + 1) = 2 ^ k) : ctz x = BitVec.ofNat 64 k := by
  have hx : x ≠ 0 := fun e => by
    have := Nat.two_pow_pos k
    simp [e] at h
    omega
  rw [ctz, if_neg hx, and_neg_of_mod hk h, BitVec.toNat_twoPow, Nat.mod_eq_of_lt (Nat.pow_lt_pow_right (by decide) hk),
    Nat.log2_two_pow]

/-- The number whose bits below `n` are given. -/
def bitSum (f : Nat → Bool) (n : Nat) : Nat := (List.range n).foldl (fun r i => r + (f i).toNat * 2 ^ i) 0

theorem bitSum_succ (f : Nat → Bool) (n : Nat) : bitSum f (n + 1) = 2 ^ n * (f n).toNat + bitSum f n := by
  simp [bitSum, List.range_succ, Nat.add_comm, Nat.mul_comm]

theorem bitSum_lt (f : Nat → Bool) (n : Nat) : bitSum f n < 2 ^ n := by
  induction n with
  | zero => simp [bitSum]
  | succ n ih =>
    rw [bitSum_succ, Nat.pow_succ]
    cases f n <;> simp <;> omega

theorem testBit_bitSum (f : Nat → Bool) (n i : Nat) : (bitSum f n).testBit i = (decide (i < n) && f i) := by
  induction n with
  | zero => simp [bitSum]
  | succ n ih =>
    rw [bitSum_succ, Nat.testBit_two_pow_mul_add _ (bitSum_lt f n), ih]
    rcases Nat.lt_trichotomy i n with h | rfl | h
    · simp [h, Nat.lt_succ_of_lt h]
    · cases f i <;> simp
    · have hbit : ((f n).toNat).testBit (i - n) = false :=
        Nat.testBit_lt_two_pow ((f n).toNat_lt.trans_le (Nat.pow_le_pow_right Nat.two_pos (by omega : 1 ≤ i - n)))
      have hi : ¬ i < n + 1 := by omega
      rw [if_neg h.le.not_gt, hbit, decide_eq_false hi, Bool.false_and]

theorem brev_eq_bitSum (x : Word) : brev x = BitVec.ofNat 64 (bitSum (fun i => x.getLsbD (63 - i)) 64) := rfl

theorem getLsbD_brev (x : Word) {i : Nat} (hi : i < 64) : (brev x).getLsbD i = x.getLsbD (63 - i) := by
  rw [brev_eq_bitSum, BitVec.getLsbD_ofNat, testBit_bitSum]
  simp [hi]

theorem sext_eq (x : Word) (n : Nat) : sext x n = (x.truncate n : BitVec n).signExtend 64 := by
  rw [sext, BitVec.ofNat_toNat]

theorem zext_eq (x : Word) (n : Nat) : zext x n = (x.truncate n : BitVec n).zeroExtend 64 := by
  rw [zext, BitVec.ofNat_toNat]

theorem truncate_sub (x y : Word) : ((x - y).truncate 32 : Word32) = x.truncate 32 - y.truncate 32 := by
  simp only [BitVec.sub_eq_add_neg, BitVec.truncate_eq_setWidth, BitVec.setWidth_add _ _ (by decide : 32 ≤ 64),
    BitVec.setWidth_neg_of_le (by decide : 32 ≤ 64)]

/-- A W form takes its shift amount from bits that the low half keeps (R145). -/
theorem low5_eq (y : Word) : low5 y = (y.truncate 32 : Word32).toNat % 32 := by
  rw [low5, BitVec.truncate_eq_setWidth, BitVec.toNat_setWidth, Nat.mod_mod_of_dvd _ (by decide)]

theorem onLow_low5 (f : Word32 → Nat → Word32) (x y : Word) : onLow (fun z => f z (low5 y)) x
    = (f (x.truncate 32) ((y.truncate 32 : Word32).toNat % 32)).signExtend 64 := by
  rw [onLow, low5_eq]

theorem truncate_signExtend (i : BitVec 12) : ((i.signExtend 64).truncate 32 : Word32) = i.signExtend 32 := by
  apply BitVec.eq_of_getLsbD_eq
  intro j hj
  have hj' : j < 64 := by omega
  simp only [BitVec.truncate_eq_setWidth, BitVec.getLsbD_setWidth, BitVec.getLsbD_signExtend, hj, hj', decide_true,
    Bool.true_and]

/-- ADDIW keeps the low half of its sum (R147). -/
theorem truncate_add_imm (x : Word) (i : BitVec 12) :
    ((x + i.signExtend 64).truncate 32 : Word32) = x.truncate 32 + i.signExtend 32 := by
  rw [BitVec.truncate_eq_setWidth, BitVec.setWidth_add _ _ (by decide), ← truncate_signExtend]

/-! ### Words -/

/-- The members of INT with one operand leave B zero: their code stands in B and FN together (R39, R50). -/
theorem append_unary_code (p : BitVec 10) {c : BitVec 7} {q : BitVec 12} (hq : 0#5 ++ c = q) :
    (p ++ q : BitVec 22) = p ++ 0#5 ++ c := by
  subst hq
  rw [BitVec.append_assoc, BitVec.cast_eq]

/-- The kind and the amount of SHIFTI fill the immediate of format I (R40, R148). -/
theorem append_shifti_code (p : BitVec 10) (kind h : BitVec 6) :
    (p ++ kind ++ h : BitVec 22) = p ++ (kind ++ h : BitVec 12) := by
  rw [BitVec.append_assoc, BitVec.cast_eq]

theorem append_shiftiW_code (p : BitVec 10) (kind : BitVec 7) (h : BitVec 5) :
    (p ++ kind ++ h : BitVec 22) = p ++ (kind ++ h : BitVec 12) := by
  rw [BitVec.append_assoc, BitVec.cast_eq]

/-- ADDSH keeps its shift in the two low bits of FN (R144). -/
theorem append_addsh_code (p : BitVec 15) (h : BitVec 2) :
    (p ++ 8#5 ++ h : BitVec 22) = p ++ (0x20 + h.zeroExtend 7 : BitVec 7) := by
  have hfn : (0x20 + h.zeroExtend 7 : BitVec 7) = 8#5 ++ h := by
    revert h
    decide
  rw [hfn]
  exact BitVec.append_assoc

theorem decode_of_error {w w2 : Word32} {e : DecodeError} (h : decodeFields w w2 = .error e) : decode w w2 = .error e := by
  unfold decode
  rw [h]

/-- R148: bit 5 belongs to no W form of SHIFTI. -/
theorem decodeSHIFTI_bit5 {w : Word32} {kind : BitVec 2} (hk : fld w 6 6 = 0#3 ++ 1#1 ++ kind) (h5 : fld w 5 1 = 1#1) :
    decodeSHIFTI w = .error .nonzeroField := by
  unfold decodeSHIFTI
  rw [hk, h5]
  have hkinds : ∀ k : BitVec 2, k = 0 ∨ k = 1 ∨ k = 2 ∨ k = 3 := by decide
  rcases hkinds kind with rfl | rfl | rfl | rfl <;> rfl

/-- The fields that SHIFTI reads of a word with its kind and bit 5 apart. -/
theorem fld_shifti (sc : BitVec 3) (op : BitVec 7) (p : BitVec 10) (kind : BitVec 2) (g : BitVec 1) (h : BitVec 5) :
    fld (pack sc op (p ++ 0#3 ++ 1#1 ++ kind ++ g ++ h)) 6 6 = 0#3 ++ 1#1 ++ kind
      ∧ fld (pack sc op (p ++ 0#3 ++ 1#1 ++ kind ++ g ++ h)) 5 1 = g := by
  have hp : (p ++ 0#3 ++ 1#1 ++ kind : BitVec 16) = p ++ (0#3 ++ 1#1 ++ kind) := by
    rw [show (p ++ 0#3 ++ 1#1 : BitVec 14) = p ++ (0#3 ++ 1#1) from BitVec.append_assoc]
    exact BitVec.append_assoc
  constructor
  · rw [fld_lo _ _ _ _ _ (by decide), ext_hi _ h 6 6 (by decide), ext_hi _ g (6 - 5) 6 (by decide), hp,
      ext_lo _ _ _ _ (by decide)]
    exact ext_all _
  · rw [fld_lo _ _ _ _ _ (by decide), ext_hi _ h 5 1 (by decide), ext_lo _ g (5 - 5) 1 (by decide)]
    exact ext_all _

/-- R148: a W form of SHIFTI with bit 5 set is reserved. -/
theorem decode_shiftiW_bit5 (sc : BitVec 3) (p : BitVec 10) (kind : BitVec 2) (h : BitVec 5) (w2 : Word32) :
    decode (pack sc 0x0A#7 (p ++ 0#3 ++ 1#1 ++ kind ++ 1#1 ++ h)) w2 = .error .nonzeroField := by
  obtain ⟨hk, h5⟩ := fld_shifti sc 0x0A#7 p kind 1#1 h
  exact decode_of_error ((decodeFields_0a _ _ (fld_op _ _ _)).trans (decodeSHIFTI_bit5 hk h5))

end Sys2Proof.Machine

/-- Settles O1, member by member: each is a fixed-latency result of its operands, and what the model computes is the table's
value; CLZ, CTZ and BREV by the bits they stand for (R144, R145). -/
theorem intAndIntwGroupsWriteTheirTables : Obligations.IntAndIntwGroupsWriteTheirTables := by
  unfold Obligations.IntAndIntwGroupsWriteTheirTables
  refine ⟨?_, ?_, fun sc d a b h => ⟨?_, ?_, ?_⟩⟩
  · intro sc d a b h s x y n
    refine ⟨fun hc => ?_, fun hc => ?_⟩
    · simp only [List.forall_mem_cons]
      exact ⟨State.writes_of_fixed2 hc (exec_add ..) rfl,
        State.writes_of_fixed2 hc (exec_sub ..) rfl,
        State.writes_of_fixed2 hc (exec_and ..) rfl,
        State.writes_of_fixed2 hc (exec_or ..) rfl,
        State.writes_of_fixed2 hc (exec_xor ..) rfl,
        State.writes_of_fixed2 hc (exec_andn ..) rfl,
        State.writes_of_fixed2 hc (exec_orn ..) rfl,
        State.writes_of_fixed2 hc (exec_sll ..) rfl,
        State.writes_of_fixed2 hc (exec_srl ..) rfl,
        State.writes_of_fixed2 hc (exec_sra ..) rfl,
        State.writes_of_fixed2 hc (exec_rol ..) rfl,
        State.writes_of_fixed2 hc (exec_ror ..) rfl,
        State.writes_of_fixed2 hc (exec_slt ..) (truth_slt ..),
        State.writes_of_fixed2 hc (exec_sltu ..) (truth_ult ..),
        State.writes_of_fixed2 hc (exec_seq ..) (truth_beq ..),
        State.writes_of_fixed2 hc (exec_sne ..) (truth_bne ..),
        State.writes_of_fixed2 hc (exec_min ..) (ite_slt ..),
        State.writes_of_fixed2 hc (exec_max ..) (ite_slt ..),
        State.writes_of_fixed2 hc (exec_minu ..) (ite_ult ..),
        State.writes_of_fixed2 hc (exec_maxu ..) (ite_ult ..),
        State.writes_of_fixed2 hc (exec_addsh ..) rfl, List.forall_mem_nil _⟩
    · exact ⟨⟨_, State.writes_of_fixed1 hc (exec_clz ..) rfl, fun hx => if_pos hx, fun k _ hk => clz_of_top hk⟩,
        ⟨_, State.writes_of_fixed1 hc (exec_ctz ..) rfl, fun hx => if_pos hx, fun k hk hx => ctz_of_mod hk hx⟩,
        State.writes_of_fixed1 hc (exec_popc ..) rfl,
        ⟨_, State.writes_of_fixed1 hc (exec_brev ..) rfl, fun i hi => getLsbD_brev _ hi⟩,
        State.writes_of_fixed1 hc (exec_sextb ..) (sext_eq ..),
        State.writes_of_fixed1 hc (exec_sexth ..) (sext_eq ..),
        State.writes_of_fixed1 hc (exec_sextw ..) (sext_eq ..),
        State.writes_of_fixed1 hc (exec_zextw ..) (zext_eq ..)⟩
  · intro sc d a b s x y n hc
    simp only [List.forall_mem_cons]
    exact ⟨State.writes_of_fixed2 hc (exec_addw ..) (congrArg _ (BitVec.setWidth_add _ _ (by decide))),
      State.writes_of_fixed2 hc (exec_subw ..) (congrArg _ (truncate_sub ..)),
      State.writes_of_fixed2 hc (exec_sllw ..) (onLow_low5 (· <<< ·) ..),
      State.writes_of_fixed2 hc (exec_srlw ..) (onLow_low5 (· >>> ·) ..),
      State.writes_of_fixed2 hc (exec_sraw ..) (onLow_low5 BitVec.sshiftRight ..),
      State.writes_of_fixed2 hc (exec_rolw ..) (onLow_low5 BitVec.rotateLeft ..),
      State.writes_of_fixed2 hc (exec_rorw ..) (onLow_low5 BitVec.rotateRight ..), List.forall_mem_nil _⟩
  · simp only [List.forall_mem_cons]
    exact ⟨rfl, rfl, rfl, rfl, rfl, rfl, rfl, rfl, rfl, rfl, rfl, rfl, rfl, rfl, rfl, rfl, rfl, rfl, rfl, rfl,
      congrArg (pack sc 0x01#7) (append_addsh_code _ h), List.forall_mem_nil _⟩
  · simp only [List.forall_mem_cons]
    have hcode (c : BitVec 7) (q : BitVec 12) (hq : 0#5 ++ c = q) :=
      congrArg (pack sc 0x01#7) (append_unary_code (d ++ a) hq)
    exact ⟨hcode _ _ rfl, hcode _ _ rfl, hcode _ _ rfl, hcode _ _ rfl, hcode _ _ rfl, hcode _ _ rfl, hcode _ _ rfl,
      hcode _ _ rfl, List.forall_mem_nil _⟩
  · simp only [List.forall_mem_cons]
    exact ⟨rfl, rfl, rfl, rfl, rfl, rfl, rfl, List.forall_mem_nil _⟩

/-- Settles O3, member by member; the words of SHIFTI by the fields that its kind and amount fill, and the reserved W forms
by what the decoder asks of bit 5 (R147-R149). -/
theorem immediateAndConstantForms : Obligations.ImmediateAndConstantForms := by
  unfold Obligations.ImmediateAndConstantForms
  intro sc d a imm h6 h5 u w s x x32 i
  refine ⟨fun hc => ?_, fun hc => ⟨?_, ?_, ?_⟩, ?_, rfl, rfl, rfl, rfl, fun kind w2 => ⟨_, decode_shiftiW_bit5 ..⟩⟩
  · simp only [List.forall_mem_cons]
    exact ⟨State.writes_of_fixed1 hc (exec_addi ..) rfl,
      State.writes_of_fixed1 hc (exec_andi ..) rfl,
      State.writes_of_fixed1 hc (exec_ori ..) rfl,
      State.writes_of_fixed1 hc (exec_xori ..) rfl,
      State.writes_of_fixed1 hc (exec_slti ..) (truth_slt ..),
      State.writes_of_fixed1 hc (exec_sltiu ..) (truth_ult ..),
      State.writes_of_fixed1 hc (exec_addiw ..) (congrArg _ (truncate_add_imm ..)),
      State.writes_of_fixed1 hc (exec_slli ..) rfl,
      State.writes_of_fixed1 hc (exec_srli ..) rfl,
      State.writes_of_fixed1 hc (exec_srai ..) rfl,
      State.writes_of_fixed1 hc (exec_rori ..) rfl,
      State.writes_of_fixed1 hc (exec_slliw ..) rfl,
      State.writes_of_fixed1 hc (exec_srliw ..) rfl,
      State.writes_of_fixed1 hc (exec_sraiw ..) rfl,
      State.writes_of_fixed1 hc (exec_roriw ..) rfl, List.forall_mem_nil _⟩
  · exact State.retires_of_fixed0 hc (exec_lui ..) rfl
  · exact State.retires_of_fixed0 hc (exec_auipc ..) rfl
  · exact State.retires_of_fixed0 hc (exec_liw ..) rfl
  · simp only [List.forall_mem_cons]
    have hshift (k : BitVec 6) := congrArg (pack sc 0x0A#7) (append_shifti_code (d ++ a) k h6)
    have hshiftW (k : BitVec 7) := congrArg (pack sc 0x0A#7) (append_shiftiW_code (d ++ a) k h5)
    exact ⟨rfl, rfl, rfl, rfl, rfl, rfl, rfl, hshift 0#6, hshift 1#6, hshift 2#6, hshift 3#6,
      hshiftW 8#7, hshiftW 10#7, hshiftW 12#7, hshiftW 14#7, List.forall_mem_nil _⟩

/-- Settles O4, by the condition: the body jumps from the state in which it acts, or leaves that state as it is (R150). -/
theorem branchesTakeTheirCondition : Obligations.BranchesTakeTheirCondition := by
  unfold Obligations.BranchesTakeTheirCondition
  intro sc a b o s x y target
  refine ⟨?_, fun hc => ?_⟩
  · simp only [List.forall_mem_cons]
    exact ⟨rfl, rfl, rfl, rfl, rfl, rfl, List.forall_mem_nil _⟩
  · simp only [List.forall_mem_cons]
    exact ⟨State.branch_result hc (exec_beq ..) rfl,
      State.branch_result hc (exec_bne ..) (by rw [Bool.eq_iff_iff, bne_iff_ne, decide_eq_true_iff]),
      State.branch_result hc (exec_blt ..) rfl,
      State.branch_result hc (exec_bge ..) (not_slt ..),
      State.branch_result hc (exec_bltu ..) rfl,
      State.branch_result hc (exec_bgeu ..) (not_ult ..), List.forall_mem_nil _⟩

/-- Settles O5: the target is formed in the body before the link starts (R151). -/
theorem jumpsLinkAndGo : Obligations.JumpsLinkAndGo := by
  unfold Obligations.JumpsLinkAndGo
  intro sc d a o imm s link
  refine ⟨rfl, rfl, fun hc => ?_, fun hc => ?_⟩
  · rw [exec_jal]
    exact State.run_link (o := { sc := sc, reads := [], writes := [.g d], latency := 1 }) hc rfl rfl
      (by rw [State.pc_openBlock])
  · have ha := State.g_openBlock (a := a) hc (by simp [regOp])
    intro target
    rw [exec_jalr]
    split
    next h =>
      refine State.run_link (o := { sc := sc, reads := [.g a], writes := [.g d], latency := 1 }) hc rfl rfl ?_
      rw [ha, State.pc_openBlock]
      exact if_neg (not_not_intro h)
    next h =>
      refine State.run_trap (o := { sc := sc, reads := [.g a], writes := [.g d], latency := 1 }) hc ?_
      rw [ha]
      exact if_pos h

end
